-- ==== Sys2Proof/Word.lean ====
section
/-!
DEFINITION. The plain word types of the part and their plainest arithmetic. R1: bits are numbered from 0 at
the least significant end.
-/
namespace Sys2Proof

/-- One byte. -/
abbrev Byte := BitVec 8

/-- A scalar register, an address word or a control word: 64 bits. -/
abbrev Word := BitVec 64

/-- A line of memory or a vector register: 64 bytes, byte 0 in bits 7..0 (R1, R197). -/
abbrev Line := BitVec 512

/-- An instruction word (R45). -/
abbrev IWord := BitVec 96

/-- The bytes of a line (R67). -/
def lineBytes : Nat := 64

/-- The bytes of a granule (R67). -/
def granBytes : Nat := 16

/-- The bytes of a row (R89). -/
def rowBytes : Nat := 2048

/-- The bytes of the smallest page (R356). -/
def pageBytes : Nat := 65536

/-- The line that holds a byte address. -/
def lineOf (a : Nat) : Nat := a / lineBytes * lineBytes

/-- The granule that holds a byte address. -/
def granOf (a : Nat) : Nat := a / granBytes * granBytes

/-- The row that holds a byte address. -/
def rowOf (a : Nat) : Nat := a / rowBytes * rowBytes

/-- The 64 KiB page that holds a byte address. -/
def pageOf (a : Nat) : Nat := a / pageBytes * pageBytes

end Sys2Proof
end

