-- ==== Sys2Proof/Syntax.lean ====
section
/-!
DEFINITION. The abstract syntax: the operand fields of each instruction format (R50), ONE constructor for each row of
the table of operations and events, and the operands of events. What an instruction word's header adds (the guard,
R45) stands beside the instruction, not in it. An event has no word: its constructor has no field, and what the outside
supplies with it, or which waiting unit it moves, stands beside it in an EventIn. A constructor's comment names its row and rule.
-/
namespace Sys2Proof

/-- A register operand as its 6-bit specifier names it (R47). In class 0x1 FA forms x0 to x7 stand for p0 to p7 (R129). -/
inductive Specifier where
  | x (n : Fin 32)
  | v (n : Fin 8)
  | s (n : Fin 4)
  | q (n : Fin 4)
  | a (n : Fin 4)
  | reserved (n : Fin 12)
  deriving DecidableEq, Repr, Inhabited

/-- An element type code (R49). -/
inductive ElemType where
  | i64 | i32 | i8 | f32 | bf16 | e4m3 | e5m2 | e2m1
  | reserved (n : Fin 8)
  deriving DecidableEq, Repr, Inhabited

/-- The guard of an instruction word (R45, R46): the predicate it selects and whether it is negated. -/
structure Guard where
  neg : Bool
  pred : Fin 8
  deriving DecidableEq, Repr, Inhabited

/-- The guard of an unguarded instruction (R43). -/
def Guard.always : Guard := ⟨false, 0⟩

/-- Format FA (R50). -/
structure FA where
  d : Specifier
  a : Specifier
  b : Specifier
  c : Specifier
  ty : ElemType
  md : BitVec 8
  deriving DecidableEq, Repr, Inhabited

/-- Format FI (R50). -/
structure FI where
  d : Specifier
  a : Specifier
  ty : ElemType
  imm : BitVec 48
  deriving DecidableEq, Repr, Inhabited

/-- Format FM (R50). -/
structure FM where
  t : Specifier
  base : Specifier
  idx : Specifier
  sc : BitVec 3
  sz : BitVec 3
  ql : BitVec 4
  od : BitVec 4
  disp : BitVec 32
  deriving DecidableEq, Repr, Inhabited

/-- Format FB (R50). -/
structure FB where
  a : Specifier
  b : Specifier
  cc : BitVec 4
  md : BitVec 8
  disp : BitVec 40
  deriving DecidableEq, Repr, Inhabited

/-- Format FX (R50). -/
structure FX where
  d : Specifier
  a : Specifier
  b : Specifier
  c : Specifier
  tya : ElemType
  tyb : ElemType
  md : BitVec 8
  imm : BitVec 16
  deriving DecidableEq, Repr, Inhabited

/-- Format FH (R50). -/
structure FH where
  d : Specifier
  a : Specifier
  b : Specifier
  c : Specifier
  tbl : BitVec 6
  md : BitVec 4
  cnt : BitVec 16
  deriving DecidableEq, Repr, Inhabited

/-- Format FS (R50). -/
structure FS where
  d : Specifier
  a : Specifier
  b : Specifier
  sel : BitVec 16
  imm : BitVec 32
  deriving DecidableEq, Repr, Inhabited

/-- The kinds of executor (R63, R114). -/
inductive ExecKind where
  | tile | bank | walker | service
  deriving DecidableEq, Repr, Inhabited

/-- One executor of the module: a tile's (0 to 40,959), a B-executor (0 to 393,215, R273), a cluster's Skink walker
(0 to 639) or a service core (R64). -/
inductive ExecId where
  | tile (n : Nat)
  | bank (n : Nat)
  | skink (cluster : Nat)
  | core (n : Nat)
  deriving DecidableEq, Repr, Inhabited

/-- A firmware image as the boot sees it (R24): the digest, the signature over it and the security version. -/
structure FwImage where
  digest : BitVec 384
  signature : BitVec 768
  version : BitVec 16
  deriving DecidableEq, Repr, Inhabited

/-- How the work of a boot stage ends, apart from the verification of images (R22, R25, R27). -/
inductive StageResult where
  | done
  | readError
  | fatal (err : BitVec 8)
  deriving DecidableEq, Repr, Inhabited

/-- What Create Tenant allots (R374, R18, R353). -/
structure TenantReq where
  tenant : Nat
  asidFirst : Nat
  asidCount : Nat
  vecFirst : Nat
  vecCount : Nat
  keyFirst : Nat
  keyCount : Nat
  objects : Nat
  ctxFirst : Nat
  ctxCount : Nat
  domains : List (Nat × Word)
  engagement : Word
  deriving DecidableEq, Repr, Inhabited

/-- A store to an ISLCTL register whose REQ field the constructor names (R29): the other fields it writes. -/
structure IslWrite where
  island : Nat
  fcap : BitVec 16
  clearDone : Bool
  deriving DecidableEq, Repr, Inhabited

/-- The readings the power controller takes at a 50 microsecond interval (R35, R36, R39). -/
structure PowerReading where
  pnow : BitVec 32
  islandPower : List (BitVec 32)
  islandTemp : List (BitVec 16)
  deriving DecidableEq, Repr, Inhabited

/-- A command store of a party outside the rows (device firmware or the host, R95): the row's device-physical address,
the PRIO field, and the PC word when the store covers it. -/
structure CmdArg where
  row : Nat
  prio : BitVec 8
  pc : Option Word
  deriving DecidableEq, Repr, Inhabited

/-- Which access an ENGACC move takes (R84, R85): the next access with this index of the head command of a context, or
an element of a one-sided operation. -/
inductive AccessId where
  | command (ctx index : Nat)
  | element (op index : Nat)
  deriving DecidableEq, Repr, Inhabited

/-- One choice of the hot-page tracker in a period (R365): a move of a page to a frame or to the far tier, or a
duplication. -/
inductive TrackerMove where
  | toFrame (page stack frame : Nat)
  | toFar (page fpn : Nat)
  | duplicate (page stack frame : Nat)
  deriving DecidableEq, Repr, Inhabited

/-- The fields of a flit (R375): its header and its payload. -/
structure Flit where
  seq : BitVec 12
  typ : BitVec 4
  ack : BitVec 12
  nak : Bool
  dst : BitVec 12
  hops : BitVec 4
  src : BitVec 12
  kind : Byte
  tenant : Byte
  tag : BitVec 16
  payload : List Byte
  deriving DecidableEq, Repr, Inhabited

/-- The atomic operations (R190). -/
inductive AtomOp where
  | add | and | or | xor | min | max | minu | maxu | swap | cas | faddF32 | faddBf16
  deriving DecidableEq, Repr, Inhabited

/-- An inbound request of the fabric (R378, R379): who sends it, to which tenant, and what it asks. -/
structure Inbound where
  port : Nat
  smod : BitVec 12
  stenant : BitVec 6
  dtenant : BitVec 6
  tag : Nat
  va : Word
  n : Nat
  bytes : List Byte
  op : AtomOp
  v : Word
  w : Word
  object : Nat
  acquire : Bool
  deriving DecidableEq, Repr, Inhabited

/-- The SPDM requests the device answers (R373). -/
inductive SpdmReq where
  | certificates
  | challenge (nonce : BitVec 256)
  | measurements
  | keyExchange
  | endSession
  deriving DecidableEq, Repr, Inhabited

/-- The operands of an event: what the outside supplies with it, or which unit it moves. A number names the thread, tenant,
context, stack, port or other unit that the event is about. -/
inductive EventIn where
  | none
  | unit (n : Nat)
  | pair (n m : Nat)
  | triple (n m k : Nat)
  | stage (r : StageResult)
  | image (img : FwImage)
  | mailboxOp (op : BitVec 16)
  | tenantReq (r : TenantReq)
  | window (tenant win : Nat) (winb wins : Word)
  | key (tenant slot : Nat) (key : BitVec 512)
  | scrub (tenant area : Nat) (nonce : BitVec 256)
  | fabricEntry (route : Bool) (index : Nat) (value : Word)
  | memRead (addr n : Nat) (ide : Bool)
  | memWrite (addr : Nat) (bytes : List Byte) (ide : Bool)
  | island (w : IslWrite)
  | watts (w : BitVec 16)
  | register (addr : Nat) (value mask : Word)
  | farTier (size : Bool) (value : Word)
  | power (r : PowerReading)
  | command (c : CmdArg) (code : BitVec 4)
  | access (a : AccessId)
  | translate (a : AccessId)
  | registerRead (addr n : Nat)
  | sideband (reg : Nat)
  | farAccess (addr n : Nat) (bytes : Option (List Byte))
  | donate (stack frame : Nat)
  | firstRow (core row : Nat)
  | donateRow (tenant : Option Nat) (row : Nat)
  | prefetch (thread : Nat) (slot : Fin 4) (ahead : Nat)
  | executor (ex : ExecId)
  | tracker (moves : List TrackerMove)
  | flit (port : Nat) (bytes : List Byte)
  | portFlag (port : Nat) (flag : Bool)
  | inbound (m : Inbound)
  | replyData (tag : Nat) (bytes : List Byte)
  | replyWord (tag : Nat) (w : Word)
  | replyCode (tag : Nat) (code : BitVec 8)
  | spdm (r : SpdmReq)
  deriving DecidableEq, Repr, Inhabited

/-- The instructions and events of the part: one constructor for each row of the table. -/
inductive Instr where
  /-- TH_SPAWN, R120. -/
  | thSpawn (f : FA)
  /-- TH_START, R119. -/
  | thStart (f : FA)
  /-- TH_STOP, R119. -/
  | thStop (f : FA)
  /-- TH_REDIRECT, R119. -/
  | thRedirect (f : FA)
  /-- TH_YIELD, R122. -/
  | thYield (f : FA)
  /-- TH_WAIT, R123. -/
  | thWait (f : FI)
  /-- TH_EXIT, R124. -/
  | thExit (f : FA)
  /-- TH_SELF, R125. -/
  | thSelf (f : FA)
  /-- TH_PEEK, R126. -/
  | thPeek (f : FM)
  /-- NOP, R131. -/
  | nop (f : FB)
  /-- BR, R131. -/
  | br (f : FB)
  /-- BCMP, R130. -/
  | bcmp (f : FB)
  /-- BRI, R133. -/
  | bri (f : FB)
  /-- JT, R134. -/
  | jt (f : FB)
  /-- LPAD, R131. -/
  | lpad (f : FB)
  /-- CALL, R136. -/
  | call (f : FB)
  /-- CALLI, R136. -/
  | calli (f : FB)
  /-- RET, R136. -/
  | ret (f : FB)
  /-- LOOP, R138. -/
  | loop (f : FB)
  /-- FSYNC, R145. -/
  | fsync (f : FB)
  /-- PAND, R142. -/
  | pand (f : FA)
  /-- POR, R142. -/
  | por (f : FA)
  /-- PXOR, R142. -/
  | pxor (f : FA)
  /-- PNOT, R142. -/
  | pnot (f : FA)
  /-- ADD_FA, R153. -/
  | addFa (f : FA)
  /-- ADD_FI, R153. -/
  | addFi (f : FI)
  /-- SUB, R153. -/
  | sub (f : FA)
  /-- AND_FA, R153. -/
  | andFa (f : FA)
  /-- AND_FI, R153. -/
  | andFi (f : FI)
  /-- OR_FA, R153. -/
  | orFa (f : FA)
  /-- OR_FI, R153. -/
  | orFi (f : FI)
  /-- XOR_FA, R153. -/
  | xorFa (f : FA)
  /-- XOR_FI, R153. -/
  | xorFi (f : FI)
  /-- ANDN, R153. -/
  | andn (f : FA)
  /-- MIN_FA, R153. -/
  | minFa (f : FA)
  /-- MIN_FI, R153. -/
  | minFi (f : FI)
  /-- MAX_FA, R153. -/
  | maxFa (f : FA)
  /-- MAX_FI, R153. -/
  | maxFi (f : FI)
  /-- MINU_FA, R153. -/
  | minuFa (f : FA)
  /-- MINU_FI, R153. -/
  | minuFi (f : FI)
  /-- MAXU_FA, R153. -/
  | maxuFa (f : FA)
  /-- MAXU_FI, R153. -/
  | maxuFi (f : FI)
  /-- ADDS, R153. -/
  | adds (f : FA)
  /-- SUBS, R153. -/
  | subs (f : FA)
  /-- CMP_FA, R154. -/
  | cmpFa (f : FA)
  /-- CMP_FI, R154. -/
  | cmpFi (f : FI)
  /-- SEL, R155. -/
  | sel (f : FA)
  /-- MOV_FA, R153. -/
  | movFa (f : FA)
  /-- MOV_FI, R153. -/
  | movFi (f : FI)
  /-- MOVHI, R155. -/
  | movhi (f : FI)
  /-- LEA, R160. -/
  | lea (f : FA)
  /-- ROWA, R161. -/
  | rowa (f : FA)
  /-- MUL_FA, R156. -/
  | mulFa (f : FA)
  /-- MUL_FI, R156. -/
  | mulFi (f : FI)
  /-- MULH, R156. -/
  | mulh (f : FA)
  /-- MULHU, R156. -/
  | mulhu (f : FA)
  /-- DIV, R156. -/
  | div (f : FA)
  /-- DIVU, R156. -/
  | divu (f : FA)
  /-- REM, R156. -/
  | rem (f : FA)
  /-- REMU, R156. -/
  | remu (f : FA)
  /-- MULS, R156. -/
  | muls (f : FA)
  /-- SHL_FA, R157. -/
  | shlFa (f : FA)
  /-- SHL_FI, R157. -/
  | shlFi (f : FI)
  /-- SHR_FA, R157. -/
  | shrFa (f : FA)
  /-- SHR_FI, R157. -/
  | shrFi (f : FI)
  /-- SRA_FA, R157. -/
  | sraFa (f : FA)
  /-- SRA_FI, R157. -/
  | sraFi (f : FI)
  /-- ROL_FA, R157. -/
  | rolFa (f : FA)
  /-- ROL_FI, R157. -/
  | rolFi (f : FI)
  /-- ROR_FA, R157. -/
  | rorFa (f : FA)
  /-- ROR_FI, R157. -/
  | rorFi (f : FI)
  /-- BEXT_FA, R158. -/
  | bextFa (f : FA)
  /-- BEXT_FI, R158. -/
  | bextFi (f : FI)
  /-- BINS_FA, R158. -/
  | binsFa (f : FA)
  /-- BINS_FI, R158. -/
  | binsFi (f : FI)
  /-- POPC, R159. -/
  | popc (f : FA)
  /-- CLZ, R159. -/
  | clz (f : FA)
  /-- CTZ, R159. -/
  | ctz (f : FA)
  /-- LD, R174. -/
  | ld (f : FM)
  /-- LDS, R174. -/
  | lds (f : FM)
  /-- ST, R174. -/
  | st (f : FM)
  /-- LDV, R174. -/
  | ldv (f : FM)
  /-- STV, R174. -/
  | stv (f : FM)
  /-- LDFE, R182. -/
  | ldfe (f : FM)
  /-- STFE, R182. -/
  | stfe (f : FM)
  /-- SETE, R182. -/
  | sete (f : FM)
  /-- SSET, R180. -/
  | sset (f : FM)
  /-- SRST, R180. -/
  | srst (f : FM)
  /-- SPOS, R180. -/
  | spos (f : FM)
  /-- PREF, R193. -/
  | pref (f : FM)
  /-- GET, R184. -/
  | get (f : FA)
  /-- PUT, R184. -/
  | put (f : FA)
  /-- CCRD, R188. -/
  | ccrd (f : FA)
  /-- AADD, R190. -/
  | aadd (f : FM)
  /-- AAND, R190. -/
  | aand (f : FM)
  /-- AOR, R190. -/
  | aor (f : FM)
  /-- AXOR, R190. -/
  | axor (f : FM)
  /-- AMIN, R190. -/
  | amin (f : FM)
  /-- AMAX, R190. -/
  | amax (f : FM)
  /-- ASWP, R190. -/
  | aswp (f : FM)
  /-- ACAS, R190. -/
  | acas (f : FM)
  /-- AFADD, R190. -/
  | afadd (f : FM)
  /-- FSHIP, R192. -/
  | fship (f : FA)
  /-- VADD, R208. -/
  | vadd (f : FA)
  /-- VSUB, R208. -/
  | vsub (f : FA)
  /-- VMUL, R208. -/
  | vmul (f : FA)
  /-- VFMA, R208. -/
  | vfma (f : FA)
  /-- VMIN, R208. -/
  | vmin (f : FA)
  /-- VMAX, R208. -/
  | vmax (f : FA)
  /-- VABS, R208. -/
  | vabs (f : FA)
  /-- VNEG, R208. -/
  | vneg (f : FA)
  /-- VRCP, R209. -/
  | vrcp (f : FA)
  /-- VRSQ, R209. -/
  | vrsq (f : FA)
  /-- VEXP, R209. -/
  | vexp (f : FA)
  /-- VLOG, R209. -/
  | vlog (f : FA)
  /-- VAND, R208. -/
  | vand (f : FA)
  /-- VOR, R208. -/
  | vor (f : FA)
  /-- VXOR, R208. -/
  | vxor (f : FA)
  /-- VSHL, R208. -/
  | vshl (f : FA)
  /-- VSHR, R208. -/
  | vshr (f : FA)
  /-- VSRA, R208. -/
  | vsra (f : FA)
  /-- VCMP, R210. -/
  | vcmp (f : FA)
  /-- VSEL, R211. -/
  | vsel (f : FA)
  /-- VADDS, R208. -/
  | vadds (f : FA)
  /-- VSUBS, R208. -/
  | vsubs (f : FA)
  /-- VMULH, R208. -/
  | vmulh (f : FA)
  /-- VCVT, R212. -/
  | vcvt (f : FA)
  /-- VBCAST, R214. -/
  | vbcast (f : FA)
  /-- VPERM, R214. -/
  | vperm (f : FA)
  /-- VROT, R214. -/
  | vrot (f : FA)
  /-- VZIP, R214. -/
  | vzip (f : FA)
  /-- VUNZIP, R214. -/
  | vunzip (f : FA)
  /-- VRSUM, R215. -/
  | vrsum (f : FA)
  /-- VRMAX, R215. -/
  | vrmax (f : FA)
  /-- VRMIN, R215. -/
  | vrmin (f : FA)
  /-- VSCAN, R217. -/
  | vscan (f : FA)
  /-- VQNT, R218. -/
  | vqnt (f : FA)
  /-- VDQNT, R219. -/
  | vdqnt (f : FA)
  /-- VBSCALE, R220. -/
  | vbscale (f : FA)
  /-- VMOVX, R214. -/
  | vmovx (f : FA)
  /-- VINS, R214. -/
  | vins (f : FA)
  /-- VPACK, R213. -/
  | vpack (f : FA)
  /-- M_MMA, R241. -/
  | mMma (f : FX)
  /-- M_MMAG, R242. -/
  | mMmag (f : FX)
  /-- M_GATH, R243. -/
  | mGath (f : FX)
  /-- M_MVS, R244. -/
  | mMvs (f : FX)
  /-- M_SACC, R245. -/
  | mSacc (f : FX)
  /-- M_ZERO, R246. -/
  | mZero (f : FX)
  /-- M_LDACC, R246. -/
  | mLdacc (f : FX)
  /-- M_STACC, R246. -/
  | mStacc (f : FX)
  /-- M_SPMM, R248. -/
  | mSpmm (f : FX)
  /-- M_TDIR, R250. -/
  | mTdir (f : FX)
  /-- M_DRAIN, R246. -/
  | mDrain (f : FX)
  /-- W_LDI, R252. -/
  | wLdi (f : FA)
  /-- W_LDV, R252. -/
  | wLdv (f : FA)
  /-- W_EMIT, R252. -/
  | wEmit (f : FA)
  /-- W_EMITZ, R252. -/
  | wEmitz (f : FA)
  /-- W_ADV, R252. -/
  | wAdv (f : FA)
  /-- W_SEL, R252. -/
  | wSel (f : FA)
  /-- W_END, R252. -/
  | wEnd (f : FA)
  /-- ROW_OPEN, R265. -/
  | rowOpen (f : FM)
  /-- ROW_HOLD, R265. -/
  | rowHold (f : FM)
  /-- ROW_REL, R265. -/
  | rowRel (f : FM)
  /-- TX_BEGIN, R276. -/
  | txBegin (f : FS)
  /-- TX_COMMIT, R278. -/
  | txCommit (f : FS)
  /-- TX_ABORT, R278. -/
  | txAbort (f : FS)
  /-- ATTN, R281. -/
  | attn (f : FA)
  /-- SAFEPT_POINT, R282. -/
  | safeptPoint (f : FS)
  /-- SAFEPT_BEGIN, R282. -/
  | safeptBegin (f : FS)
  /-- SAFEPT_END, R282. -/
  | safeptEnd (f : FS)
  /-- H_SIG, R297. -/
  | hSig (f : FH)
  /-- H_PROBE, R298. -/
  | hProbe (f : FH)
  /-- H_INS, R301. -/
  | hIns (f : FH)
  /-- H_DEL, R301. -/
  | hDel (f : FH)
  /-- H_REHASH, R304. -/
  | hRehash (f : FH)
  /-- H_DEDUP, R307. -/
  | hDedup (f : FH)
  /-- H_USN, R306. -/
  | hUsn (f : FH)
  /-- H_WUSN, R306. -/
  | hWusn (f : FH)
  /-- SYN_BIND, R314. -/
  | synBind (f : FS)
  /-- SYN_ACQ, R315. -/
  | synAcq (f : FA)
  /-- SYN_REL, R315. -/
  | synRel (f : FA)
  /-- SYN_WTL, R318. -/
  | synWtl (f : FA)
  /-- SYN_TL_TL, R317. -/
  | synTlTl (f : FA)
  /-- SYN_TL_SUB, R317. -/
  | synTlSub (f : FA)
  /-- SYN_TL_FL, R317. -/
  | synTlFl (f : FA)
  /-- SYN_TL_MARK, R317. -/
  | synTlMark (f : FA)
  /-- SYN_STEP, R330. -/
  | synStep (f : FS)
  /-- SYN_SEND, R332. -/
  | synSend (f : FI)
  /-- SYN_RECV, R332. -/
  | synRecv (f : FI)
  /-- SYN_VOTE, R333. -/
  | synVote (f : FA)
  /-- SYN_POLLAB, R334. -/
  | synPollab (f : FA)
  /-- SYN_ABORT, R334. -/
  | synAbort (f : FA)
  /-- SYN_DOM_BIND, R329. -/
  | synDomBind (f : FS)
  /-- SYN_DOM_UNBIND, R329. -/
  | synDomUnbind (f : FS)
  /-- SYN_QCFG_CREATE, R336. -/
  | synQcfgCreate (f : FS)
  /-- SYN_QCFG_DEL, R336. -/
  | synQcfgDel (f : FS)
  /-- CE_COPY, R319. -/
  | ceCopy (f : FA)
  /-- CE_FILL, R319. -/
  | ceFill (f : FA)
  /-- CE_GATH, R320. -/
  | ceGath (f : FA)
  /-- CE_SCAT, R320. -/
  | ceScat (f : FA)
  /-- CE_CTX_READ, R323. -/
  | ceCtxRead (f : FS)
  /-- CE_CTX_RING, R323. -/
  | ceCtxRing (f : FS)
  /-- CE_CTX_RETRY, R323. -/
  | ceCtxRetry (f : FS)
  /-- CE_CTX_CLR, R323. -/
  | ceCtxClr (f : FS)
  /-- CE_CANCEL, R324. -/
  | ceCancel (f : FS)
  /-- DEC_LOAD, R325. -/
  | decLoad (f : FA)
  /-- DEC_STRM, R325. -/
  | decStrm (f : FA)
  /-- SYS_RDCR, R352. -/
  | sysRdcr (f : FS)
  /-- SYS_WRCR, R352. -/
  | sysWrcr (f : FS)
  /-- RTAB_LOAD, R355. -/
  | rtabLoad (f : FS)
  /-- RTAB_EMPTY, R355. -/
  | rtabEmpty (f : FS)
  /-- CLHALT_WRITE, R361. -/
  | clhaltWrite (f : FS)
  /-- WACNT_WRITE, R353. -/
  | wacntWrite (f : FS)
  /-- SYS_TLBINV, R359. -/
  | sysTlbinv (f : FS)
  /-- SYS_TLBWR, R357. -/
  | sysTlbwr (f : FS)
  /-- SYS_TRAP, R354. -/
  | sysTrap (f : FS)
  /-- SYS_SCRUB, R371. -/
  | sysScrub (f : FS)
  /-- SYS_LOG, R354. -/
  | sysLog (f : FS)
  /-- SYS_MPOST_HOST, R354. -/
  | sysMpostHost (f : FS)
  /-- SYS_MPOST_MBOX, R354. -/
  | sysMpostMbox (f : FS)
  /-- POWER_GOOD, R22. -/
  | powerGood
  /-- PERST, R26. -/
  | perst
  /-- BOOT_STAGE_DONE, R22. -/
  | bootStageDone
  /-- GET_FW_INFO, R25. -/
  | getFwInfo
  /-- TRANSFER_FW, R25. -/
  | transferFw
  /-- ACTIVATE_FW, R25. -/
  | activateFw
  /-- IDENTIFY, R25. -/
  | identify
  /-- MAILBOX_BUSY, R26. -/
  | mailboxBusy
  /-- CREATE_TENANT, R374. -/
  | createTenant
  /-- SET_WINDOW, R374. -/
  | setWindow
  /-- LOAD_KEY, R367. -/
  | loadKey
  /-- SCRUB_TENANT, R374. -/
  | scrubTenant
  /-- GET_RECEIPT, R374. -/
  | getReceipt
  /-- SET_ACL_SET_ROUTE, R374. -/
  | setAclSetRoute
  /-- GET_LOG, R374. -/
  | getLog
  /-- CXL_MEM_READ, R88. -/
  | cxlMemRead
  /-- CXL_MEM_WRITE, R88. -/
  | cxlMemWrite
  /-- ISLCTL_REQ_ON, R29. -/
  | islctlReqOn
  /-- ISLCTL_REQ_CGATED, R32. -/
  | islctlReqCgated
  /-- ISLCTL_REQ_PGATED, R32. -/
  | islctlReqPgated
  /-- ISLCTL_REQ_RESERVED, R29. -/
  | islctlReqReserved
  /-- ISLAND_TRANSITION_DONE, R34. -/
  | islandTransitionDone
  /-- GATED_ROW_MOVE, R32. -/
  | gatedRowMove
  /-- PLIM_WRITE, R35. -/
  | plimWrite
  /-- CONTROL_REGISTER_WRITE, R4. -/
  | controlRegisterWrite
  /-- FAR_TIER_REGISTER_WRITE, R363. -/
  | farTierRegisterWrite
  /-- ROWHCTL_APPLY, R275. -/
  | rowhctlApply
  /-- ROWHASH_APPLY_DONE, R275. -/
  | rowhashApplyDone
  /-- POWER_INTERVAL, R36. -/
  | powerInterval
  /-- FAST_GUARD, R37. -/
  | fastGuard
  /-- THERMAL_LIMIT, R38. -/
  | thermalLimit
  /-- THERMAL_RELEASE, R38. -/
  | thermalRelease
  /-- THERMAL_TRIP, R38. -/
  | thermalTrip
  /-- START, R97. -/
  | start
  /-- STOP, R97. -/
  | stop
  /-- REDIRECT, R97. -/
  | redirect
  /-- RESUME, R97. -/
  | resume
  /-- KILL, R97. -/
  | kill
  /-- STEP, R97. -/
  | step
  /-- COMMAND_RESERVED, R95. -/
  | commandReserved
  /-- DRAIN, R73. -/
  | drain
  /-- REFRESH, R74. -/
  | refresh
  /-- APPLY, R76. -/
  | apply
  /-- ENGACC, R84. -/
  | engacc
  /-- COMPLETE, R70. -/
  | complete
  /-- HAPPLY, R302. -/
  | happly
  /-- COUNTER_MOVE, R186. -/
  | counterMove
  /-- FETCH_FILL, R57. -/
  | fetchFill
  /-- STREAM_PREFETCH, R181. -/
  | streamPrefetch
  /-- ROW_SCHED_OPEN, R105. -/
  | rowSchedOpen
  /-- QUANTUM_CLOSE, R106. -/
  | quantumClose
  /-- PRIORITY_CLOSE, R106. -/
  | priorityClose
  /-- SPIN_WINDOW_EXPIRY, R103. -/
  | spinWindowExpiry
  /-- WAIT_WAKE, R104. -/
  | waitWake
  /-- TH_WAIT_TICK, R123. -/
  | thWaitTick
  /-- SPAWN_REPLY, R120. -/
  | spawnReply
  /-- ROW_EVICTION, R111. -/
  | rowEviction
  /-- ROW_RELOAD, R112. -/
  | rowReload
  /-- ROW_RECLAIM, R94. -/
  | rowReclaim
  /-- POST, R115. -/
  | post
  /-- TRANSLATION_MISS_POST, R170. -/
  | translationMissPost
  /-- TRANSLATION_REPLY, R358. -/
  | translationReply
  /-- TLB_ACK, R360. -/
  | tlbAck
  /-- INVALIDATION_COUNTER_MOVE, R359. -/
  | invalidationCounterMove
  /-- STRAGGLER_RESET, R362. -/
  | stragglerReset
  /-- MATRIX_ARITH_COMPLETE, R255. -/
  | matrixArithComplete
  /-- WALK_BEGIN, R251. -/
  | walkBegin
  /-- WALKER_WATCHDOG, R253. -/
  | walkerWatchdog
  /-- SUBARRAY_REFRESH, R268. -/
  | subarrayRefresh
  /-- REFRESH_REACTIVATE, R268. -/
  | refreshReactivate
  /-- ACTIVATE_GRANT, R270. -/
  | activateGrant
  /-- CLAIM_TIMEOUT, R261. -/
  | claimTimeout
  /-- ENCKE_WATCHDOG, R283. -/
  | enckeWatchdog
  /-- CHANNEL_RESET, R283. -/
  | channelReset
  /-- SLOT_BOUNDARY, R331. -/
  | slotBoundary
  /-- DEADLOCK_GUARD, R337. -/
  | deadlockGuard
  /-- HANDBACK_POST, R322. -/
  | handbackPost
  /-- LAUNCH_PACKET, R368. -/
  | launchPacket
  /-- TRACKER_PERIOD, R365. -/
  | trackerPeriod
  /-- DPIT_MOVE_DONE, R365. -/
  | dpitMoveDone
  /-- DPIT_REVERT_DONE, R365. -/
  | dpitRevertDone
  /-- SCRUB_COMPLETE, R371. -/
  | scrubComplete
  /-- FLIT_RECEIVE, R376. -/
  | flitReceive
  /-- REPLAY_TIMEOUT, R376. -/
  | replayTimeout
  /-- LINK_LOST, R376. -/
  | linkLost
  /-- LANE_DEGRADED, R377. -/
  | laneDegraded
  /-- RETRAIN_DONE, R377. -/
  | retrainDone
  /-- PORT_RETRAIN, R377. -/
  | portRetrain
  /-- INBOUND_GET_REQUEST, R378. -/
  | inboundGetRequest
  /-- INBOUND_PUT, R378. -/
  | inboundPut
  /-- INBOUND_LAUNCH, R378. -/
  | inboundLaunch
  /-- INBOUND_SYNC, R378. -/
  | inboundSync
  /-- INBOUND_ATOMIC_REQUEST, R379. -/
  | inboundAtomicRequest
  /-- GET_DATA, R379. -/
  | getData
  /-- PUT_ACKNOWLEDGEMENT, R379. -/
  | putAcknowledgement
  /-- ATOMIC_REPLY, R379. -/
  | atomicReply
  /-- FABRIC_ERROR, R379. -/
  | fabricError
  /-- POWER_LOSS, R27. -/
  | powerLoss
  /-- SPDM_REQUEST, R373. -/
  | spdmRequest
  /-- LINK_RETRAINED, R376. -/
  | linkRetrained
  deriving DecidableEq, Repr, Inhabited

/-- What a move of the schedule does: one thread issues, or one event happens (R70). -/
inductive Action where
  | issue (thread : Nat)
  /-- Two instructions of a pair issue together (R60, R61). -/
  | pair (thread : Nat)
  | event (e : Instr) (inp : EventIn)
  deriving DecidableEq, Repr, Inhabited

/-- One move of the schedule: the nanoseconds of hub time that pass before it, what it does, and the addresses at which uncorrectable errors
have come up in memory before it (log entry 76). -/
structure Move where
  dt : Nat
  act : Action
  errors : List Nat
  deriving DecidableEq, Repr, Inhabited

end Sys2Proof
end

