-- ==== Sys2Proof/WellFormed.lean ====
section
/-!
DEFINITION. What makes an instruction well formed: the operand kinds each position accepts (R47, R48), the fields an
entry leaves unused (R51), and the codes each field may hold. A word whose instruction is not well formed faults at
issue with ILLEGAL or OPERAND (R65, steps 6 and 7); an event is well formed as it stands.
-/
namespace Sys2Proof

namespace Specifier

/-- The code of a specifier (R47). -/
def toCode : Specifier → Nat
  | .x n => n.val
  | .v n => 0x20 + n.val
  | .s n => 0x28 + n.val
  | .q n => 0x2C + n.val
  | .a n => 0x30 + n.val
  | .reserved n => 0x34 + n.val

/-- x0 to x31. -/
def isX : Specifier → Bool
  | .x _ => true
  | _ => false

/-- v0 to v7. -/
def isV : Specifier → Bool
  | .v _ => true
  | _ => false

/-- s0 to s3. -/
def isS : Specifier → Bool
  | .s _ => true
  | _ => false

/-- a0 to a3. -/
def isA : Specifier → Bool
  | .a _ => true
  | _ => false

/-- q0 to q3. -/
def isQ : Specifier → Bool
  | .q _ => true
  | _ => false

/-- The codes that name p0 to p7 in class 0x1 FA forms and in CMP (R129, R148). -/
def isP : Specifier → Bool
  | .x n => decide (n.val < 8)
  | _ => false

/-- A scalar register or a queue port (R148). -/
def isXQ (r : Specifier) : Bool := r.isX || r.isQ

/-- A vector register or a stream slot (R204). -/
def isVS (r : Specifier) : Bool := r.isV || r.isS

/-- A vector register, a stream slot or a scalar register (R204). -/
def isVSX (r : Specifier) : Bool := r.isV || r.isS || r.isX

/-- A vector or a scalar register. -/
def isVX (r : Specifier) : Bool := r.isV || r.isX

/-- A scalar or a vector register (TH.PEEK, R118). -/
def isXV (r : Specifier) : Bool := r.isX || r.isV

/-- v0 to v6, the first of two index vectors (R238). -/
def isV06 : Specifier → Bool
  | .v n => decide (n.val < 7)
  | _ => false

end Specifier

namespace ElemType

/-- The code of a type (R49). -/
def toCode : ElemType → Nat
  | .i64 => 0 | .i32 => 1 | .i8 => 2 | .f32 => 3 | .bf16 => 4 | .e4m3 => 5 | .e5m2 => 6 | .e2m1 => 7
  | .reserved n => 8 + n.val

/-- The width of a lane in bits (R197). -/
def width : ElemType → Nat
  | .i64 => 64 | .i32 => 32 | .i8 => 8 | .f32 => 32 | .bf16 => 16 | .e4m3 => 8 | .e5m2 => 8 | .e2m1 => 4
  | .reserved _ => 64

/-- The lanes of a vector register (R197). -/
def lanes (t : ElemType) : Nat := 512 / t.width

/-- The bytes of an element of a type of whole bytes. -/
def bytes (t : ElemType) : Nat := t.width / 8

/-- Not a reserved code (R49). -/
def known : ElemType → Bool
  | .reserved _ => false
  | _ => true

/-- The integer types 0x0 to 0x2. -/
def isInt : ElemType → Bool
  | .i64 | .i32 | .i8 => true
  | _ => false

/-- FP32 and BF16. -/
def isWideFloat : ElemType → Bool
  | .f32 | .bf16 => true
  | _ => false

/-- The types 0x0 to 0x4 (R205). -/
def arith (t : ElemType) : Bool := t.isInt || t.isWideFloat

/-- The types 0x2, 0x4, 0x5 and 0x6 of packed matrix rows (R238, R252). -/
def packed : ElemType → Bool
  | .i8 | .bf16 | .e4m3 | .e5m2 => true
  | _ => false

end ElemType

/-- The type a source code of VCVT names (R206). -/
def cvtSource (md : BitVec 8) : ElemType :=
  match md.toNat % 8 with
  | 0 => .i64 | 1 => .i32 | 2 => .i8 | 3 => .f32 | 4 => .bf16 | 5 => .e4m3 | 6 => .e5m2 | _ => .e2m1

/-- The larger lane count of VCVT divided by the smaller (R212). -/
def cvtRatio (d s : ElemType) : Nat := max d.lanes s.lanes / min d.lanes s.lanes

/-- The pairs and parts VCVT accepts (R206, R212). -/
def cvtLegal (d : ElemType) (md : BitVec 8) : Bool :=
  let s := cvtSource md
  d.known && d != .e2m1 && s != .e2m1 && d != s && decide (cvtRatio d s ≤ 4) && decide (md.toNat / 64 < cvtRatio d s)

/-- The parts of VQNT and VDQNT (R218): E2M1 has twice as many as the byte formats, FP32 twice as many as BF16. -/
def quantParts (ty : ElemType) (narrow : Nat) : Nat :=
  (if ty = .f32 then 4 else 2) * (if narrow = 0 then 2 else 1)

/-- The type and mode bits of VQNT and VDQNT (R206, R218). -/
def quantLegal (ty : ElemType) (md : BitVec 8) : Bool :=
  ty.isWideFloat && decide (md.toNat < 64) && decide (md.toNat / 4 % 8 < quantParts ty (md.toNat % 4)) &&
    (md.toNat / 32 = 0 || md.toNat % 4 = 0)

/-- The operand pairs the products accept (R239). -/
def pairLegal : ElemType → ElemType → Bool
  | .bf16, .bf16 | .e4m3, .e4m3 | .e4m3, .e5m2 | .e5m2, .e4m3 | .e5m2, .e5m2 | .i8, .i8 | .e2m1, .e2m1 => true
  | _, _ => false

/-- The bytes between rows that a stride code names (R238): packed rows for code 0, else 2^code. -/
def strideOf (md : BitVec 8) (packedBytes : Nat) : Nat :=
  if md.toNat % 32 = 0 then packedBytes else 2 ^ (md.toNat % 32)

/-- The stride codes (R238): 0, or 6 to 24 with a stride of at least one row. -/
def strideLegal (md : BitVec 8) (packedBytes : Nat) : Bool :=
  let c := md.toNat % 32
  c = 0 || (decide (6 ≤ c) && decide (c ≤ 24) && decide (packedBytes ≤ 2 ^ c))

/-- The chunk count nk of M.MMA, M.MMAG and M.GATH: 1 to 8, with bits 15..4 zero (R238). -/
def chunksLegal (imm : BitVec 16) : Bool := decide (1 ≤ imm.toNat) && decide (imm.toNat ≤ 8)

/-- The mode bits of M.MMA (R238, R239): a block record has stride code 0 and nk 1; q16 only for E2M1. -/
def mmaLegal (f : FX) : Bool :=
  if f.tya = .e2m1 then (f.md = 0 || f.md = 32) && f.imm = 1
  else decide (f.md.toNat < 32) && strideLegal f.md (32 * f.imm.toNat * f.tya.bytes)

/-- The counts of M.MVS (R238): nk even with an 8-bit type, bit 15 zero. -/
def mvsLegal (f : FX) : Bool :=
  decide (f.imm.toNat < 2 ^ 15) && (f.tya.bytes != 1 || f.imm.toNat % 2 = 1)

/-- What an instruction's entry accepts: for each operand position its specifier and the kinds the position takes (none where
the entry leaves it unused), and whether every other field holds a code the entry lists. -/
structure Shape where
  operands : List (Specifier × Option (Specifier → Bool))
  legal : Bool

namespace Shape

/-- Every field holds a listed code and every unused operand field holds 0x00 (R51; R65, step 6). -/
def fieldsOk (h : Shape) : Bool :=
  h.legal && h.operands.all fun p => match p.2 with
    | none => p.1 == .x 0
    | some _ => true

/-- Every used operand position holds a kind it accepts (R48; R65, step 7). -/
def operandsOk (h : Shape) : Bool :=
  h.operands.all fun p => match p.2 with
    | none => true
    | some ok => ok p.1

/-- Some operand names a queue (R65, step 8). -/
def namesQueue (h : Shape) : Bool := h.operands.any fun p => p.1.isQ

end Shape

/-- What each instruction accepts in its operand positions and fields (R118, R129, R148 to R151, R172, R173, R204 to R206,
R238, R239, R252, R263, R295, R312, R313, R351); none for an event, which no word encodes. -/
def Instr.shape : Instr → Option Shape
  | .powerGood => none
  | .perst => none
  | .bootStageDone => none
  | .getFwInfo => none
  | .transferFw => none
  | .activateFw => none
  | .identify => none
  | .mailboxBusy => none
  | .createTenant => none
  | .setWindow => none
  | .loadKey => none
  | .scrubTenant => none
  | .getReceipt => none
  | .setAclSetRoute => none
  | .getLog => none
  | .cxlMemRead => none
  | .cxlMemWrite => none
  | .islctlReqOn => none
  | .islctlReqCgated => none
  | .islctlReqPgated => none
  | .islctlReqReserved => none
  | .islandTransitionDone => none
  | .gatedRowMove => none
  | .plimWrite => none
  | .controlRegisterWrite => none
  | .farTierRegisterWrite => none
  | .rowhctlApply => none
  | .rowhashApplyDone => none
  | .powerInterval => none
  | .fastGuard => none
  | .thermalLimit => none
  | .thermalRelease => none
  | .thermalTrip => none
  | .start => none
  | .stop => none
  | .redirect => none
  | .resume => none
  | .kill => none
  | .step => none
  | .commandReserved => none
  | .drain => none
  | .refresh => none
  | .apply => none
  | .engacc => none
  | .complete => none
  | .happly => none
  | .counterMove => none
  | .fetchFill => none
  | .streamPrefetch => none
  | .rowSchedOpen => none
  | .quantumClose => none
  | .priorityClose => none
  | .spinWindowExpiry => none
  | .waitWake => none
  | .thWaitTick => none
  | .spawnReply => none
  | .rowEviction => none
  | .rowReload => none
  | .rowReclaim => none
  | .post => none
  | .translationMissPost => none
  | .translationReply => none
  | .tlbAck => none
  | .invalidationCounterMove => none
  | .stragglerReset => none
  | .matrixArithComplete => none
  | .walkBegin => none
  | .walkerWatchdog => none
  | .subarrayRefresh => none
  | .refreshReactivate => none
  | .activateGrant => none
  | .claimTimeout => none
  | .enckeWatchdog => none
  | .channelReset => none
  | .slotBoundary => none
  | .deadlockGuard => none
  | .handbackPost => none
  | .launchPacket => none
  | .trackerPeriod => none
  | .dpitMoveDone => none
  | .dpitRevertDone => none
  | .scrubComplete => none
  | .flitReceive => none
  | .replayTimeout => none
  | .linkLost => none
  | .laneDegraded => none
  | .retrainDone => none
  | .portRetrain => none
  | .inboundGetRequest => none
  | .inboundPut => none
  | .inboundLaunch => none
  | .inboundSync => none
  | .inboundAtomicRequest => none
  | .getData => none
  | .putAcknowledgement => none
  | .atomicReply => none
  | .fabricError => none
  | .thSpawn f => some ⟨[(f.d, some Specifier.isX), (f.a, some Specifier.isX), (f.b, some Specifier.isX), (f.c, some Specifier.isX)], f.ty = .i64 && f.md = 0⟩
  | .thStart f => some ⟨[(f.d, none), (f.a, some Specifier.isX), (f.b, some Specifier.isX), (f.c, none)], f.ty = .i64⟩
  | .thStop f => some ⟨[(f.d, none), (f.a, some Specifier.isX), (f.b, none), (f.c, none)], f.ty = .i64 && f.md = 0⟩
  | .thRedirect f => some ⟨[(f.d, none), (f.a, some Specifier.isX), (f.b, some Specifier.isX), (f.c, none)], f.ty = .i64⟩
  | .thYield f => some ⟨[(f.d, none), (f.a, none), (f.b, none), (f.c, none)], f.ty = .i64 && f.md = 0⟩
  | .thWait f => some ⟨[(f.d, some Specifier.isX), (f.a, some Specifier.isX)], f.ty = .i64 && f.imm.toNat / 32 % 2048 = 0⟩
  | .thExit f => some ⟨[(f.d, none), (f.a, some Specifier.isX), (f.b, none), (f.c, none)], f.ty = .i64 && f.md = 0⟩
  | .thSelf f => some ⟨[(f.d, some Specifier.isX), (f.a, none), (f.b, none), (f.c, none)], f.ty = .i64 && f.md.toNat < 3⟩
  | .thPeek f => some ⟨[(f.t, some Specifier.isXV), (f.base, some Specifier.isX), (f.idx, some Specifier.isX)], f.sc.toNat < 7 && f.ql = 0 && f.od = 0 && ((f.sz = 3 && !f.t.isV) || (f.sz = 5 && !f.t.isX))⟩
  | .nop f => some ⟨[(f.a, none), (f.b, none)], f.cc = 0 && f.md = 0 && f.disp = 0⟩
  | .br f => some ⟨[(f.a, none), (f.b, none)], f.cc = 0 && f.md = 0⟩
  | .bcmp f => some ⟨[(f.a, some Specifier.isX), (f.b, some Specifier.isX)], f.cc.toNat < 6 && f.md = 0⟩
  | .bri f => some ⟨[(f.a, some Specifier.isX), (f.b, none)], f.cc = 0 && f.disp = 0⟩
  | .jt f => some ⟨[(f.a, some Specifier.isX), (f.b, some Specifier.isX)], f.cc = 0 && f.md = 0 && f.disp = 0⟩
  | .lpad f => some ⟨[(f.a, none), (f.b, none)], f.cc = 0 && f.disp = 0⟩
  | .call f => some ⟨[(f.a, none), (f.b, none)], f.cc = 0 && f.md = 0⟩
  | .calli f => some ⟨[(f.a, some Specifier.isX), (f.b, none)], f.cc = 0 && f.disp = 0⟩
  | .ret f => some ⟨[(f.a, none), (f.b, none)], f.cc = 0 && f.md = 0 && f.disp = 0⟩
  | .loop f => some ⟨[(f.a, some Specifier.isX), (f.b, none)], f.cc = 0 && f.md.toNat < 2 && (f.md = 0 || f.disp = 0)⟩
  | .fsync f => some ⟨[(f.a, none), (f.b, none)], f.cc = 0 && f.md = 0 && f.disp = 0⟩
  | .pand f => some ⟨[(f.d, some Specifier.isP), (f.a, some Specifier.isP), (f.b, some Specifier.isP), (f.c, none)], f.ty = .i64 && f.md.toNat < 4⟩
  | .por f => some ⟨[(f.d, some Specifier.isP), (f.a, some Specifier.isP), (f.b, some Specifier.isP), (f.c, none)], f.ty = .i64 && f.md.toNat < 4⟩
  | .pxor f => some ⟨[(f.d, some Specifier.isP), (f.a, some Specifier.isP), (f.b, some Specifier.isP), (f.c, none)], f.ty = .i64 && f.md.toNat < 4⟩
  | .pnot f => some ⟨[(f.d, some Specifier.isP), (f.a, some Specifier.isP), (f.b, none), (f.c, none)], f.ty = .i64 && f.md = 0⟩
  | .addFa f => some ⟨[(f.d, some Specifier.isXQ), (f.a, some Specifier.isXQ), (f.b, some Specifier.isXQ), (f.c, none)], (f.ty = .i64 || f.ty = .i32) && f.md = 0⟩
  | .addFi f => some ⟨[(f.d, some Specifier.isXQ), (f.a, some Specifier.isXQ)], (f.ty = .i64 || f.ty = .i32)⟩
  | .sub f => some ⟨[(f.d, some Specifier.isXQ), (f.a, some Specifier.isXQ), (f.b, some Specifier.isXQ), (f.c, none)], (f.ty = .i64 || f.ty = .i32) && f.md = 0⟩
  | .andFa f => some ⟨[(f.d, some Specifier.isXQ), (f.a, some Specifier.isXQ), (f.b, some Specifier.isXQ), (f.c, none)], (f.ty = .i64 || f.ty = .i32) && f.md = 0⟩
  | .andFi f => some ⟨[(f.d, some Specifier.isXQ), (f.a, some Specifier.isXQ)], (f.ty = .i64 || f.ty = .i32)⟩
  | .orFa f => some ⟨[(f.d, some Specifier.isXQ), (f.a, some Specifier.isXQ), (f.b, some Specifier.isXQ), (f.c, none)], (f.ty = .i64 || f.ty = .i32) && f.md = 0⟩
  | .orFi f => some ⟨[(f.d, some Specifier.isXQ), (f.a, some Specifier.isXQ)], (f.ty = .i64 || f.ty = .i32)⟩
  | .xorFa f => some ⟨[(f.d, some Specifier.isXQ), (f.a, some Specifier.isXQ), (f.b, some Specifier.isXQ), (f.c, none)], (f.ty = .i64 || f.ty = .i32) && f.md = 0⟩
  | .xorFi f => some ⟨[(f.d, some Specifier.isXQ), (f.a, some Specifier.isXQ)], (f.ty = .i64 || f.ty = .i32)⟩
  | .andn f => some ⟨[(f.d, some Specifier.isXQ), (f.a, some Specifier.isXQ), (f.b, some Specifier.isXQ), (f.c, none)], (f.ty = .i64 || f.ty = .i32) && f.md = 0⟩
  | .minFa f => some ⟨[(f.d, some Specifier.isXQ), (f.a, some Specifier.isXQ), (f.b, some Specifier.isXQ), (f.c, none)], (f.ty = .i64 || f.ty = .i32) && f.md = 0⟩
  | .minFi f => some ⟨[(f.d, some Specifier.isXQ), (f.a, some Specifier.isXQ)], (f.ty = .i64 || f.ty = .i32)⟩
  | .maxFa f => some ⟨[(f.d, some Specifier.isXQ), (f.a, some Specifier.isXQ), (f.b, some Specifier.isXQ), (f.c, none)], (f.ty = .i64 || f.ty = .i32) && f.md = 0⟩
  | .maxFi f => some ⟨[(f.d, some Specifier.isXQ), (f.a, some Specifier.isXQ)], (f.ty = .i64 || f.ty = .i32)⟩
  | .minuFa f => some ⟨[(f.d, some Specifier.isXQ), (f.a, some Specifier.isXQ), (f.b, some Specifier.isXQ), (f.c, none)], (f.ty = .i64 || f.ty = .i32) && f.md = 0⟩
  | .minuFi f => some ⟨[(f.d, some Specifier.isXQ), (f.a, some Specifier.isXQ)], (f.ty = .i64 || f.ty = .i32)⟩
  | .maxuFa f => some ⟨[(f.d, some Specifier.isXQ), (f.a, some Specifier.isXQ), (f.b, some Specifier.isXQ), (f.c, none)], (f.ty = .i64 || f.ty = .i32) && f.md = 0⟩
  | .maxuFi f => some ⟨[(f.d, some Specifier.isXQ), (f.a, some Specifier.isXQ)], (f.ty = .i64 || f.ty = .i32)⟩
  | .adds f => some ⟨[(f.d, some Specifier.isXQ), (f.a, some Specifier.isXQ), (f.b, some Specifier.isXQ), (f.c, none)], (f.ty = .i64 || f.ty = .i32) && f.md.toNat < 2⟩
  | .subs f => some ⟨[(f.d, some Specifier.isXQ), (f.a, some Specifier.isXQ), (f.b, some Specifier.isXQ), (f.c, none)], (f.ty = .i64 || f.ty = .i32) && f.md.toNat < 2⟩
  | .cmpFa f => some ⟨[(f.d, some Specifier.isP), (f.a, some Specifier.isXQ), (f.b, some Specifier.isXQ), (f.c, none)], (f.ty = .i64 || f.ty = .i32) && f.md.toNat < 6⟩
  | .cmpFi f => some ⟨[(f.d, some Specifier.isP), (f.a, some Specifier.isXQ)], (f.ty = .i64 || f.ty = .i32) && f.imm.toNat / 2 ^ 44 < 6⟩
  | .sel f => some ⟨[(f.d, some Specifier.isXQ), (f.a, some Specifier.isXQ), (f.b, some Specifier.isXQ), (f.c, none)], f.ty = .i64 && f.md.toNat < 16⟩
  | .movFa f => some ⟨[(f.d, some Specifier.isXQ), (f.a, some Specifier.isXQ), (f.b, none), (f.c, none)], f.ty = .i64 && f.md = 0⟩
  | .movFi f => some ⟨[(f.d, some Specifier.isXQ), (f.a, none)], f.ty = .i64⟩
  | .movhi f => some ⟨[(f.d, some Specifier.isX), (f.a, none)], f.ty = .i64⟩
  | .lea f => some ⟨[(f.d, some Specifier.isX), (f.a, some Specifier.isX), (f.b, some Specifier.isX), (f.c, some Specifier.isX)], f.ty = .i64 && f.md.toNat < 7⟩
  | .rowa f => some ⟨[(f.d, some Specifier.isX), (f.a, some Specifier.isX), (f.b, some Specifier.isX), (f.c, none)], f.ty = .i64⟩
  | .mulFa f => some ⟨[(f.d, some Specifier.isXQ), (f.a, some Specifier.isXQ), (f.b, some Specifier.isXQ), (f.c, none)], (f.ty = .i64 || f.ty = .i32) && f.md = 0⟩
  | .mulFi f => some ⟨[(f.d, some Specifier.isXQ), (f.a, some Specifier.isXQ)], (f.ty = .i64 || f.ty = .i32)⟩
  | .mulh f => some ⟨[(f.d, some Specifier.isXQ), (f.a, some Specifier.isXQ), (f.b, some Specifier.isXQ), (f.c, none)], (f.ty = .i64 || f.ty = .i32) && f.md = 0⟩
  | .mulhu f => some ⟨[(f.d, some Specifier.isXQ), (f.a, some Specifier.isXQ), (f.b, some Specifier.isXQ), (f.c, none)], (f.ty = .i64 || f.ty = .i32) && f.md = 0⟩
  | .div f => some ⟨[(f.d, some Specifier.isXQ), (f.a, some Specifier.isXQ), (f.b, some Specifier.isXQ), (f.c, none)], (f.ty = .i64 || f.ty = .i32) && f.md = 0⟩
  | .divu f => some ⟨[(f.d, some Specifier.isXQ), (f.a, some Specifier.isXQ), (f.b, some Specifier.isXQ), (f.c, none)], (f.ty = .i64 || f.ty = .i32) && f.md = 0⟩
  | .rem f => some ⟨[(f.d, some Specifier.isXQ), (f.a, some Specifier.isXQ), (f.b, some Specifier.isXQ), (f.c, none)], (f.ty = .i64 || f.ty = .i32) && f.md = 0⟩
  | .remu f => some ⟨[(f.d, some Specifier.isXQ), (f.a, some Specifier.isXQ), (f.b, some Specifier.isXQ), (f.c, none)], (f.ty = .i64 || f.ty = .i32) && f.md = 0⟩
  | .muls f => some ⟨[(f.d, some Specifier.isXQ), (f.a, some Specifier.isXQ), (f.b, some Specifier.isXQ), (f.c, none)], (f.ty = .i64 || f.ty = .i32) && f.md.toNat < 2⟩
  | .shlFa f => some ⟨[(f.d, some Specifier.isXQ), (f.a, some Specifier.isXQ), (f.b, some Specifier.isXQ), (f.c, none)], (f.ty = .i64 || f.ty = .i32) && f.md = 0⟩
  | .shlFi f => some ⟨[(f.d, some Specifier.isXQ), (f.a, some Specifier.isXQ)], (f.ty = .i64 || f.ty = .i32) && f.imm.toNat < 64⟩
  | .shrFa f => some ⟨[(f.d, some Specifier.isXQ), (f.a, some Specifier.isXQ), (f.b, some Specifier.isXQ), (f.c, none)], (f.ty = .i64 || f.ty = .i32) && f.md = 0⟩
  | .shrFi f => some ⟨[(f.d, some Specifier.isXQ), (f.a, some Specifier.isXQ)], (f.ty = .i64 || f.ty = .i32) && f.imm.toNat < 64⟩
  | .sraFa f => some ⟨[(f.d, some Specifier.isXQ), (f.a, some Specifier.isXQ), (f.b, some Specifier.isXQ), (f.c, none)], (f.ty = .i64 || f.ty = .i32) && f.md = 0⟩
  | .sraFi f => some ⟨[(f.d, some Specifier.isXQ), (f.a, some Specifier.isXQ)], (f.ty = .i64 || f.ty = .i32) && f.imm.toNat < 64⟩
  | .rolFa f => some ⟨[(f.d, some Specifier.isXQ), (f.a, some Specifier.isXQ), (f.b, some Specifier.isXQ), (f.c, none)], (f.ty = .i64 || f.ty = .i32) && f.md = 0⟩
  | .rolFi f => some ⟨[(f.d, some Specifier.isXQ), (f.a, some Specifier.isXQ)], (f.ty = .i64 || f.ty = .i32) && f.imm.toNat < 64⟩
  | .rorFa f => some ⟨[(f.d, some Specifier.isXQ), (f.a, some Specifier.isXQ), (f.b, some Specifier.isXQ), (f.c, none)], (f.ty = .i64 || f.ty = .i32) && f.md = 0⟩
  | .rorFi f => some ⟨[(f.d, some Specifier.isXQ), (f.a, some Specifier.isXQ)], (f.ty = .i64 || f.ty = .i32) && f.imm.toNat < 64⟩
  | .bextFa f => some ⟨[(f.d, some Specifier.isXQ), (f.a, some Specifier.isXQ), (f.b, some Specifier.isXQ), (f.c, none)], (f.ty = .i64 || f.ty = .i32) && f.md = 0⟩
  | .bextFi f => some ⟨[(f.d, some Specifier.isXQ), (f.a, some Specifier.isXQ)], (f.ty = .i64 || f.ty = .i32) && f.imm.toNat / 64 % 4 = 0 && f.imm.toNat / 256 % 128 < 65 && f.imm.toNat < 2 ^ 16⟩
  | .binsFa f => some ⟨[(f.d, some Specifier.isX), (f.a, some Specifier.isXQ), (f.b, some Specifier.isXQ), (f.c, none)], (f.ty = .i64 || f.ty = .i32) && f.md = 0⟩
  | .binsFi f => some ⟨[(f.d, some Specifier.isX), (f.a, some Specifier.isXQ)], (f.ty = .i64 || f.ty = .i32) && f.imm.toNat / 64 % 4 = 0 && f.imm.toNat / 256 % 128 < 65 && f.imm.toNat < 2 ^ 15⟩
  | .popc f => some ⟨[(f.d, some Specifier.isXQ), (f.a, some Specifier.isXQ), (f.b, none), (f.c, none)], (f.ty = .i64 || f.ty = .i32) && f.md = 0⟩
  | .clz f => some ⟨[(f.d, some Specifier.isXQ), (f.a, some Specifier.isXQ), (f.b, none), (f.c, none)], (f.ty = .i64 || f.ty = .i32) && f.md = 0⟩
  | .ctz f => some ⟨[(f.d, some Specifier.isXQ), (f.a, some Specifier.isXQ), (f.b, none), (f.c, none)], (f.ty = .i64 || f.ty = .i32) && f.md = 0⟩
  | .ld f => some ⟨[(f.t, some Specifier.isX), (f.base, some Specifier.isX), (f.idx, some Specifier.isX)], f.sc.toNat < 7 && f.sz.toNat < 4 && f.ql = 0 && f.od.toNat < 2⟩
  | .lds f => some ⟨[(f.t, some Specifier.isX), (f.base, some Specifier.isX), (f.idx, some Specifier.isX)], f.sc.toNat < 7 && f.sz.toNat < 3 && f.ql = 0 && f.od.toNat < 2⟩
  | .st f => some ⟨[(f.t, some Specifier.isX), (f.base, some Specifier.isX), (f.idx, some Specifier.isX)], f.sc.toNat < 7 && f.sz.toNat < 4 && f.ql = 0 && f.od = 0⟩
  | .ldv f => some ⟨[(f.t, some Specifier.isV), (f.base, some Specifier.isX), (f.idx, some Specifier.isX)], f.sc.toNat < 7 && (f.sz = 4 || f.sz = 5) && f.ql = 0 && f.od.toNat < 2⟩
  | .stv f => some ⟨[(f.t, some Specifier.isV), (f.base, some Specifier.isX), (f.idx, some Specifier.isX)], f.sc.toNat < 7 && (f.sz = 4 || f.sz = 5) && f.ql = 0 && f.od = 0⟩
  | .ldfe f => some ⟨[(f.t, some (fun r => if f.sz = 3 then r.isX else r.isV)), (f.base, some Specifier.isX), (f.idx, some Specifier.isX)], f.sc.toNat < 7 && (f.sz = 3 || f.sz = 4 || f.sz = 5) && f.ql.toNat < 2 && f.od = 0⟩
  | .stfe f => some ⟨[(f.t, some Specifier.isV), (f.base, some Specifier.isX), (f.idx, some Specifier.isX)], f.sc.toNat < 7 && (f.sz = 4 || f.sz = 5) && f.ql = 0 && f.od = 0⟩
  | .sete f => some ⟨[(f.t, none), (f.base, some Specifier.isX), (f.idx, some Specifier.isX)], f.sc.toNat < 7 && (f.sz = 4 || f.sz = 5) && f.ql.toNat < 2 && f.od = 0⟩
  | .sset f => some ⟨[(f.t, none), (f.base, some Specifier.isX), (f.idx, some Specifier.isX)], f.sc.toNat < 7 && f.sz = 5 && f.ql.toNat < 4 && f.od = 0⟩
  | .srst f => some ⟨[(f.t, none), (f.base, none), (f.idx, none)], f.sc = 0 && f.sz = 0 && f.ql.toNat < 4 && f.od = 0 && f.disp = 0⟩
  | .spos f => some ⟨[(f.t, some Specifier.isX), (f.base, none), (f.idx, none)], f.sc = 0 && f.sz = 0 && f.ql.toNat < 4 && f.od = 0 && f.disp = 0⟩
  | .pref f => some ⟨[(f.t, none), (f.base, some Specifier.isX), (f.idx, some Specifier.isX)], f.sc.toNat < 7 && f.sz.toNat < 6 && f.ql = 0 && f.od = 0⟩
  | .get f => some ⟨[(f.d, some Specifier.isX), (f.a, some Specifier.isX), (f.b, some Specifier.isX), (f.c, some Specifier.isX)], f.ty = .i64 && f.md.toNat < 8⟩
  | .put f => some ⟨[(f.d, some Specifier.isX), (f.a, some Specifier.isX), (f.b, some Specifier.isX), (f.c, some Specifier.isX)], f.ty = .i64 && f.md.toNat < 8⟩
  | .ccrd f => some ⟨[(f.d, some Specifier.isX), (f.a, some Specifier.isX), (f.b, some Specifier.isX), (f.c, none)], f.ty = .i64 && f.md = 0⟩
  | .aadd f => some ⟨[(f.t, some Specifier.isX), (f.base, some Specifier.isX), (f.idx, some Specifier.isX)], f.sc.toNat < 7 && (f.sz = 2 || f.sz = 3) && f.ql = 0 && f.od = 0⟩
  | .aand f => some ⟨[(f.t, some Specifier.isX), (f.base, some Specifier.isX), (f.idx, some Specifier.isX)], f.sc.toNat < 7 && (f.sz = 2 || f.sz = 3) && f.ql = 0 && f.od = 0⟩
  | .aor f => some ⟨[(f.t, some Specifier.isX), (f.base, some Specifier.isX), (f.idx, some Specifier.isX)], f.sc.toNat < 7 && (f.sz = 2 || f.sz = 3) && f.ql = 0 && f.od = 0⟩
  | .axor f => some ⟨[(f.t, some Specifier.isX), (f.base, some Specifier.isX), (f.idx, some Specifier.isX)], f.sc.toNat < 7 && (f.sz = 2 || f.sz = 3) && f.ql = 0 && f.od = 0⟩
  | .amin f => some ⟨[(f.t, some Specifier.isX), (f.base, some Specifier.isX), (f.idx, some Specifier.isX)], f.sc.toNat < 7 && (f.sz = 2 || f.sz = 3) && f.ql.toNat < 2 && f.od = 0⟩
  | .amax f => some ⟨[(f.t, some Specifier.isX), (f.base, some Specifier.isX), (f.idx, some Specifier.isX)], f.sc.toNat < 7 && (f.sz = 2 || f.sz = 3) && f.ql.toNat < 2 && f.od = 0⟩
  | .aswp f => some ⟨[(f.t, some Specifier.isX), (f.base, some Specifier.isX), (f.idx, some Specifier.isX)], f.sc.toNat < 7 && (f.sz = 2 || f.sz = 3) && f.ql = 0 && f.od = 0⟩
  | .acas f => some ⟨[(f.t, some (fun r => r.isX && r != .x 0 && r != .x 31)), (f.base, some Specifier.isX), (f.idx, some Specifier.isX)], f.sc.toNat < 7 && (f.sz = 2 || f.sz = 3) && f.ql = 0 && f.od = 0⟩
  | .afadd f => some ⟨[(f.t, some Specifier.isX), (f.base, some Specifier.isX), (f.idx, some Specifier.isX)], f.sc.toNat < 7 && ((f.ql = 0 && f.sz = 2) || (f.ql = 1 && f.sz = 1)) && f.od = 0⟩
  | .fship f => some ⟨[(f.d, some Specifier.isX), (f.a, some Specifier.isX), (f.b, some Specifier.isX), (f.c, some Specifier.isX)], f.ty = .i64 && f.md.toNat < 64⟩
  | .vadd f => some ⟨[(f.d, some Specifier.isV), (f.a, some Specifier.isVS), (f.b, some Specifier.isVSX), (f.c, none)], f.ty.arith && f.md = 0⟩
  | .vsub f => some ⟨[(f.d, some Specifier.isV), (f.a, some Specifier.isVS), (f.b, some Specifier.isVSX), (f.c, none)], f.ty.arith && f.md = 0⟩
  | .vmul f => some ⟨[(f.d, some Specifier.isV), (f.a, some Specifier.isVS), (f.b, some Specifier.isVSX), (f.c, none)], f.ty.arith && f.md = 0⟩
  | .vfma f => some ⟨[(f.d, some Specifier.isV), (f.a, some Specifier.isVS), (f.b, some Specifier.isVSX), (f.c, some Specifier.isVS)], f.ty.arith && f.md = 0⟩
  | .vmin f => some ⟨[(f.d, some Specifier.isV), (f.a, some Specifier.isVS), (f.b, some Specifier.isVSX), (f.c, none)], f.ty.arith && (f.md = 0 || (f.md = 1 && f.ty.isInt))⟩
  | .vmax f => some ⟨[(f.d, some Specifier.isV), (f.a, some Specifier.isVS), (f.b, some Specifier.isVSX), (f.c, none)], f.ty.arith && (f.md = 0 || (f.md = 1 && f.ty.isInt))⟩
  | .vabs f => some ⟨[(f.d, some Specifier.isV), (f.a, some Specifier.isVS), (f.b, none), (f.c, none)], f.ty.arith && f.md = 0⟩
  | .vneg f => some ⟨[(f.d, some Specifier.isV), (f.a, some Specifier.isVS), (f.b, none), (f.c, none)], f.ty.arith && f.md = 0⟩
  | .vrcp f => some ⟨[(f.d, some Specifier.isV), (f.a, some Specifier.isVS), (f.b, none), (f.c, none)], f.ty.isWideFloat && f.md = 0⟩
  | .vrsq f => some ⟨[(f.d, some Specifier.isV), (f.a, some Specifier.isVS), (f.b, none), (f.c, none)], f.ty.isWideFloat && f.md = 0⟩
  | .vexp f => some ⟨[(f.d, some Specifier.isV), (f.a, some Specifier.isVS), (f.b, none), (f.c, none)], f.ty.isWideFloat && f.md = 0⟩
  | .vlog f => some ⟨[(f.d, some Specifier.isV), (f.a, some Specifier.isVS), (f.b, none), (f.c, none)], f.ty.isWideFloat && f.md = 0⟩
  | .vand f => some ⟨[(f.d, some Specifier.isV), (f.a, some Specifier.isVS), (f.b, some Specifier.isVSX), (f.c, none)], f.ty = .i64 && f.md = 0⟩
  | .vor f => some ⟨[(f.d, some Specifier.isV), (f.a, some Specifier.isVS), (f.b, some Specifier.isVSX), (f.c, none)], f.ty = .i64 && f.md = 0⟩
  | .vxor f => some ⟨[(f.d, some Specifier.isV), (f.a, some Specifier.isVS), (f.b, some Specifier.isVSX), (f.c, none)], f.ty = .i64 && f.md = 0⟩
  | .vshl f => some ⟨[(f.d, some Specifier.isV), (f.a, some Specifier.isVS), (f.b, some Specifier.isVSX), (f.c, none)], f.ty.isInt && f.md = 0⟩
  | .vshr f => some ⟨[(f.d, some Specifier.isV), (f.a, some Specifier.isVS), (f.b, some Specifier.isVSX), (f.c, none)], f.ty.isInt && f.md = 0⟩
  | .vsra f => some ⟨[(f.d, some Specifier.isV), (f.a, some Specifier.isVS), (f.b, some Specifier.isVSX), (f.c, none)], f.ty.isInt && f.md = 0⟩
  | .vcmp f => some ⟨[(f.d, some Specifier.isV), (f.a, some Specifier.isVS), (f.b, some Specifier.isVSX), (f.c, none)], f.ty.arith && (f.ty.isInt || f.md.toNat / 8 % 2 = 0)⟩
  | .vsel f => some ⟨[(f.d, some Specifier.isV), (f.a, some Specifier.isVS), (f.b, some Specifier.isVSX), (f.c, some Specifier.isVS)], f.ty.known && f.md = 0⟩
  | .vadds f => some ⟨[(f.d, some Specifier.isV), (f.a, some Specifier.isVS), (f.b, some Specifier.isVSX), (f.c, none)], f.ty.isInt && f.md.toNat < 2⟩
  | .vsubs f => some ⟨[(f.d, some Specifier.isV), (f.a, some Specifier.isVS), (f.b, some Specifier.isVSX), (f.c, none)], f.ty.isInt && f.md.toNat < 2⟩
  | .vmulh f => some ⟨[(f.d, some Specifier.isV), (f.a, some Specifier.isVS), (f.b, some Specifier.isVSX), (f.c, none)], f.ty.isInt && f.md.toNat < 2⟩
  | .vcvt f => some ⟨[(f.d, some Specifier.isV), (f.a, some Specifier.isVS), (f.b, none), (f.c, none)], cvtLegal f.ty f.md⟩
  | .vbcast f => some ⟨[(f.d, some Specifier.isV), (f.a, some Specifier.isVX), (f.b, none), (f.c, none)], f.ty.known && (if f.a.isX then f.md = 0 else f.md.toNat < f.ty.lanes)⟩
  | .vperm f => some ⟨[(f.d, some Specifier.isV), (f.a, some Specifier.isVS), (f.b, some Specifier.isVS), (f.c, none)], f.ty.known && f.ty != .e2m1 && f.md = 0⟩
  | .vrot f => some ⟨[(f.d, some Specifier.isV), (f.a, some Specifier.isVS), (f.b, some Specifier.isX), (f.c, none)], f.ty.known⟩
  | .vzip f => some ⟨[(f.d, some Specifier.isV), (f.a, some Specifier.isVS), (f.b, some Specifier.isVS), (f.c, none)], f.ty.known && f.md.toNat < 2⟩
  | .vunzip f => some ⟨[(f.d, some Specifier.isV), (f.a, some Specifier.isVS), (f.b, some Specifier.isVS), (f.c, none)], f.ty.known && f.md.toNat < 2⟩
  | .vrsum f => some ⟨[(f.d, some Specifier.isV), (f.a, some Specifier.isVS), (f.b, none), (f.c, none)], f.ty.arith && f.md.toNat < 8 && (f.ty.isInt || f.md.toNat < 4)⟩
  | .vrmax f => some ⟨[(f.d, some Specifier.isV), (f.a, some Specifier.isVS), (f.b, none), (f.c, none)], f.ty.arith && f.md.toNat < 8 && (f.ty.isInt || f.md.toNat < 4)⟩
  | .vrmin f => some ⟨[(f.d, some Specifier.isV), (f.a, some Specifier.isVS), (f.b, none), (f.c, none)], f.ty.arith && f.md.toNat < 8 && (f.ty.isInt || f.md.toNat < 4)⟩
  | .vscan f => some ⟨[(f.d, some Specifier.isV), (f.a, some Specifier.isVS), (f.b, none), (f.c, none)], f.ty.arith && f.md.toNat < 2⟩
  | .vqnt f => some ⟨[(f.d, some Specifier.isV), (f.a, some Specifier.isVS), (f.b, some Specifier.isX), (f.c, none)], quantLegal f.ty f.md⟩
  | .vdqnt f => some ⟨[(f.d, some Specifier.isV), (f.a, some Specifier.isVS), (f.b, some Specifier.isX), (f.c, none)], quantLegal f.ty f.md⟩
  | .vbscale f => some ⟨[(f.d, some Specifier.isV), (f.a, some Specifier.isVS), (f.b, some Specifier.isVS), (f.c, none)], f.ty.isWideFloat && f.md.toNat < 8 && 2 ^ f.md.toNat ≤ f.ty.lanes⟩
  | .vmovx f => some ⟨[(f.d, some Specifier.isX), (f.a, some Specifier.isV), (f.b, none), (f.c, none)], f.ty.known && f.md.toNat < f.ty.lanes⟩
  | .vins f => some ⟨[(f.d, some Specifier.isV), (f.a, some Specifier.isX), (f.b, none), (f.c, none)], f.ty.known && f.md.toNat < f.ty.lanes⟩
  | .vpack f => some ⟨[(f.d, some Specifier.isV), (f.a, some Specifier.isVS), (f.b, some Specifier.isVS), (f.c, none)], ((f.ty = .i32 && f.md.toNat < 2) || (f.ty = .bf16 && f.md = 0))⟩
  | .mMma f => some ⟨[(f.d, some Specifier.isA), (f.a, some Specifier.isX), (f.b, some Specifier.isX), (f.c, none)], pairLegal f.tya f.tyb && mmaLegal f && chunksLegal f.imm⟩
  | .mMmag f => some ⟨[(f.d, some Specifier.isA), (f.a, some Specifier.isX), (f.b, some Specifier.isX), (f.c, some Specifier.isV06)], pairLegal f.tya f.tyb && f.tya != .e2m1 && f.md.toNat < 32 && chunksLegal f.imm && strideLegal f.md (32 * f.imm.toNat * f.tya.bytes)⟩
  | .mGath f => some ⟨[(f.d, some Specifier.isX), (f.a, some Specifier.isX), (f.b, none), (f.c, some Specifier.isV06)], f.tya.packed && f.tyb = .i64 && f.md.toNat < 32 && chunksLegal f.imm && strideLegal f.md (32 * f.imm.toNat * f.tya.bytes)⟩
  | .mMvs f => some ⟨[(f.d, some Specifier.isA), (f.a, some Specifier.isS), (f.b, some Specifier.isX), (f.c, some Specifier.isX)], pairLegal f.tya f.tyb && f.tya != .e2m1 && f.md = 0 && mvsLegal f⟩
  | .mSacc f => some ⟨[(f.d, some Specifier.isA), (f.a, some Specifier.isA), (f.b, some Specifier.isX), (f.c, none)], f.tya = .i64 && f.tyb = .i64 && f.md.toNat < 4 && f.imm = 0 && !(f.a = f.d && f.md.toNat / 2 % 2 = 1)⟩
  | .mZero f => some ⟨[(f.d, some Specifier.isA), (f.a, none), (f.b, none), (f.c, none)], f.tya = .i64 && f.tyb = .i64 && f.md = 0 && f.imm = 0⟩
  | .mLdacc f => some ⟨[(f.d, some Specifier.isA), (f.a, some Specifier.isX), (f.b, none), (f.c, none)], f.tya = .i64 && f.tyb = .i64 && f.md.toNat < 128 && f.imm = 0 && strideLegal f.md (if f.md.toNat / 32 % 2 = 1 then 64 else 128)⟩
  | .mStacc f => some ⟨[(f.d, none), (f.a, some Specifier.isX), (f.b, some Specifier.isA), (f.c, none)], f.tya = .i64 && f.tyb = .i64 && f.md.toNat < 128 && f.imm = 0 && strideLegal f.md (if f.md.toNat / 32 % 2 = 1 then 64 else 128)⟩
  | .mSpmm f => some ⟨[(f.d, some Specifier.isA), (f.a, some Specifier.isX), (f.b, some Specifier.isX), (f.c, none)], pairLegal f.tya f.tyb && f.tya != .e2m1 && f.md = 0 && f.imm = 0⟩
  | .mTdir f => some ⟨[(f.d, some Specifier.isX), (f.a, some Specifier.isX), (f.b, none), (f.c, none)], f.tya.packed && f.tyb = .i64 && f.md = 0 && f.imm = 0⟩
  | .mDrain f => some ⟨[(f.d, some (fun r => r.isA || r = .x 0)), (f.a, none), (f.b, none), (f.c, none)], f.tya = .i64 && f.tyb = .i64 && f.md.toNat < 4 && f.imm = 0 && (if f.md.toNat / 2 % 2 = 1 then f.d.isA else f.d = .x 0)⟩
  | .wLdi f => some ⟨[(f.d, some Specifier.isX), (f.a, some Specifier.isX), (f.b, none), (f.c, none)], f.ty.isInt && f.md.toNat < 4 && !(f.md.toNat % 2 = 1 && f.d = f.a)⟩
  | .wLdv f => some ⟨[(f.d, some Specifier.isV), (f.a, some Specifier.isX), (f.b, none), (f.c, none)], f.ty = .i64 && f.md.toNat < 2 && !(f.md.toNat % 2 = 1 && f.d = f.a)⟩
  | .wEmit f => some ⟨[(f.d, none), (f.a, some Specifier.isX), (f.b, some Specifier.isV), (f.c, none)], f.ty = .i64 && f.md = 0⟩
  | .wEmitz f => some ⟨[(f.d, none), (f.a, some Specifier.isX), (f.b, some Specifier.isV), (f.c, some Specifier.isX)], f.ty = .i64 && f.md = 0⟩
  | .wAdv f => some ⟨[(f.d, some Specifier.isX), (f.a, some Specifier.isX), (f.b, some Specifier.isX), (f.c, none)], f.ty.packed && f.md = 0⟩
  | .wSel f => some ⟨[(f.d, some Specifier.isV), (f.a, some Specifier.isV), (f.b, some Specifier.isX), (f.c, none)], f.ty.packed && f.md = 0⟩
  | .wEnd f => some ⟨[(f.d, none), (f.a, none), (f.b, none), (f.c, none)], f.ty = .i64 && f.md = 0⟩
  | .rowOpen f => some ⟨[(f.t, some Specifier.isX), (f.base, some Specifier.isX), (f.idx, some Specifier.isX)], f.sc.toNat < 7 && f.sz = 0 && f.ql = 0 && f.od = 0⟩
  | .rowHold f => some ⟨[(f.t, some Specifier.isX), (f.base, some Specifier.isX), (f.idx, some Specifier.isX)], f.sc.toNat < 7 && f.sz = 0 && f.ql.toNat < 2 && f.od = 0⟩
  | .rowRel f => some ⟨[(f.t, some Specifier.isX), (f.base, some Specifier.isX), (f.idx, some Specifier.isX)], f.sc.toNat < 7 && f.sz = 0 && f.ql = 0 && f.od = 0⟩
  | .txBegin f => some ⟨[(f.d, some Specifier.isX), (f.a, none), (f.b, none)], f.sel = 0 && f.imm = 0⟩
  | .txCommit f => some ⟨[(f.d, some Specifier.isX), (f.a, none), (f.b, none)], f.sel = 0 && f.imm = 0⟩
  | .txAbort f => some ⟨[(f.d, none), (f.a, none), (f.b, none)], f.sel = 0 && f.imm = 0⟩
  | .attn f => some ⟨[(f.d, some Specifier.isX), (f.a, some Specifier.isV), (f.b, some Specifier.isX), (f.c, some Specifier.isX)], f.ty = .bf16 && f.md.toNat < 2⟩
  | .safeptPoint f => some ⟨[(f.d, none), (f.a, none), (f.b, none)], f.sel = 0 && f.imm = 0⟩
  | .safeptBegin f => some ⟨[(f.d, none), (f.a, none), (f.b, none)], f.sel = 1 && f.imm = 0⟩
  | .safeptEnd f => some ⟨[(f.d, none), (f.a, none), (f.b, none)], f.sel = 2 && f.imm = 0⟩
  | .hSig f => some ⟨[(f.d, some Specifier.isV), (f.a, some Specifier.isX), (f.b, some Specifier.isX), (f.c, none)], 1 ≤ f.cnt.toNat && f.cnt.toNat ≤ 32 && f.md = 0⟩
  | .hProbe f => some ⟨[(f.d, some Specifier.isX), (f.a, some Specifier.isX), (f.b, some Specifier.isV), (f.c, some Specifier.isX)], 1 ≤ f.cnt.toNat && f.cnt.toNat ≤ 32 && f.md = 0⟩
  | .hIns f => some ⟨[(f.d, some Specifier.isX), (f.a, some Specifier.isX), (f.b, some Specifier.isX), (f.c, some Specifier.isV)], 1 ≤ f.cnt.toNat && f.cnt.toNat ≤ 32 && f.md = 0⟩
  | .hDel f => some ⟨[(f.d, some Specifier.isX), (f.a, some Specifier.isX), (f.b, some Specifier.isX), (f.c, some Specifier.isV)], 1 ≤ f.cnt.toNat && f.cnt.toNat ≤ 32 && f.md = 0⟩
  | .hRehash f => some ⟨[(f.d, some Specifier.isX), (f.a, some Specifier.isX), (f.b, some Specifier.isX), (f.c, none)], 1 ≤ f.cnt.toNat && f.md = 0⟩
  | .hDedup f => some ⟨[(f.d, some Specifier.isX), (f.a, some Specifier.isX), (f.b, some Specifier.isX), (f.c, none)], f.tbl = 0 && f.md.toNat < 2 && 1 ≤ f.cnt.toNat && f.cnt.toNat ≤ 64⟩
  | .hUsn f => some ⟨[(f.d, some Specifier.isX), (f.a, some Specifier.isX), (f.b, none), (f.c, none)], f.tbl = 0 && f.md.toNat < 2 && f.cnt = 0⟩
  | .hWusn f => some ⟨[(f.d, some Specifier.isX), (f.a, some Specifier.isX), (f.b, some Specifier.isX), (f.c, none)], f.tbl = 0 && f.md = 0 && f.cnt = 0⟩
  | .synBind f => some ⟨[(f.d, none), (f.a, some Specifier.isX), (f.b, some Specifier.isX)], f.sel.toNat % 8 < 5 && f.sel.toNat < 32 && f.imm = 0⟩
  | .synAcq f => some ⟨[(f.d, some Specifier.isX), (f.a, some Specifier.isX), (f.b, some Specifier.isX), (f.c, none)], f.ty = .i64 && f.md = 0⟩
  | .synRel f => some ⟨[(f.d, some Specifier.isX), (f.a, some Specifier.isX), (f.b, none), (f.c, none)], f.ty = .i64 && f.md = 0⟩
  | .synWtl f => some ⟨[(f.d, some Specifier.isX), (f.a, some Specifier.isX), (f.b, some Specifier.isX), (f.c, none)], f.ty = .i64 && f.md.toNat < 2⟩
  | .synTlTl f => some ⟨[(f.d, some Specifier.isX), (f.a, some Specifier.isX), (f.b, none), (f.c, none)], f.ty = .i64 && f.md = 0⟩
  | .synTlSub f => some ⟨[(f.d, some Specifier.isX), (f.a, some Specifier.isX), (f.b, none), (f.c, none)], f.ty = .i64 && f.md = 1⟩
  | .synTlFl f => some ⟨[(f.d, some Specifier.isX), (f.a, some Specifier.isX), (f.b, none), (f.c, none)], f.ty = .i64 && f.md = 2⟩
  | .synTlMark f => some ⟨[(f.d, some Specifier.isX), (f.a, some Specifier.isX), (f.b, none), (f.c, none)], f.ty = .i64 && f.md = 3⟩
  | .synStep f => some ⟨[(f.d, some Specifier.isX), (f.a, some Specifier.isX), (f.b, none)], f.sel = 0 && f.imm = 0⟩
  | .synSend f => some ⟨[(f.d, none), (f.a, some Specifier.isV)], f.ty = .i64 && f.imm.toNat < 256⟩
  | .synRecv f => some ⟨[(f.d, some Specifier.isV), (f.a, none)], f.ty = .i64 && f.imm.toNat < 256⟩
  | .synVote f => some ⟨[(f.d, none), (f.a, some Specifier.isX), (f.b, some Specifier.isX), (f.c, none)], f.ty = .i64 && f.md = 0⟩
  | .synPollab f => some ⟨[(f.d, none), (f.a, some Specifier.isX), (f.b, none), (f.c, none)], f.ty = .i64 && f.md = 0⟩
  | .synAbort f => some ⟨[(f.d, none), (f.a, some Specifier.isX), (f.b, none), (f.c, none)], f.ty = .i64 && f.md.toNat < 2⟩
  | .synDomBind f => some ⟨[(f.d, some Specifier.isX), (f.a, some Specifier.isX), (f.b, some Specifier.isX)], f.sel = 0 && f.imm = 0⟩
  | .synDomUnbind f => some ⟨[(f.d, some Specifier.isX), (f.a, some Specifier.isX), (f.b, none)], f.sel = 1 && f.imm = 0⟩
  | .synQcfgCreate f => some ⟨[(f.d, some Specifier.isX), (f.a, some Specifier.isX), (f.b, some Specifier.isX)], f.sel = 0 && f.imm = 0⟩
  | .synQcfgDel f => some ⟨[(f.d, some Specifier.isX), (f.a, some Specifier.isX), (f.b, none)], f.sel = 1 && f.imm = 0⟩
  | .ceCopy f => some ⟨[(f.d, some Specifier.isX), (f.a, some Specifier.isX), (f.b, some Specifier.isX), (f.c, some Specifier.isX)], f.ty = .i64 && f.md = 0⟩
  | .ceFill f => some ⟨[(f.d, some Specifier.isX), (f.a, some Specifier.isX), (f.b, some Specifier.isX), (f.c, some Specifier.isX)], f.ty = .i64 && f.md = 0⟩
  | .ceGath f => some ⟨[(f.d, some Specifier.isX), (f.a, some Specifier.isX), (f.b, some Specifier.isX), (f.c, none)], f.ty = .i64 && f.md = 0⟩
  | .ceScat f => some ⟨[(f.d, some Specifier.isX), (f.a, some Specifier.isX), (f.b, some Specifier.isX), (f.c, none)], f.ty = .i64 && f.md = 0⟩
  | .ceCtxRead f => some ⟨[(f.d, some Specifier.isX), (f.a, some Specifier.isX), (f.b, none)], f.sel = 0 && f.imm = 0⟩
  | .ceCtxRing f => some ⟨[(f.d, some Specifier.isX), (f.a, some Specifier.isX), (f.b, some Specifier.isX)], f.sel = 1 && f.imm.toNat < 11⟩
  | .ceCtxRetry f => some ⟨[(f.d, some Specifier.isX), (f.a, some Specifier.isX), (f.b, none)], f.sel = 2 && f.imm = 0⟩
  | .ceCtxClr f => some ⟨[(f.d, some Specifier.isX), (f.a, some Specifier.isX), (f.b, none)], f.sel = 3 && f.imm = 0⟩
  | .ceCancel f => some ⟨[(f.d, some Specifier.isX), (f.a, some Specifier.isX), (f.b, some Specifier.isX)], f.sel = 0 && f.imm = 0⟩
  | .decLoad f => some ⟨[(f.d, some Specifier.isX), (f.a, some Specifier.isX), (f.b, some Specifier.isX), (f.c, none)], f.ty = .i64 && f.md.toNat < 16 && f.md.toNat % 4 < 3 && f.md.toNat / 4 < 3⟩
  | .decStrm f => some ⟨[(f.d, some Specifier.isX), (f.a, some Specifier.isX), (f.b, some Specifier.isX), (f.c, some Specifier.isX)], f.ty = .i64 && f.md = 0⟩
  | .sysRdcr f => some ⟨[(f.d, some Specifier.isX), (f.a, some Specifier.isX), (f.b, none)], f.imm = 0⟩
  | .sysWrcr f => some ⟨[(f.d, none), (f.a, some Specifier.isX), (f.b, some Specifier.isX)], f.imm = 0 && f.sel != 0xA0 && f.sel != 0x62⟩
  | .rtabLoad f => some ⟨[(f.d, none), (f.a, some Specifier.isX), (f.b, some Specifier.isX)], f.imm = 0 && f.sel = 0x80⟩
  | .rtabEmpty f => some ⟨[(f.d, none), (f.a, some Specifier.isX), (f.b, some Specifier.isX)], f.imm = 0 && f.sel = 0x80⟩
  | .clhaltWrite f => some ⟨[(f.d, none), (f.a, some Specifier.isX), (f.b, some Specifier.isX)], f.imm = 0 && f.sel = 0xA0⟩
  | .wacntWrite f => some ⟨[(f.d, none), (f.a, some Specifier.isX), (f.b, some Specifier.isX)], f.imm = 0 && f.sel = 0x62⟩
  | .sysTlbinv f => some ⟨[(f.d, some Specifier.isX), (f.a, some Specifier.isX), (f.b, some Specifier.isX)], f.imm = 0 && f.sel.toNat / 1024 % 32 = 0⟩
  | .sysTlbwr f => some ⟨[(f.d, none), (f.a, some Specifier.isX), (f.b, some Specifier.isX)], f.imm = 0 && f.sel.toNat < 1024⟩
  | .sysTrap f => some ⟨[(f.d, none), (f.a, some Specifier.isX), (f.b, none)], f.sel = 0⟩
  | .sysScrub f => some ⟨[(f.d, some Specifier.isX), (f.a, some Specifier.isX), (f.b, some Specifier.isX)], f.sel = 0 && f.imm = 0⟩
  | .sysLog f => some ⟨[(f.d, none), (f.a, some Specifier.isX), (f.b, some Specifier.isX)], f.sel.toNat < 256 && f.imm = 0⟩
  | .sysMpostHost f => some ⟨[(f.d, some Specifier.isX), (f.a, some Specifier.isV), (f.b, some Specifier.isX)], f.sel = 0 && f.imm = 0⟩
  | .sysMpostMbox f => some ⟨[(f.d, some Specifier.isX), (f.a, some Specifier.isV), (f.b, some Specifier.isX)], f.sel = 1 && f.imm = 0⟩
  | .powerLoss => none
  | .spdmRequest => none
  | .linkRetrained => none

/-- Well formed: an instruction whose fields and operands its entry accepts (R48, R51); every event. -/
def Instr.wellFormed (i : Instr) : Bool :=
  match i.shape with
  | none => true
  | some h => h.fieldsOk && h.operandsOk

end Sys2Proof
end

