-- ==== Sys2Proof/Decode.lean ====
section
/-!
DEFINITION. The decoder of instruction words (R45, R47, R49, R50, R62), the checks made when a word reaches issue in
the order of R65, and after them the encoder, written from the same tables.
-/
namespace Sys2Proof

/-- The causes of thread faults (R117). -/
inductive Cause where
  | illegal | zeroword | badtarget | lpadmiss | jtbound | rsempty | spillfault | operand | unavail | priv
  | pagefault | protect | window | align | datapoison | sealed | holdlost | txlimit | remotepage
  | slotmiss | slotowner | scopemiss | qdeadlock | aborted | metapoison | hashcfg | accfault | watchdog | systrap
  deriving DecidableEq, Repr, Inhabited

/-- The 8-bit code of a cause (R117). -/
def Cause.code : Cause → Nat
  | .illegal => 0x01 | .zeroword => 0x02 | .badtarget => 0x03 | .lpadmiss => 0x04 | .jtbound => 0x05 | .rsempty => 0x06
  | .spillfault => 0x07 | .operand => 0x08 | .unavail => 0x09 | .priv => 0x0A | .pagefault => 0x11 | .protect => 0x12
  | .window => 0x13 | .align => 0x14 | .datapoison => 0x15 | .sealed => 0x16 | .holdlost => 0x17 | .txlimit => 0x19
  | .remotepage => 0x1A | .slotmiss => 0x20 | .slotowner => 0x21 | .scopemiss => 0x22 | .qdeadlock => 0x23
  | .aborted => 0x24 | .metapoison => 0x28 | .hashcfg => 0x29 | .accfault => 0x30 | .watchdog => 0x38 | .systrap => 0x3F

/-- Every cause. -/
def Cause.all : List Cause :=
  [.illegal, .zeroword, .badtarget, .lpadmiss, .jtbound, .rsempty, .spillfault, .operand, .unavail, .priv, .pagefault, .protect,
    .window, .align, .datapoison, .sealed, .holdlost, .txlimit, .remotepage, .slotmiss, .slotowner, .scopemiss, .qdeadlock, .aborted,
    .metapoison, .hashcfg, .accfault, .watchdog, .systrap]

/-- The cause of a code (R117). -/
def Cause.ofCode (c : Nat) : Option Cause := Cause.all.find? fun k => k.code == c

/-- Bits lo + k - 1 .. lo of a number. -/
def bitsAt (n lo k : Nat) : Nat := n / 2 ^ lo % 2 ^ k

/-- The specifier of a 6-bit code (R47). -/
def Specifier.ofCode (c : Nat) : Specifier :=
  if h : c < 0x20 then .x ⟨c, h⟩
  else if h : c - 0x20 < 8 then .v ⟨c - 0x20, h⟩
  else if h : c - 0x28 < 4 then .s ⟨c - 0x28, h⟩
  else if h : c - 0x2C < 4 then .q ⟨c - 0x2C, h⟩
  else if h : c - 0x30 < 4 then .a ⟨c - 0x30, h⟩
  else .reserved ⟨(c - 0x34) % 12, Nat.mod_lt _ (by decide)⟩

/-- The type of a 4-bit code (R49). -/
def ElemType.ofCode (c : Nat) : ElemType :=
  match c with
  | 0 => .i64 | 1 => .i32 | 2 => .i8 | 3 => .f32 | 4 => .bf16 | 5 => .e4m3 | 6 => .e5m2 | 7 => .e2m1
  | c => .reserved ⟨(c - 8) % 8, Nat.mod_lt _ (by decide)⟩

/-- The specifier field whose lowest bit is lo. -/
def specAt (n lo : Nat) : Specifier := .ofCode (bitsAt n lo 6)

/-- Format FA over a word's bits (R50). -/
def unpackFA (n : Nat) : FA :=
  ⟨specAt n 76, specAt n 70, specAt n 64, specAt n 58, .ofCode (bitsAt n 54 4), .ofNat 8 (bitsAt n 46 8)⟩

/-- Format FI over a word's bits (R50). -/
def unpackFI (n : Nat) : FI :=
  ⟨specAt n 76, specAt n 70, .ofCode (bitsAt n 66 4), .ofNat 48 (bitsAt n 0 48)⟩

/-- Format FM over a word's bits (R50). -/
def unpackFM (n : Nat) : FM :=
  ⟨specAt n 76, specAt n 70, specAt n 64, .ofNat 3 (bitsAt n 61 3), .ofNat 3 (bitsAt n 58 3), .ofNat 4 (bitsAt n 54 4),
    .ofNat 4 (bitsAt n 50 4), .ofNat 32 (bitsAt n 0 32)⟩

/-- Format FB over a word's bits (R50). -/
def unpackFB (n : Nat) : FB :=
  ⟨specAt n 76, specAt n 70, .ofNat 4 (bitsAt n 66 4), .ofNat 8 (bitsAt n 58 8), .ofNat 40 (bitsAt n 0 40)⟩

/-- Format FX over a word's bits (R50). -/
def unpackFX (n : Nat) : FX :=
  ⟨specAt n 76, specAt n 70, specAt n 64, specAt n 58, .ofCode (bitsAt n 54 4), .ofCode (bitsAt n 50 4),
    .ofNat 8 (bitsAt n 42 8), .ofNat 16 (bitsAt n 26 16)⟩

/-- Format FH over a word's bits (R50). -/
def unpackFH (n : Nat) : FH :=
  ⟨specAt n 76, specAt n 70, specAt n 64, specAt n 58, .ofNat 6 (bitsAt n 52 6), .ofNat 4 (bitsAt n 48 4),
    .ofNat 16 (bitsAt n 32 16)⟩

/-- Format FS over a word's bits (R50). -/
def unpackFS (n : Nat) : FS :=
  ⟨specAt n 76, specAt n 70, specAt n 64, .ofNat 16 (bitsAt n 48 16), .ofNat 32 (bitsAt n 0 32)⟩

/-- The operations of class 0x0, thread and row control (R62); none for an unassigned operation. -/
def decodeClass0 (o n : Nat) : Option Instr :=
  match o with
  | 0x00 => some (.thSpawn (unpackFA n))
  | 0x01 => some (.thStart (unpackFA n))
  | 0x02 => some (.thStop (unpackFA n))
  | 0x03 => some (.thRedirect (unpackFA n))
  | 0x04 => some (.thYield (unpackFA n))
  | 0x05 => some (.thWait (unpackFI n))
  | 0x06 => some (.thExit (unpackFA n))
  | 0x07 => some (.thSelf (unpackFA n))
  | 0x08 => some (.thPeek (unpackFM n))
  | _ => none

/-- The operations of class 0x1, control flow (R62); none for an unassigned operation. -/
def decodeClass1 (o n : Nat) : Option Instr :=
  match o with
  | 0x00 => some (.nop (unpackFB n))
  | 0x01 => some (.br (unpackFB n))
  | 0x02 => some (.bcmp (unpackFB n))
  | 0x03 => some (.bri (unpackFB n))
  | 0x04 => some (.jt (unpackFB n))
  | 0x05 => some (.lpad (unpackFB n))
  | 0x06 => some (.call (unpackFB n))
  | 0x07 => some (.calli (unpackFB n))
  | 0x08 => some (.ret (unpackFB n))
  | 0x09 => some (.loop (unpackFB n))
  | 0x0A => some (.fsync (unpackFB n))
  | 0x0B => some (.pand (unpackFA n))
  | 0x0C => some (.por (unpackFA n))
  | 0x0D => some (.pxor (unpackFA n))
  | 0x0E => some (.pnot (unpackFA n))
  | _ => none

/-- The operations of class 0x2, integer ALU and compare (R62); none for an unassigned operation. -/
def decodeClass2 (o n : Nat) : Option Instr :=
  match o with
  | 0x00 => some (.addFa (unpackFA n))
  | 0x01 => some (.sub (unpackFA n))
  | 0x02 => some (.andFa (unpackFA n))
  | 0x03 => some (.orFa (unpackFA n))
  | 0x04 => some (.xorFa (unpackFA n))
  | 0x05 => some (.andn (unpackFA n))
  | 0x06 => some (.minFa (unpackFA n))
  | 0x07 => some (.maxFa (unpackFA n))
  | 0x08 => some (.minuFa (unpackFA n))
  | 0x09 => some (.maxuFa (unpackFA n))
  | 0x0A => some (.adds (unpackFA n))
  | 0x0B => some (.subs (unpackFA n))
  | 0x0C => some (.cmpFa (unpackFA n))
  | 0x0D => some (.sel (unpackFA n))
  | 0x0E => some (.movFa (unpackFA n))
  | 0x0F => some (.lea (unpackFA n))
  | 0x10 => some (.rowa (unpackFA n))
  | 0x20 => some (.addFi (unpackFI n))
  | 0x22 => some (.andFi (unpackFI n))
  | 0x23 => some (.orFi (unpackFI n))
  | 0x24 => some (.xorFi (unpackFI n))
  | 0x26 => some (.minFi (unpackFI n))
  | 0x27 => some (.maxFi (unpackFI n))
  | 0x28 => some (.minuFi (unpackFI n))
  | 0x29 => some (.maxuFi (unpackFI n))
  | 0x2C => some (.cmpFi (unpackFI n))
  | 0x2E => some (.movFi (unpackFI n))
  | 0x30 => some (.movhi (unpackFI n))
  | _ => none

/-- The operations of class 0x3, multiply, divide, bits (R62); none for an unassigned operation. -/
def decodeClass3 (o n : Nat) : Option Instr :=
  match o with
  | 0x00 => some (.mulFa (unpackFA n))
  | 0x01 => some (.mulh (unpackFA n))
  | 0x02 => some (.mulhu (unpackFA n))
  | 0x03 => some (.div (unpackFA n))
  | 0x04 => some (.divu (unpackFA n))
  | 0x05 => some (.rem (unpackFA n))
  | 0x06 => some (.remu (unpackFA n))
  | 0x07 => some (.muls (unpackFA n))
  | 0x08 => some (.shlFa (unpackFA n))
  | 0x09 => some (.shrFa (unpackFA n))
  | 0x0A => some (.sraFa (unpackFA n))
  | 0x0B => some (.rolFa (unpackFA n))
  | 0x0C => some (.rorFa (unpackFA n))
  | 0x0D => some (.bextFa (unpackFA n))
  | 0x0E => some (.binsFa (unpackFA n))
  | 0x0F => some (.popc (unpackFA n))
  | 0x10 => some (.clz (unpackFA n))
  | 0x11 => some (.ctz (unpackFA n))
  | 0x20 => some (.mulFi (unpackFI n))
  | 0x28 => some (.shlFi (unpackFI n))
  | 0x29 => some (.shrFi (unpackFI n))
  | 0x2A => some (.sraFi (unpackFI n))
  | 0x2B => some (.rolFi (unpackFI n))
  | 0x2C => some (.rorFi (unpackFI n))
  | 0x2D => some (.bextFi (unpackFI n))
  | 0x2E => some (.binsFi (unpackFI n))
  | _ => none

/-- The operations of class 0x4, load, store, stream (R62); none for an unassigned operation. -/
def decodeClass4 (o n : Nat) : Option Instr :=
  match o with
  | 0x00 => some (.ld (unpackFM n))
  | 0x01 => some (.lds (unpackFM n))
  | 0x02 => some (.st (unpackFM n))
  | 0x03 => some (.ldv (unpackFM n))
  | 0x04 => some (.stv (unpackFM n))
  | 0x05 => some (.ldfe (unpackFM n))
  | 0x06 => some (.stfe (unpackFM n))
  | 0x07 => some (.sete (unpackFM n))
  | 0x08 => some (.sset (unpackFM n))
  | 0x09 => some (.srst (unpackFM n))
  | 0x0A => some (.spos (unpackFM n))
  | 0x0B => some (.pref (unpackFM n))
  | _ => none

/-- The operations of class 0x5, one-sided, atomic, FSHIP (R62); none for an unassigned operation. -/
def decodeClass5 (o n : Nat) : Option Instr :=
  match o with
  | 0x00 => some (.get (unpackFA n))
  | 0x01 => some (.put (unpackFA n))
  | 0x02 => some (.ccrd (unpackFA n))
  | 0x08 => some (.aadd (unpackFM n))
  | 0x09 => some (.aand (unpackFM n))
  | 0x0A => some (.aor (unpackFM n))
  | 0x0B => some (.axor (unpackFM n))
  | 0x0C => some (.amin (unpackFM n))
  | 0x0D => some (.amax (unpackFM n))
  | 0x0E => some (.aswp (unpackFM n))
  | 0x0F => some (.acas (unpackFM n))
  | 0x10 => some (.afadd (unpackFM n))
  | 0x18 => some (.fship (unpackFA n))
  | _ => none

/-- The operations of class 0x6, vector arithmetic (R62); none for an unassigned operation. -/
def decodeClass6 (o n : Nat) : Option Instr :=
  match o with
  | 0x00 => some (.vadd (unpackFA n))
  | 0x01 => some (.vsub (unpackFA n))
  | 0x02 => some (.vmul (unpackFA n))
  | 0x03 => some (.vfma (unpackFA n))
  | 0x04 => some (.vmin (unpackFA n))
  | 0x05 => some (.vmax (unpackFA n))
  | 0x06 => some (.vabs (unpackFA n))
  | 0x07 => some (.vneg (unpackFA n))
  | 0x08 => some (.vrcp (unpackFA n))
  | 0x09 => some (.vrsq (unpackFA n))
  | 0x0A => some (.vexp (unpackFA n))
  | 0x0B => some (.vlog (unpackFA n))
  | 0x0C => some (.vand (unpackFA n))
  | 0x0D => some (.vor (unpackFA n))
  | 0x0E => some (.vxor (unpackFA n))
  | 0x0F => some (.vshl (unpackFA n))
  | 0x10 => some (.vshr (unpackFA n))
  | 0x11 => some (.vsra (unpackFA n))
  | 0x12 => some (.vcmp (unpackFA n))
  | 0x13 => some (.vsel (unpackFA n))
  | 0x14 => some (.vadds (unpackFA n))
  | 0x15 => some (.vsubs (unpackFA n))
  | 0x16 => some (.vmulh (unpackFA n))
  | _ => none

/-- The operations of class 0x7, conversion, reduction, permute, quantise (R62); none for an unassigned operation. -/
def decodeClass7 (o n : Nat) : Option Instr :=
  match o with
  | 0x00 => some (.vcvt (unpackFA n))
  | 0x01 => some (.vbcast (unpackFA n))
  | 0x02 => some (.vperm (unpackFA n))
  | 0x03 => some (.vrot (unpackFA n))
  | 0x04 => some (.vzip (unpackFA n))
  | 0x05 => some (.vunzip (unpackFA n))
  | 0x08 => some (.vrsum (unpackFA n))
  | 0x09 => some (.vrmax (unpackFA n))
  | 0x0A => some (.vrmin (unpackFA n))
  | 0x0B => some (.vscan (unpackFA n))
  | 0x0C => some (.vqnt (unpackFA n))
  | 0x0D => some (.vdqnt (unpackFA n))
  | 0x0E => some (.vbscale (unpackFA n))
  | 0x0F => some (.vmovx (unpackFA n))
  | 0x10 => some (.vins (unpackFA n))
  | 0x11 => some (.vpack (unpackFA n))
  | _ => none

/-- The operations of class 0x8, matrix (R62); none for an unassigned operation. -/
def decodeClass8 (o n : Nat) : Option Instr :=
  match o with
  | 0x00 => some (.mMma (unpackFX n))
  | 0x01 => some (.mMmag (unpackFX n))
  | 0x02 => some (.mGath (unpackFX n))
  | 0x03 => some (.mMvs (unpackFX n))
  | 0x04 => some (.mSacc (unpackFX n))
  | 0x05 => some (.mZero (unpackFX n))
  | 0x06 => some (.mLdacc (unpackFX n))
  | 0x07 => some (.mStacc (unpackFX n))
  | 0x08 => some (.mSpmm (unpackFX n))
  | 0x09 => some (.mTdir (unpackFX n))
  | 0x0A => some (.mDrain (unpackFX n))
  | _ => none

/-- The operations of class 0x9, walker (R62); none for an unassigned operation. -/
def decodeClass9 (o n : Nat) : Option Instr :=
  match o with
  | 0x00 => some (.wLdi (unpackFA n))
  | 0x01 => some (.wLdv (unpackFA n))
  | 0x02 => some (.wEmit (unpackFA n))
  | 0x03 => some (.wEmitz (unpackFA n))
  | 0x04 => some (.wAdv (unpackFA n))
  | 0x05 => some (.wSel (unpackFA n))
  | 0x06 => some (.wEnd (unpackFA n))
  | _ => none

/-- The operations of class 0xA, row and bank (R62); none for an unassigned operation. -/
def decodeClass10 (o n : Nat) : Option Instr :=
  match o with
  | 0x00 => some (.rowOpen (unpackFM n))
  | 0x01 => some (.rowHold (unpackFM n))
  | 0x02 => some (.rowRel (unpackFM n))
  | 0x08 => some (.txBegin (unpackFS n))
  | 0x09 => some (.txCommit (unpackFS n))
  | 0x0A => some (.txAbort (unpackFS n))
  | 0x10 => some (.attn (unpackFA n))
  | 0x18 => let f := unpackFS n; if f.sel = 1 then some (.safeptBegin f) else if f.sel = 2 then some (.safeptEnd f) else some (.safeptPoint f)
  | _ => none

/-- The operations of class 0xB, retrieval (R62); none for an unassigned operation. -/
def decodeClass11 (o n : Nat) : Option Instr :=
  match o with
  | 0x00 => some (.hSig (unpackFH n))
  | 0x01 => some (.hProbe (unpackFH n))
  | 0x02 => some (.hIns (unpackFH n))
  | 0x03 => some (.hDel (unpackFH n))
  | 0x04 => some (.hRehash (unpackFH n))
  | 0x05 => some (.hDedup (unpackFH n))
  | 0x06 => some (.hUsn (unpackFH n))
  | 0x07 => some (.hWusn (unpackFH n))
  | _ => none

/-- The operations of class 0xC, synchronisation (R62); none for an unassigned operation. -/
def decodeClass12 (o n : Nat) : Option Instr :=
  match o with
  | 0x00 => some (.synBind (unpackFS n))
  | 0x01 => some (.synAcq (unpackFA n))
  | 0x02 => some (.synRel (unpackFA n))
  | 0x03 => some (.synWtl (unpackFA n))
  | 0x04 => let f := unpackFA n; if f.md = 1 then some (.synTlSub f) else if f.md = 2 then some (.synTlFl f) else if f.md = 3 then some (.synTlMark f) else some (.synTlTl f)
  | 0x08 => some (.synStep (unpackFS n))
  | 0x09 => some (.synSend (unpackFI n))
  | 0x0A => some (.synRecv (unpackFI n))
  | 0x0B => some (.synVote (unpackFA n))
  | 0x0C => some (.synPollab (unpackFA n))
  | 0x0D => some (.synAbort (unpackFA n))
  | 0x10 => let f := unpackFS n; if f.sel = 1 then some (.synDomUnbind f) else some (.synDomBind f)
  | 0x11 => let f := unpackFS n; if f.sel = 1 then some (.synQcfgDel f) else some (.synQcfgCreate f)
  | _ => none

/-- The operations of class 0xD, engine commands (R62); none for an unassigned operation. -/
def decodeClass13 (o n : Nat) : Option Instr :=
  match o with
  | 0x00 => some (.ceCopy (unpackFA n))
  | 0x01 => some (.ceFill (unpackFA n))
  | 0x02 => some (.ceGath (unpackFA n))
  | 0x03 => some (.ceScat (unpackFA n))
  | 0x04 => let f := unpackFS n; if f.sel = 1 then some (.ceCtxRing f) else if f.sel = 2 then some (.ceCtxRetry f) else if f.sel = 3 then some (.ceCtxClr f) else some (.ceCtxRead f)
  | 0x05 => some (.ceCancel (unpackFS n))
  | 0x08 => some (.decLoad (unpackFA n))
  | 0x09 => some (.decStrm (unpackFA n))
  | _ => none

/-- The operations of class 0xE, system (R62); none for an unassigned operation. -/
def decodeClass14 (o n : Nat) : Option Instr :=
  match o with
  | 0x00 => some (.sysRdcr (unpackFS n))
  | 0x01 => let f := unpackFS n; if f.sel = 0xA0 then some (.clhaltWrite f) else if f.sel = 0x62 then some (.wacntWrite f) else some (.sysWrcr f)
  | 0x02 => some (.sysTlbinv (unpackFS n))
  | 0x03 => some (.sysTlbwr (unpackFS n))
  | 0x04 => some (.sysTrap (unpackFS n))
  | 0x05 => some (.sysScrub (unpackFS n))
  | 0x06 => some (.sysLog (unpackFS n))
  | 0x07 => let f := unpackFS n; if f.sel = 1 then some (.sysMpostMbox f) else some (.sysMpostHost f)
  | _ => none

/-- The instruction of an opcode over a word's bits, before its fields are checked (R62); none for an unassigned or illegal opcode. -/
def decodeOpcode (op n : Nat) : Option Instr :=
  match op / 64 with
  | 0 => decodeClass0 (op % 64) n
  | 1 => decodeClass1 (op % 64) n
  | 2 => decodeClass2 (op % 64) n
  | 3 => decodeClass3 (op % 64) n
  | 4 => decodeClass4 (op % 64) n
  | 5 => decodeClass5 (op % 64) n
  | 6 => decodeClass6 (op % 64) n
  | 7 => decodeClass7 (op % 64) n
  | 8 => decodeClass8 (op % 64) n
  | 9 => decodeClass9 (op % 64) n
  | 10 => decodeClass10 (op % 64) n
  | 11 => decodeClass11 (op % 64) n
  | 12 => decodeClass12 (op % 64) n
  | 13 => decodeClass13 (op % 64) n
  | 14 => decodeClass14 (op % 64) n
  | _ => none

/-- The formats (R50). -/
inductive Format where
  | fa | fi | fm | fb | fx | fh | fs
  deriving DecidableEq, Repr

/-- The format the opcode map assigns to an opcode (R62). -/
def formatOf (op : Nat) : Format :=
  let o := op % 64
  match op / 64 with
  | 0x0 => if o = 0x05 then .fi else if o = 0x08 then .fm else .fa
  | 0x1 => if o < 0x0B then .fb else .fa
  | 0x2 => if o < 0x20 then .fa else .fi
  | 0x3 => if o < 0x20 then .fa else .fi
  | 0x4 => .fm
  | 0x5 => if o < 0x08 then .fa else if o < 0x18 then .fm else .fa
  | 0x8 => .fx
  | 0xA => if o < 0x08 then .fm else if o = 0x10 then .fa else .fs
  | 0xB => .fh
  | 0xC => if o = 0x09 || o = 0x0A then .fi else if o = 0x00 || o = 0x08 || 0x10 ≤ o then .fs else .fa
  | 0xD => if o = 0x04 || o = 0x05 then .fs else .fa
  | 0xE => .fs
  | _ => .fa

/-- The reserved bits of a format are zero (R50, R51). -/
def reservedZero (fmt : Format) (n : Nat) : Bool :=
  match fmt with
  | .fa => bitsAt n 0 46 == 0
  | .fi => bitsAt n 48 18 == 0
  | .fm => bitsAt n 32 18 == 0
  | .fb => bitsAt n 40 18 == 0
  | .fx => bitsAt n 0 26 == 0
  | .fh => bitsAt n 0 32 == 0
  | .fs => bitsAt n 32 16 == 0

/-- The classes each kind of executor runs (R63). -/
def classAvailable (k : ExecKind) (cls : Nat) : Bool :=
  match k with
  | .tile => decide (cls < 0xF) && cls != 0x9 && cls != 0xA
  | .bank => decide (cls < 0xF) && cls != 0x8 && cls != 0x9
  | .walker => cls == 0x1 || cls == 0x2 || cls == 0x3 || cls == 0x9
  | .service => decide (cls < 0xF) && cls != 0x8 && cls != 0x9 && cls != 0xA && cls != 0xB

/-- The guard field of a word (R45). -/
def guardOf (n : Nat) : Guard := ⟨bitsAt n 85 1 == 1, ⟨bitsAt n 82 3, Nat.mod_lt _ (by decide)⟩⟩

/-- The checks of R65 on a word, steps 1 and 3 to 8, in that order (step 2 is the line's). Without an executor kind the
availability steps 4 and 8 are not made: the word is read as such. -/
def decodeFor (k : Option ExecKind) (w : IWord) : Except Cause (Guard × Instr) :=
  let n := w.toNat
  let op := bitsAt n 86 10
  if n = 0 ∨ n = 2 ^ 96 - 1 then .error .zeroword
  else match decodeOpcode op n with
    | none => .error .illegal
    | some i =>
      if k.any (fun k => !classAvailable k (op / 64)) then .error .unavail
      else if guardOf n = ⟨true, 0⟩ then .error .illegal
      else match i.shape with
        | none => .error .illegal
        | some h =>
          if !(reservedZero (formatOf op) n && h.fieldsOk) then .error .illegal
          else if !h.operandsOk then .error .operand
          else if h.namesQueue && k.any (· != .tile) then .error .unavail
          else .ok (guardOf n, i)

/-- A word read without regard to an executor. -/
def decode (w : IWord) : Except Cause (Guard × Instr) := decodeFor none w

/-- The instruction the decoder reads from a word of nbits bits whose bits are w (bits above nbits are zero). -/
def decodeTableWord (nbits w : Nat) : Option Instr :=
  match decode (.ofNat 96 (w % 2 ^ nbits)) with
  | .ok (_, i) => some i
  | .error _ => none

/-- Format FA as bits (R50). -/
def packFA (f : FA) : Nat :=
  f.d.toCode * 2 ^ 76 + f.a.toCode * 2 ^ 70 + f.b.toCode * 2 ^ 64 + f.c.toCode * 2 ^ 58 + f.ty.toCode * 2 ^ 54 +
    f.md.toNat * 2 ^ 46

/-- Format FI as bits (R50). -/
def packFI (f : FI) : Nat :=
  f.d.toCode * 2 ^ 76 + f.a.toCode * 2 ^ 70 + f.ty.toCode * 2 ^ 66 + f.imm.toNat

/-- Format FM as bits (R50). -/
def packFM (f : FM) : Nat :=
  f.t.toCode * 2 ^ 76 + f.base.toCode * 2 ^ 70 + f.idx.toCode * 2 ^ 64 + f.sc.toNat * 2 ^ 61 + f.sz.toNat * 2 ^ 58 +
    f.ql.toNat * 2 ^ 54 + f.od.toNat * 2 ^ 50 + f.disp.toNat

/-- Format FB as bits (R50). -/
def packFB (f : FB) : Nat :=
  f.a.toCode * 2 ^ 76 + f.b.toCode * 2 ^ 70 + f.cc.toNat * 2 ^ 66 + f.md.toNat * 2 ^ 58 + f.disp.toNat

/-- Format FX as bits (R50). -/
def packFX (f : FX) : Nat :=
  f.d.toCode * 2 ^ 76 + f.a.toCode * 2 ^ 70 + f.b.toCode * 2 ^ 64 + f.c.toCode * 2 ^ 58 + f.tya.toCode * 2 ^ 54 +
    f.tyb.toCode * 2 ^ 50 + f.md.toNat * 2 ^ 42 + f.imm.toNat * 2 ^ 26

/-- Format FH as bits (R50). -/
def packFH (f : FH) : Nat :=
  f.d.toCode * 2 ^ 76 + f.a.toCode * 2 ^ 70 + f.b.toCode * 2 ^ 64 + f.c.toCode * 2 ^ 58 + f.tbl.toNat * 2 ^ 52 +
    f.md.toNat * 2 ^ 48 + f.cnt.toNat * 2 ^ 32

/-- Format FS as bits (R50). -/
def packFS (f : FS) : Nat :=
  f.d.toCode * 2 ^ 76 + f.a.toCode * 2 ^ 70 + f.b.toCode * 2 ^ 64 + f.sel.toNat * 2 ^ 48 + f.imm.toNat

/-- The opcode of an instruction (R62); none for an event. -/
def Instr.opcode : Instr → Option Nat
  | .powerGood => none
  | .perst => none
  | .bootStageDone => none
  | .getFwInfo => none
  | .transferFw => none
  | .activateFw => none
  | .identify => none
  | .mailboxBusy => none
  | .createTenant => none
  | .setWindow => none
  | .loadKey => none
  | .scrubTenant => none
  | .getReceipt => none
  | .setAclSetRoute => none
  | .getLog => none
  | .cxlMemRead => none
  | .cxlMemWrite => none
  | .islctlReqOn => none
  | .islctlReqCgated => none
  | .islctlReqPgated => none
  | .islctlReqReserved => none
  | .islandTransitionDone => none
  | .gatedRowMove => none
  | .plimWrite => none
  | .controlRegisterWrite => none
  | .farTierRegisterWrite => none
  | .rowhctlApply => none
  | .rowhashApplyDone => none
  | .powerInterval => none
  | .fastGuard => none
  | .thermalLimit => none
  | .thermalRelease => none
  | .thermalTrip => none
  | .start => none
  | .stop => none
  | .redirect => none
  | .resume => none
  | .kill => none
  | .step => none
  | .commandReserved => none
  | .drain => none
  | .refresh => none
  | .apply => none
  | .engacc => none
  | .complete => none
  | .happly => none
  | .counterMove => none
  | .fetchFill => none
  | .streamPrefetch => none
  | .rowSchedOpen => none
  | .quantumClose => none
  | .priorityClose => none
  | .spinWindowExpiry => none
  | .waitWake => none
  | .thWaitTick => none
  | .spawnReply => none
  | .rowEviction => none
  | .rowReload => none
  | .rowReclaim => none
  | .post => none
  | .translationMissPost => none
  | .translationReply => none
  | .tlbAck => none
  | .invalidationCounterMove => none
  | .stragglerReset => none
  | .matrixArithComplete => none
  | .walkBegin => none
  | .walkerWatchdog => none
  | .subarrayRefresh => none
  | .refreshReactivate => none
  | .activateGrant => none
  | .claimTimeout => none
  | .enckeWatchdog => none
  | .channelReset => none
  | .slotBoundary => none
  | .deadlockGuard => none
  | .handbackPost => none
  | .launchPacket => none
  | .trackerPeriod => none
  | .dpitMoveDone => none
  | .dpitRevertDone => none
  | .scrubComplete => none
  | .flitReceive => none
  | .replayTimeout => none
  | .linkLost => none
  | .laneDegraded => none
  | .retrainDone => none
  | .portRetrain => none
  | .inboundGetRequest => none
  | .inboundPut => none
  | .inboundLaunch => none
  | .inboundSync => none
  | .inboundAtomicRequest => none
  | .getData => none
  | .putAcknowledgement => none
  | .atomicReply => none
  | .fabricError => none
  | .thSpawn _ => some 0x000
  | .thStart _ => some 0x001
  | .thStop _ => some 0x002
  | .thRedirect _ => some 0x003
  | .thYield _ => some 0x004
  | .thWait _ => some 0x005
  | .thExit _ => some 0x006
  | .thSelf _ => some 0x007
  | .thPeek _ => some 0x008
  | .nop _ => some 0x040
  | .br _ => some 0x041
  | .bcmp _ => some 0x042
  | .bri _ => some 0x043
  | .jt _ => some 0x044
  | .lpad _ => some 0x045
  | .call _ => some 0x046
  | .calli _ => some 0x047
  | .ret _ => some 0x048
  | .loop _ => some 0x049
  | .fsync _ => some 0x04A
  | .pand _ => some 0x04B
  | .por _ => some 0x04C
  | .pxor _ => some 0x04D
  | .pnot _ => some 0x04E
  | .addFa _ => some 0x080
  | .addFi _ => some 0x0A0
  | .sub _ => some 0x081
  | .andFa _ => some 0x082
  | .andFi _ => some 0x0A2
  | .orFa _ => some 0x083
  | .orFi _ => some 0x0A3
  | .xorFa _ => some 0x084
  | .xorFi _ => some 0x0A4
  | .andn _ => some 0x085
  | .minFa _ => some 0x086
  | .minFi _ => some 0x0A6
  | .maxFa _ => some 0x087
  | .maxFi _ => some 0x0A7
  | .minuFa _ => some 0x088
  | .minuFi _ => some 0x0A8
  | .maxuFa _ => some 0x089
  | .maxuFi _ => some 0x0A9
  | .adds _ => some 0x08A
  | .subs _ => some 0x08B
  | .cmpFa _ => some 0x08C
  | .cmpFi _ => some 0x0AC
  | .sel _ => some 0x08D
  | .movFa _ => some 0x08E
  | .movFi _ => some 0x0AE
  | .movhi _ => some 0x0B0
  | .lea _ => some 0x08F
  | .rowa _ => some 0x090
  | .mulFa _ => some 0x0C0
  | .mulFi _ => some 0x0E0
  | .mulh _ => some 0x0C1
  | .mulhu _ => some 0x0C2
  | .div _ => some 0x0C3
  | .divu _ => some 0x0C4
  | .rem _ => some 0x0C5
  | .remu _ => some 0x0C6
  | .muls _ => some 0x0C7
  | .shlFa _ => some 0x0C8
  | .shlFi _ => some 0x0E8
  | .shrFa _ => some 0x0C9
  | .shrFi _ => some 0x0E9
  | .sraFa _ => some 0x0CA
  | .sraFi _ => some 0x0EA
  | .rolFa _ => some 0x0CB
  | .rolFi _ => some 0x0EB
  | .rorFa _ => some 0x0CC
  | .rorFi _ => some 0x0EC
  | .bextFa _ => some 0x0CD
  | .bextFi _ => some 0x0ED
  | .binsFa _ => some 0x0CE
  | .binsFi _ => some 0x0EE
  | .popc _ => some 0x0CF
  | .clz _ => some 0x0D0
  | .ctz _ => some 0x0D1
  | .ld _ => some 0x100
  | .lds _ => some 0x101
  | .st _ => some 0x102
  | .ldv _ => some 0x103
  | .stv _ => some 0x104
  | .ldfe _ => some 0x105
  | .stfe _ => some 0x106
  | .sete _ => some 0x107
  | .sset _ => some 0x108
  | .srst _ => some 0x109
  | .spos _ => some 0x10A
  | .pref _ => some 0x10B
  | .get _ => some 0x140
  | .put _ => some 0x141
  | .ccrd _ => some 0x142
  | .aadd _ => some 0x148
  | .aand _ => some 0x149
  | .aor _ => some 0x14A
  | .axor _ => some 0x14B
  | .amin _ => some 0x14C
  | .amax _ => some 0x14D
  | .aswp _ => some 0x14E
  | .acas _ => some 0x14F
  | .afadd _ => some 0x150
  | .fship _ => some 0x158
  | .vadd _ => some 0x180
  | .vsub _ => some 0x181
  | .vmul _ => some 0x182
  | .vfma _ => some 0x183
  | .vmin _ => some 0x184
  | .vmax _ => some 0x185
  | .vabs _ => some 0x186
  | .vneg _ => some 0x187
  | .vrcp _ => some 0x188
  | .vrsq _ => some 0x189
  | .vexp _ => some 0x18A
  | .vlog _ => some 0x18B
  | .vand _ => some 0x18C
  | .vor _ => some 0x18D
  | .vxor _ => some 0x18E
  | .vshl _ => some 0x18F
  | .vshr _ => some 0x190
  | .vsra _ => some 0x191
  | .vcmp _ => some 0x192
  | .vsel _ => some 0x193
  | .vadds _ => some 0x194
  | .vsubs _ => some 0x195
  | .vmulh _ => some 0x196
  | .vcvt _ => some 0x1C0
  | .vbcast _ => some 0x1C1
  | .vperm _ => some 0x1C2
  | .vrot _ => some 0x1C3
  | .vzip _ => some 0x1C4
  | .vunzip _ => some 0x1C5
  | .vrsum _ => some 0x1C8
  | .vrmax _ => some 0x1C9
  | .vrmin _ => some 0x1CA
  | .vscan _ => some 0x1CB
  | .vqnt _ => some 0x1CC
  | .vdqnt _ => some 0x1CD
  | .vbscale _ => some 0x1CE
  | .vmovx _ => some 0x1CF
  | .vins _ => some 0x1D0
  | .vpack _ => some 0x1D1
  | .mMma _ => some 0x200
  | .mMmag _ => some 0x201
  | .mGath _ => some 0x202
  | .mMvs _ => some 0x203
  | .mSacc _ => some 0x204
  | .mZero _ => some 0x205
  | .mLdacc _ => some 0x206
  | .mStacc _ => some 0x207
  | .mSpmm _ => some 0x208
  | .mTdir _ => some 0x209
  | .mDrain _ => some 0x20A
  | .wLdi _ => some 0x240
  | .wLdv _ => some 0x241
  | .wEmit _ => some 0x242
  | .wEmitz _ => some 0x243
  | .wAdv _ => some 0x244
  | .wSel _ => some 0x245
  | .wEnd _ => some 0x246
  | .rowOpen _ => some 0x280
  | .rowHold _ => some 0x281
  | .rowRel _ => some 0x282
  | .txBegin _ => some 0x288
  | .txCommit _ => some 0x289
  | .txAbort _ => some 0x28A
  | .attn _ => some 0x290
  | .safeptPoint _ => some 0x298
  | .safeptBegin _ => some 0x298
  | .safeptEnd _ => some 0x298
  | .hSig _ => some 0x2C0
  | .hProbe _ => some 0x2C1
  | .hIns _ => some 0x2C2
  | .hDel _ => some 0x2C3
  | .hRehash _ => some 0x2C4
  | .hDedup _ => some 0x2C5
  | .hUsn _ => some 0x2C6
  | .hWusn _ => some 0x2C7
  | .synBind _ => some 0x300
  | .synAcq _ => some 0x301
  | .synRel _ => some 0x302
  | .synWtl _ => some 0x303
  | .synTlTl _ => some 0x304
  | .synTlSub _ => some 0x304
  | .synTlFl _ => some 0x304
  | .synTlMark _ => some 0x304
  | .synStep _ => some 0x308
  | .synSend _ => some 0x309
  | .synRecv _ => some 0x30A
  | .synVote _ => some 0x30B
  | .synPollab _ => some 0x30C
  | .synAbort _ => some 0x30D
  | .synDomBind _ => some 0x310
  | .synDomUnbind _ => some 0x310
  | .synQcfgCreate _ => some 0x311
  | .synQcfgDel _ => some 0x311
  | .ceCopy _ => some 0x340
  | .ceFill _ => some 0x341
  | .ceGath _ => some 0x342
  | .ceScat _ => some 0x343
  | .ceCtxRead _ => some 0x344
  | .ceCtxRing _ => some 0x344
  | .ceCtxRetry _ => some 0x344
  | .ceCtxClr _ => some 0x344
  | .ceCancel _ => some 0x345
  | .decLoad _ => some 0x348
  | .decStrm _ => some 0x349
  | .sysRdcr _ => some 0x380
  | .sysWrcr _ => some 0x381
  | .rtabLoad _ => some 0x381
  | .rtabEmpty _ => some 0x381
  | .clhaltWrite _ => some 0x381
  | .wacntWrite _ => some 0x381
  | .sysTlbinv _ => some 0x382
  | .sysTlbwr _ => some 0x383
  | .sysTrap _ => some 0x384
  | .sysScrub _ => some 0x385
  | .sysLog _ => some 0x386
  | .sysMpostHost _ => some 0x387
  | .sysMpostMbox _ => some 0x387
  | .powerLoss => none
  | .spdmRequest => none
  | .linkRetrained => none

/-- The body bits 81..0 of an instruction (R50); none for an event. -/
def Instr.body : Instr → Option Nat
  | .powerGood => none
  | .perst => none
  | .bootStageDone => none
  | .getFwInfo => none
  | .transferFw => none
  | .activateFw => none
  | .identify => none
  | .mailboxBusy => none
  | .createTenant => none
  | .setWindow => none
  | .loadKey => none
  | .scrubTenant => none
  | .getReceipt => none
  | .setAclSetRoute => none
  | .getLog => none
  | .cxlMemRead => none
  | .cxlMemWrite => none
  | .islctlReqOn => none
  | .islctlReqCgated => none
  | .islctlReqPgated => none
  | .islctlReqReserved => none
  | .islandTransitionDone => none
  | .gatedRowMove => none
  | .plimWrite => none
  | .controlRegisterWrite => none
  | .farTierRegisterWrite => none
  | .rowhctlApply => none
  | .rowhashApplyDone => none
  | .powerInterval => none
  | .fastGuard => none
  | .thermalLimit => none
  | .thermalRelease => none
  | .thermalTrip => none
  | .start => none
  | .stop => none
  | .redirect => none
  | .resume => none
  | .kill => none
  | .step => none
  | .commandReserved => none
  | .drain => none
  | .refresh => none
  | .apply => none
  | .engacc => none
  | .complete => none
  | .happly => none
  | .counterMove => none
  | .fetchFill => none
  | .streamPrefetch => none
  | .rowSchedOpen => none
  | .quantumClose => none
  | .priorityClose => none
  | .spinWindowExpiry => none
  | .waitWake => none
  | .thWaitTick => none
  | .spawnReply => none
  | .rowEviction => none
  | .rowReload => none
  | .rowReclaim => none
  | .post => none
  | .translationMissPost => none
  | .translationReply => none
  | .tlbAck => none
  | .invalidationCounterMove => none
  | .stragglerReset => none
  | .matrixArithComplete => none
  | .walkBegin => none
  | .walkerWatchdog => none
  | .subarrayRefresh => none
  | .refreshReactivate => none
  | .activateGrant => none
  | .claimTimeout => none
  | .enckeWatchdog => none
  | .channelReset => none
  | .slotBoundary => none
  | .deadlockGuard => none
  | .handbackPost => none
  | .launchPacket => none
  | .trackerPeriod => none
  | .dpitMoveDone => none
  | .dpitRevertDone => none
  | .scrubComplete => none
  | .flitReceive => none
  | .replayTimeout => none
  | .linkLost => none
  | .laneDegraded => none
  | .retrainDone => none
  | .portRetrain => none
  | .inboundGetRequest => none
  | .inboundPut => none
  | .inboundLaunch => none
  | .inboundSync => none
  | .inboundAtomicRequest => none
  | .getData => none
  | .putAcknowledgement => none
  | .atomicReply => none
  | .fabricError => none
  | .thSpawn f => some (packFA f)
  | .thStart f => some (packFA f)
  | .thStop f => some (packFA f)
  | .thRedirect f => some (packFA f)
  | .thYield f => some (packFA f)
  | .thWait f => some (packFI f)
  | .thExit f => some (packFA f)
  | .thSelf f => some (packFA f)
  | .thPeek f => some (packFM f)
  | .nop f => some (packFB f)
  | .br f => some (packFB f)
  | .bcmp f => some (packFB f)
  | .bri f => some (packFB f)
  | .jt f => some (packFB f)
  | .lpad f => some (packFB f)
  | .call f => some (packFB f)
  | .calli f => some (packFB f)
  | .ret f => some (packFB f)
  | .loop f => some (packFB f)
  | .fsync f => some (packFB f)
  | .pand f => some (packFA f)
  | .por f => some (packFA f)
  | .pxor f => some (packFA f)
  | .pnot f => some (packFA f)
  | .addFa f => some (packFA f)
  | .addFi f => some (packFI f)
  | .sub f => some (packFA f)
  | .andFa f => some (packFA f)
  | .andFi f => some (packFI f)
  | .orFa f => some (packFA f)
  | .orFi f => some (packFI f)
  | .xorFa f => some (packFA f)
  | .xorFi f => some (packFI f)
  | .andn f => some (packFA f)
  | .minFa f => some (packFA f)
  | .minFi f => some (packFI f)
  | .maxFa f => some (packFA f)
  | .maxFi f => some (packFI f)
  | .minuFa f => some (packFA f)
  | .minuFi f => some (packFI f)
  | .maxuFa f => some (packFA f)
  | .maxuFi f => some (packFI f)
  | .adds f => some (packFA f)
  | .subs f => some (packFA f)
  | .cmpFa f => some (packFA f)
  | .cmpFi f => some (packFI f)
  | .sel f => some (packFA f)
  | .movFa f => some (packFA f)
  | .movFi f => some (packFI f)
  | .movhi f => some (packFI f)
  | .lea f => some (packFA f)
  | .rowa f => some (packFA f)
  | .mulFa f => some (packFA f)
  | .mulFi f => some (packFI f)
  | .mulh f => some (packFA f)
  | .mulhu f => some (packFA f)
  | .div f => some (packFA f)
  | .divu f => some (packFA f)
  | .rem f => some (packFA f)
  | .remu f => some (packFA f)
  | .muls f => some (packFA f)
  | .shlFa f => some (packFA f)
  | .shlFi f => some (packFI f)
  | .shrFa f => some (packFA f)
  | .shrFi f => some (packFI f)
  | .sraFa f => some (packFA f)
  | .sraFi f => some (packFI f)
  | .rolFa f => some (packFA f)
  | .rolFi f => some (packFI f)
  | .rorFa f => some (packFA f)
  | .rorFi f => some (packFI f)
  | .bextFa f => some (packFA f)
  | .bextFi f => some (packFI f)
  | .binsFa f => some (packFA f)
  | .binsFi f => some (packFI f)
  | .popc f => some (packFA f)
  | .clz f => some (packFA f)
  | .ctz f => some (packFA f)
  | .ld f => some (packFM f)
  | .lds f => some (packFM f)
  | .st f => some (packFM f)
  | .ldv f => some (packFM f)
  | .stv f => some (packFM f)
  | .ldfe f => some (packFM f)
  | .stfe f => some (packFM f)
  | .sete f => some (packFM f)
  | .sset f => some (packFM f)
  | .srst f => some (packFM f)
  | .spos f => some (packFM f)
  | .pref f => some (packFM f)
  | .get f => some (packFA f)
  | .put f => some (packFA f)
  | .ccrd f => some (packFA f)
  | .aadd f => some (packFM f)
  | .aand f => some (packFM f)
  | .aor f => some (packFM f)
  | .axor f => some (packFM f)
  | .amin f => some (packFM f)
  | .amax f => some (packFM f)
  | .aswp f => some (packFM f)
  | .acas f => some (packFM f)
  | .afadd f => some (packFM f)
  | .fship f => some (packFA f)
  | .vadd f => some (packFA f)
  | .vsub f => some (packFA f)
  | .vmul f => some (packFA f)
  | .vfma f => some (packFA f)
  | .vmin f => some (packFA f)
  | .vmax f => some (packFA f)
  | .vabs f => some (packFA f)
  | .vneg f => some (packFA f)
  | .vrcp f => some (packFA f)
  | .vrsq f => some (packFA f)
  | .vexp f => some (packFA f)
  | .vlog f => some (packFA f)
  | .vand f => some (packFA f)
  | .vor f => some (packFA f)
  | .vxor f => some (packFA f)
  | .vshl f => some (packFA f)
  | .vshr f => some (packFA f)
  | .vsra f => some (packFA f)
  | .vcmp f => some (packFA f)
  | .vsel f => some (packFA f)
  | .vadds f => some (packFA f)
  | .vsubs f => some (packFA f)
  | .vmulh f => some (packFA f)
  | .vcvt f => some (packFA f)
  | .vbcast f => some (packFA f)
  | .vperm f => some (packFA f)
  | .vrot f => some (packFA f)
  | .vzip f => some (packFA f)
  | .vunzip f => some (packFA f)
  | .vrsum f => some (packFA f)
  | .vrmax f => some (packFA f)
  | .vrmin f => some (packFA f)
  | .vscan f => some (packFA f)
  | .vqnt f => some (packFA f)
  | .vdqnt f => some (packFA f)
  | .vbscale f => some (packFA f)
  | .vmovx f => some (packFA f)
  | .vins f => some (packFA f)
  | .vpack f => some (packFA f)
  | .mMma f => some (packFX f)
  | .mMmag f => some (packFX f)
  | .mGath f => some (packFX f)
  | .mMvs f => some (packFX f)
  | .mSacc f => some (packFX f)
  | .mZero f => some (packFX f)
  | .mLdacc f => some (packFX f)
  | .mStacc f => some (packFX f)
  | .mSpmm f => some (packFX f)
  | .mTdir f => some (packFX f)
  | .mDrain f => some (packFX f)
  | .wLdi f => some (packFA f)
  | .wLdv f => some (packFA f)
  | .wEmit f => some (packFA f)
  | .wEmitz f => some (packFA f)
  | .wAdv f => some (packFA f)
  | .wSel f => some (packFA f)
  | .wEnd f => some (packFA f)
  | .rowOpen f => some (packFM f)
  | .rowHold f => some (packFM f)
  | .rowRel f => some (packFM f)
  | .txBegin f => some (packFS f)
  | .txCommit f => some (packFS f)
  | .txAbort f => some (packFS f)
  | .attn f => some (packFA f)
  | .safeptPoint f => some (packFS f)
  | .safeptBegin f => some (packFS f)
  | .safeptEnd f => some (packFS f)
  | .hSig f => some (packFH f)
  | .hProbe f => some (packFH f)
  | .hIns f => some (packFH f)
  | .hDel f => some (packFH f)
  | .hRehash f => some (packFH f)
  | .hDedup f => some (packFH f)
  | .hUsn f => some (packFH f)
  | .hWusn f => some (packFH f)
  | .synBind f => some (packFS f)
  | .synAcq f => some (packFA f)
  | .synRel f => some (packFA f)
  | .synWtl f => some (packFA f)
  | .synTlTl f => some (packFA f)
  | .synTlSub f => some (packFA f)
  | .synTlFl f => some (packFA f)
  | .synTlMark f => some (packFA f)
  | .synStep f => some (packFS f)
  | .synSend f => some (packFI f)
  | .synRecv f => some (packFI f)
  | .synVote f => some (packFA f)
  | .synPollab f => some (packFA f)
  | .synAbort f => some (packFA f)
  | .synDomBind f => some (packFS f)
  | .synDomUnbind f => some (packFS f)
  | .synQcfgCreate f => some (packFS f)
  | .synQcfgDel f => some (packFS f)
  | .ceCopy f => some (packFA f)
  | .ceFill f => some (packFA f)
  | .ceGath f => some (packFA f)
  | .ceScat f => some (packFA f)
  | .ceCtxRead f => some (packFS f)
  | .ceCtxRing f => some (packFS f)
  | .ceCtxRetry f => some (packFS f)
  | .ceCtxClr f => some (packFS f)
  | .ceCancel f => some (packFS f)
  | .decLoad f => some (packFA f)
  | .decStrm f => some (packFA f)
  | .sysRdcr f => some (packFS f)
  | .sysWrcr f => some (packFS f)
  | .rtabLoad f => some (packFS f)
  | .rtabEmpty f => some (packFS f)
  | .clhaltWrite f => some (packFS f)
  | .wacntWrite f => some (packFS f)
  | .sysTlbinv f => some (packFS f)
  | .sysTlbwr f => some (packFS f)
  | .sysTrap f => some (packFS f)
  | .sysScrub f => some (packFS f)
  | .sysLog f => some (packFS f)
  | .sysMpostHost f => some (packFS f)
  | .sysMpostMbox f => some (packFS f)
  | .powerLoss => none
  | .spdmRequest => none
  | .linkRetrained => none

/-- The 4-bit guard field (R45). -/
def Guard.toCode (g : Guard) : Nat := (if g.neg then 8 else 0) + g.pred.val

/-- The word of a guarded instruction (R45, R50); zero for an event, which no word encodes. -/
def encode (g : Guard) (i : Instr) : IWord :=
  match i.opcode, i.body with
  | some op, some b => .ofNat 96 (op * 2 ^ 86 + g.toCode * 2 ^ 82 + b)
  | _, _ => 0

/-- The instructions whose words decode to them. RTAB_LOAD and RTAB_EMPTY are the two ways a SYS.WRCR of RTAB runs, told apart
by the value it writes (R355), so their words decode to SYS.WRCR; events have no word. -/
def Instr.isWord (i : Instr) : Bool :=
  match i with
  | .rtabLoad _ | .rtabEmpty _ => false
  | i => i.opcode.isSome

/-- A guard a word may hold: every code but 1000b (R43, R65). -/
def Guard.legal (g : Guard) : Bool := g != ⟨true, 0⟩

/-- The polynomial of the line CRC (R56). -/
def crc16Poly : Nat := 0x1021

/-- One bit of the CRC of R56, most significant first. -/
def crc16Bit (crc : Nat) (bit : Bool) : Nat :=
  let top := (crc / 0x8000 % 2 == 1) != bit
  let sh := crc * 2 % 0x10000
  if top then sh ^^^ crc16Poly else sh

/-- The CRC after one byte. -/
def crc16Byte (crc : Nat) (b : Byte) : Nat :=
  [7, 6, 5, 4, 3, 2, 1, 0].foldl (fun c k => crc16Bit c (b.getLsbD k)) crc

/-- A function of a number, once the number has been computed. -/
def computed {α : Type} (n : Nat) (f : Nat → α) : α :=
  match n with
  | 0 => f 0
  | k + 1 => f (k + 1)

/-- The CRC of bytes in ascending order, from a value. -/
def crc16From (c : Nat) : List Byte → Nat
  | [] => c
  | b :: bs => computed (crc16Byte c b) fun d => crc16From d bs

/-- The CRC of bytes in ascending order, from 0xFFFF (R56). -/
def crc16 (bs : List Byte) : Nat := crc16From 0xFFFF bs

/-- The word of slot i of a fetch line, i from 0 to 4 (R54). -/
def slotWord (l : Line) (i : Nat) : IWord := (l.extractLsb' (96 * i) 96)

/-- The line word of a fetch line (R54, R55). -/
def lineWord (l : Line) : BitVec 32 := l.extractLsb' 480 32

/-- The branch-target mask of a line word (R55). -/
def tmask (lw : BitVec 32) : Nat := bitsAt lw.toNat 0 5

/-- The pairing template of a line word (R55). -/
def pairCode (lw : BitVec 32) : Nat := bitsAt lw.toNat 5 4

/-- The line's own decode check (R59, R65, step 2): PAIR not reserved and bits 15..9 zero. -/
def lineWordOk (lw : BitVec 32) : Bool := decide (pairCode lw < 8) && bitsAt lw.toNat 9 7 == 0

/-- The CRC field (R55). -/
def lineCrc (lw : BitVec 32) : Nat := bitsAt lw.toNat 16 16

end Sys2Proof
end

