-- ==== Sys2Proof/Config.lean ====
section
/-!
DEFINITION. What an implementation fixes, and the free values: constants without a body, of which nothing can be proved,
so that a claim holds whatever they are.
-/
namespace Sys2Proof.Config

/-- The page that a bucket or pool address of a table leads to where it lies beyond the pages checked at issue: no rule says (R289, R296). -/
opaque strayPage : Nat → Nat

/-- The next move of the part when the schedule is empty: R67 leaves the order of moves open (log entry 1). -/
opaque freeMove : Nat → Move

/-- The rollback counter as it is fused (R28). -/
opaque fusedRollback : BitVec 16

/-- The firmware images in the module's flash, 0 hub, 1 TSC, 2 stack translation core, 3 routine processor, 4 fabric (R24). -/
opaque flashImage : Nat → FwImage

/-- The ECDSA P-384 check of a signature over a digest with Lanixon's key (R24). -/
opaque signatureHolds : BitVec 384 → BitVec 768 → Bool

/-- The signature that the device alias key makes over a digest: the key is in no document (R372). -/
opaque deviceSign : BitVec 384 → BitVec 768

/-- The SHA-384 digest of the device identity certificate (R372). -/
opaque certificateDigest : BitVec 384

/-- The device's answer to an SPDM request, which depends on the firmware images and the rollback counter: certificates and the form of
measurements are in no document (R373). -/
opaque spdmAnswer : SpdmReq → List FwImage → BitVec 16 → List Byte

/-- The hub clock in MHz (R29, FNOW of island 28). -/
opaque hubClock : BitVec 16

/-- The clock in MHz of an island whose clock is fixed (R14: islands 24 to 27 and 29). -/
opaque fixedClock : Nat → BitVec 16

/-- The spares of a subarray used for repair at manufacture (R276); the model takes it modulo 9. -/
opaque repairedSpares : Nat → Nat

/-- The hardware serial of the next receipt counts over the module's life (R372): its value at power-up. -/
opaque receiptSerial : Nat

/-- The free frames of a stack below which the tracker moves pages out, which device firmware sets (R365). -/
opaque trackerWatermark : Nat → Nat

/-- What Get FW Info (0) and Identify (1) return to the host: no rule gives it (R25). -/
opaque mailboxAnswer : Nat → List Word

/-- Which ASID of its range a launched row of a tenant takes: no rule says (R368). -/
opaque launchAsid : Nat → Nat

/-- Where the firmware of a service core begins: the images are in no document (R24, R64). -/
opaque firmwareEntry : Nat → Word

/-- The cycles that an instruction of a routine takes on a routine processor, by opcode: no rule gives them (R192, R355). -/
opaque routineCycles : Nat → Nat

/-- The payloads of the flits of a message by its kind, address and data: no rule gives the layout (R375). -/
opaque messagePayload : Nat → Word → List Byte → List (List Byte)

end Sys2Proof.Config
end

