-- ==== Sys2Proof/Machine/State.lean ====
section
/-!
DEFINITION. The state of the module as plain data. A thread's registers are bytes of its row in memory (R16, R89); what a
thread has outside its row (store buffer, view, outside queue, fetch buffer, accumulators and what the scheduler keeps)
stands in its Thread record. Units that the abstract machine lists (R68) and those the class chapters add have a
structure each.
-/
namespace Sys2Proof.Machine

/-- Reasons a step stops the model. -/
inductive Fault where
  /-- Raised by an instruction when no thread stands at issue: an ISSUE (R70) is of an open row, so only a schedule that names an
  instruction as an event raises it. Safe. -/
  | noThreadAtIssue
  deriving DecidableEq, Repr

/-- Reasons an instruction has no meaning. -/
inductive Refusal where
  /-- Raised by an arm of exec for an instruction that the model does not give a meaning. Safe. -/
  | notModelled (mnemonic : String)
  deriving DecidableEq, Repr

/-- Bytes by address, addresses strictly rising, no entry equal to what an unlisted address reads as. -/
abbrev Memory := List Host.Cell

/-- What an unlisted address reads as: boot writes every row to zero (R22). -/
def Memory.unlisted : Byte := 0

/-- The canonical form of a memory. -/
def Memory.wf : Memory → Bool
  | [] => true
  | [c] => c.2 != Memory.unlisted
  | c :: d :: m => c.2 != Memory.unlisted && decide (c.1 < d.1) && Memory.wf (d :: m)

/-- Granule states of tile memory (R68). -/
inductive Gran where
  | empty | full | poison
  deriving DecidableEq, Repr, Inhabited

/-- Row tags (R90). -/
inductive RowTag where
  | data | fixed | placed
  deriving DecidableEq, Repr, Inhabited

/-- A superseded version of a line (R67): its number, bytes, the commit that made it (0 for none), and the cycle counts of the islands when it
was made (R75). -/
structure OldVersion where
  num : Nat
  data : Line
  commit : Nat
  made : List Nat
  deriving DecidableEq, Repr, Inhabited

/-- The versions of a line that has been written: the newest one's number, commit and cycle counts, and the superseded ones, newest
first. -/
structure LineHist where
  line : Nat
  cur : Nat
  commit : Nat
  made : List Nat
  old : List OldVersion
  deriving DecidableEq, Repr, Inhabited

/-- What a store-buffer or outside-queue entry is, beyond its bytes: a plain store, a store with the START-DATA mark of TH.START
(R119: the priority and the row's virtual address), a group store of a transactional group (R277), a store of a party outside the rows
(R370: its tenant, its module and whether it is the host), or a write of the hub through a ring (R394), which may set granules F. -/
inductive StoreMark where
  | plain
  | startData (prio : Byte) (va : Word)
  | group (row : Nat)
  | outside (tenant smod : Nat) (host : Bool)
  | hub (fill : Bool)
  deriving DecidableEq, Repr, Inhabited

/-- A pending store (R68): device-physical address, bytes within one line, the virtual address and ASID it was translated from,
its mark, and for a remote page the module (R379) with the tag of the message once sent. -/
structure SBEntry where
  dp : Nat
  bytes : List Byte
  va : Word
  asid : Nat
  mark : StoreMark
  remote : Option Nat
  tag : Option Nat
  deriving DecidableEq, Repr, Inhabited

/-- The checked context of a hash-table instruction (R287, R296): descriptor fields and the translation of its pages. -/
structure HashCtx where
  desc : Nat
  descVa : Nat
  fam : Nat
  kb : Nat
  kmax : Nat
  l : Nat
  pol : Nat
  fmt : ElemType
  lw : Nat
  dim : Nat
  seed : Word
  bkt : Nat
  bst : Nat
  keys : Nat
  pl : Nat
  kstr : Nat
  pn : Nat
  pages : List (Nat × Nat)
  deriving DecidableEq, Repr, Inhabited

/-- A pending part of an update (R301, R302). -/
structure HashPart where
  usn : Nat
  hash : HashCtx
  table : Nat
  sig : Nat
  entry : Nat
  delete : Bool
  split : Option Nat
  thread : Nat
  tenant : Nat
  deriving DecidableEq, Repr, Inhabited

/-- Who waits for the answer to an outside access (R76, R176, R379): a thread, and which of its askings this is, so that an instruction that begins
anew takes no answer to an access that an earlier one has left behind. -/
structure Asker where
  id : Nat
  ask : Nat
  deriving DecidableEq, Repr, Inhabited

/-- An entry of an outside queue (R76, R176): accesses by other parties in arrival order. The source is a thread when one made it; a
read is one for a whole access, under the key of its reply. An update carries the parts that its move creates (R301), a part of one is named by its table
and number (R302), and an FSHIP its operands and the routine it began with, with its bound (R192, R355). -/
inductive OQEntry where
  | write (src : Option Nat) (dp : Nat) (bytes : List Byte) (mark : StoreMark)
  | read (src : Asker) (key dp n : Nat)
  | atomic (src : Asker) (op : AtomOp) (dp n : Nat) (v w : Word)
  | ldfe (src : Asker) (dp n : Nat) (clear : Bool)
  | stfe (src : Asker) (dp : Nat) (bytes : List Byte)
  | sete (src : Asker) (dp n : Nat) (full : Bool)
  | ccrd (src : Asker) (dp need : Nat)
  | count (src : Nat) (dp add : Nat)
  | update (src : Asker) (dp : Nat) (parts : List HashPart)
  | fship (src : Asker) (dp : Nat) (b c : Word) (bound : Nat) (body : List Line)
  | access (a : AccessId)
  | part (desc usn table : Nat)
  | hostRead (dp n : Nat)
  deriving DecidableEq, Repr, Inhabited

/-- What an outside access that the thread waits for has brought (R76, R176, R379); the key is the device-physical address, or
2^60 and above for a remote virtual address; a load of n bytes has n times 2^70 added. -/
inductive Reply where
  | data (key : Nat) (bytes : List Byte)
  | done (key : Nat)
  | notEnabled (key : Nat)
  | fault (key : Nat) (c : Cause)
  deriving DecidableEq, Repr, Inhabited

/-- A fetch-buffer line (R57, R143): its virtual address, its bytes, the fault its first issue takes, and whether an instruction has
issued from it. -/
structure FetchLine where
  va : Nat
  data : Line
  bad : Option Cause
  issued : Bool
  deriving DecidableEq, Repr, Inhabited

/-- The condition a stalled instruction or a WAITING row waits for (R103, R104). -/
inductive WaitCond where
  | always
  | watch (dest : Nat)
  | granules (dp n : Nat) (full : Bool)
  | timeline (ctx : Nat) (n : Word) (orHalt : Bool)
  | queueRoom (ctx : Nat)
  | seq (object : Nat) (n : Word)
  | queue (cluster num need room : Nat)
  | counter (dp : Nat) (n : Nat)
  | applied (dp : Nat) (n : Nat)
  | oneSided
  | translation (unit asid : Nat) (va : Word)
  | member (unit asid : Nat) (va : Word)
  | restore (acc : Nat) (va : Word)
  | island (n : Nat)
  | domain (name : Nat)
  | slot (domain step index : Nat) (ended : Bool)
  | spawn
  | buffer (sub row : Nat)
  | sbEmpty
  | sbClear (lines : List Nat)
  | queueClear (lines : List Nat)
  | sbAndQueues
  | reply
  | matrix
  | walk
  | split
  | unitBusy (kind : Nat)
  deriving DecidableEq, Repr, Inhabited

/-- A stalled instruction: its wait kind and argument (R103) and its condition. -/
structure Stall where
  wkind : Nat
  warg : Nat
  cond : WaitCond
  deriving DecidableEq, Repr, Inhabited

/-- The checks pending at the next issue (R58, R132): whether TMASK is checked, the landing-pad tag, and the address of the
transferring instruction (none for a command). -/
structure TargetCheck where
  tmask : Bool
  lpad : Option Byte
  source : Option Word
  deriving DecidableEq, Repr, Inhabited

/-- The marks of accumulator lines (R235). -/
inductive LineMark where
  | zero | dirty | saved
  deriving DecidableEq, Repr, Inhabited

/-- An accumulator's contents: 64 lines of 16 FP32 values, their marks, the codes last written for them, and whether a physical
tile is bound (R230, R231, R234, R235). -/
structure Acc where
  bound : Bool
  lines : List Line
  marks : List LineMark
  codes : List Nat
  /-- The model's own: the move of the last use, for the choice of R231. -/
  used : Nat
  deriving DecidableEq, Repr, Inhabited

/-- An outstanding matrix instruction in its arithmetic phase (R255): the accumulators it names and what they become. -/
structure MatrixOp where
  results : List (Nat × Acc)
  deriving DecidableEq, Repr, Inhabited

/-- A spawn request (R120, R121): what TH.SPAWN asked, the register of the reply, and whether it was cancelled. -/
structure SpawnReq where
  dest : Nat
  pc : Word
  desc : Word
  hint : Word
  cancelled : Bool
  /-- The address at which the issuer goes on, and whether it is that of a back-edge (R139). -/
  next : Word
  back : Bool
  deriving DecidableEq, Repr, Inhabited

/-- A bucket split in progress in an H.REHASH unit (R304): 0 (a) pending, 1 (a) done, 2 keys read, 3 (b) done, 4 ended; a pool
shortage, or the cause and address of a key read that faulted (R305). -/
structure Split where
  stage : Nat
  usn : Nat
  bucket : Nat
  moved : List Nat
  short : Bool
  failed : Option (Cause × Word)
  deriving DecidableEq, Repr, Inhabited

/-- What a thread has outside its row. -/
structure Thread where
  id : Nat
  row : Nat
  va : Word
  exec : ExecKind
  place : Nat
  backing : Option Nat
  evicted : Bool
  ip : Word
  slot : Option Nat
  /-- Cycle counts of the executor's clock: when the row opened or its quantum renewed, when it last became READY, when its
  instruction stalled, and the last tick of a TH.WAIT. -/
  openedAt : Nat
  readyAt : Nat
  /-- Of which time of being READY, and how many ticks of it the row could not be opened for want of what R108 leaves out of its bound. -/
  withheld : Nat × Nat
  /-- The time of being READY for which a row has been closed for priority (R106). -/
  servedAt : Option Nat
  stalledAt : Nat
  tickAt : Nat
  closing : Option Nat
  check : Option TargetCheck
  stall : Option Stall
  replies : List Reply
  asked : List Nat
  /-- The model's own: how many times the thread has begun to ask anew. -/
  asks : Nat
  spawn : Option SpawnReq
  sb : List SBEntry
  oq : List OQEntry
  view : List (Nat × Nat)
  wrote : List Nat
  fbuf : List FetchLine
  /-- A line whose CRC failed once and which is read once more (R57). -/
  reread : Option Nat
  accs : List Acc
  matrix : List MatrixOp
  staged : List Line
  split : Option Split
  /-- Commands that have reached the row during a unit of H.REHASH, taken after its move (c) (R305). -/
  heldCmds : List Nat
  /-- The context whose queue entry a CE.GATH or CE.SCAT has reserved, with its descriptor and the lines of its list so far (R320). -/
  reserved : Option (Nat × List Line)
  deferred : Option Nat
  exchange : Option (Nat × Nat × Nat)
  /-- The model's own: a command that the thread's own store has posted to its row, taken at the end of that issue. -/
  ownCmd : Nat
  /-- An entry of the outside queue has been applied since the row's last issue (R76, R99). -/
  appliedSince : Bool
  /-- The issues of the row so far, and how many there had been when each entry of its outside queue came (R75). -/
  issued : Nat
  oqAt : List Nat
  /-- The unit of the executor that the instruction at issue takes, and for how many cycles (R165, R225). -/
  uses : Option (Nat × Nat)
  /-- The instruction at issue is the first of a pair issued together (R61). -/
  pairing : Bool
  /-- A pre-emption that has come during a unit of H.REHASH, and takes effect after its move (c) (R305). -/
  heldPreempt : Bool
  /-- The hub time at which the row last closed (R111). -/
  closedAt : Nat
  deriving DecidableEq, Repr, Inhabited

/-- An engine command's kind (R322). -/
inductive EngKind where
  | copy | fill | gath | scat | decLoad | decStrm | marker
  deriving DecidableEq, Repr, Inhabited

/-- A submitted command (R84, R319, R320, R325). -/
structure EngCmd where
  num : Nat
  kind : EngKind
  src : Word
  dst : Word
  n : Nat
  es : Nat
  idx : List Nat
  k : Nat
  w : Nat
  asid : Nat
  tenant : Nat
  row : Word
  unit : Nat
  privl : Nat
  taken : List Nat
  loaded : List (Nat × Line)
  lines : List (Nat × Nat)
  deriving DecidableEq, Repr, Inhabited

/-- A handback message waiting for its ring (R322). -/
structure Handback where
  num : Nat
  row : Word
  va : Word
  index : Nat
  cause : Cause
  kind : Nat
  deriving DecidableEq, Repr, Inhabited

/-- An engine context (R316, R325). -/
structure EngCtx where
  tl : Nat
  sub : Nat
  err : Bool
  halt : Bool
  haltAt : Nat
  rsz : Nat
  rbase : Nat
  handbacks : Nat
  pending : List Handback
  cq : List EngCmd
  table : List Nat
  k : Nat
  w : Nat
  wrote : List (Nat × Nat × Nat)
  deriving DecidableEq, Repr, Inhabited

/-- A context at allotment (R316, R325). -/
def EngCtx.fresh : EngCtx :=
  ⟨0, 0, false, false, 0, 0, 0, 0, [], [], List.replicate 256 0, 8, 1, []⟩

/-- The progress of a probe element between its moves (R294, R298): the depth and bucket reached, the entries and BUSN kept, and
whether the partner bucket is next. -/
structure ProbeProg where
  index : Nat
  d : Nat
  bucket : Nat
  entries : List Nat
  busn : Nat
  split : Bool
  deriving DecidableEq, Repr, Inhabited

/-- What a one-sided operation moves (R184, R298). -/
inductive OneSidedKind where
  | get | put
  | probe (h : HashCtx) (tbl : Nat) (sigs : List Nat)
  deriving DecidableEq, Repr, Inhabited

/-- A GET, PUT or H.PROBE in flight (R184, R185, R298). -/
structure OneSided where
  id : Nat
  kind : OneSidedKind
  thread : Nat
  asid : Nat
  tenant : Nat
  privl : Nat
  unit : Nat
  dst : Word
  src : Word
  idx : Option Word
  es : Nat
  n : Nat
  counter : Nat
  taken : List Nat
  failed : List (Nat × Nat)
  wrote : List (Nat × Nat)
  probes : List ProbeProg
  /-- The indices that another module has sent (R185). -/
  idxs : List (Nat × Nat)
  /-- The parts of the regions of an H.PROBE as its issue translated them (R296). -/
  region : List (Nat × Nat)
  deriving DecidableEq, Repr, Inhabited

/-- A sync object (R68, R79, R314); home 0 a tile, 1 a stack, 2 the hub, 3 a service core (log entry 85). -/
structure SyncObj where
  seq : Word
  bnd : List Nat
  pub : List (Nat × Nat)
  scope : Nat
  homeKind : Nat
  home : Nat
  deriving DecidableEq, Repr, Inhabited

/-- A sync object before its first SYN.BIND (R314). -/
def SyncObj.fresh : SyncObj := ⟨0, [], [], 3, 2, 0⟩

/-- A bound barrier domain (R68, R327 to R334, R396). -/
structure Domain where
  name : Nat
  tenant : Nat
  members : List Nat
  slots : Nat
  patterns : Nat
  width : Nat
  sched : List (Nat × Nat)
  counters : List Nat
  registered : List Bool
  votes : List (Option Nat)
  sealed : List (Option Nat)
  pattern : Nat
  patternOf : List (Nat × Nat)
  abort : Bool
  begun : List (Nat × Nat)
  regLines : List (Nat × Nat)
  buffers : List ((Nat × Nat × Nat) × Line)
  pool : Nat
  deriving DecidableEq, Repr, Inhabited

/-- A cluster queue (R335, R336). -/
structure Queue where
  cluster : Nat
  num : Nat
  tenant : Nat
  cap : Nat
  items : List Word
  deriving DecidableEq, Repr, Inhabited

/-- A TLB entry (R357): the unit (0 to 639 a cluster, 640 + s a stack), the page and its leaf (R356). -/
structure TlbEntry where
  unit : Nat
  asid : Nat
  page : Nat
  size : Nat
  leaf : Word
  deriving DecidableEq, Repr, Inhabited

/-- A translation miss (R170, R358): who waits (a thread, or none for an element or prefetch), and its stage: 0 missed, 1 posted,
2 joined to a walk, 3 answered that there is no mapping. -/
structure Miss where
  id : Nat
  thread : Option Nat
  row : Word
  unit : Nat
  asid : Nat
  tenant : Nat
  privl : Nat
  kind : Nat
  va : Word
  stage : Nat
  /-- The ranges of the invalidations that have come since its walk began (R358). -/
  cuts : List (Nat × Nat)
  prefetch : Bool
  deriving DecidableEq, Repr, Inhabited

/-- An invalidation in flight (R359): the ASIDs, the range, the counter, the issuer and the units yet to acknowledge. -/
structure Invalidation where
  id : Nat
  tenant : Nat
  asids : List Nat
  start : Nat
  len : Nat
  counter : Nat
  waiting : List Nat
  /-- The device-physical ranges that the entries removed had mapped. -/
  frames : List (Nat × Nat)
  /-- The TLB entries removed. -/
  entries : List TlbEntry
  sent : Nat
  deriving DecidableEq, Repr, Inhabited

/-- A bank window register in use (R395), most recently used first. -/
structure BankWindow where
  bank : Nat
  asid : Nat
  vpage : Nat
  ppage : Nat
  leaf : Word
  tenant : Nat
  deriving DecidableEq, Repr, Inhabited

/-- The state of a row buffer (R259): the row is the number within the subarray of the row it holds (R273). -/
inductive BufState where
  | free
  | thread (row : Nat)
  | opened (row : Nat)
  | held (row : Nat) (thread : Nat)
  deriving DecidableEq, Repr, Inhabited

/-- A subarray (R259, R261, R268): its buffer, whether a refresh has closed its row and will activate it again, and the claims
waiting in arrival order (a thread's identifier plus 1, or 0 for another party), each with the cycle count when it came. -/
structure Subarray where
  sub : Nat
  buf : BufState
  refreshing : Bool
  claims : List (Nat × Nat)
  deriving DecidableEq, Repr, Inhabited

/-- A shadow of a row in a transactional group (R277): reserved, and its bytes once copied. -/
structure Shadow where
  thread : Nat
  row : Nat
  copied : Bool
  lines : List Line
  deriving DecidableEq, Repr, Inhabited

/-- A walk request (R251): the requesting thread, the walker row, the entry fields, and its outcome. -/
structure WalkReq where
  thread : Nat
  wrow : Nat
  data : Word
  entry : Word
  tya : ElemType
  wpc : Word
  deriving DecidableEq, Repr, Inhabited

/-- How a walk ended (R252, R253). -/
inductive WalkEnd where
  | rows (r : List (Nat × Nat × List Byte))
  | fault (c : Cause)
  deriving DecidableEq, Repr, Inhabited

/-- A cluster's Skink walker (R251 to R253): the current walk with the rows emitted (row, presence mask, bytes) and the issues
made, the queued requests, and the ends not yet taken by their requesters. -/
structure Skink where
  cluster : Nat
  cur : Option WalkReq
  emitted : List (Nat × Nat × List Byte)
  issues : Nat
  queue : List WalkReq
  ends : List (Nat × WalkEnd)
  heldCommands : List (Nat × Nat)
  deriving DecidableEq, Repr, Inhabited

/-- A DPIT entry (R364), its states and locations. -/
inductive DpitState where
  | home | far | moving | dup | revert
  deriving DecidableEq, Repr, Inhabited

/-- A location of a page: a frame of a stack, or a far-tier page (R364). -/
inductive PageLoc where
  | frame (stack frame : Nat)
  | far (fpn : Nat)
  deriving DecidableEq, Repr, Inhabited

/-- The DPIT entry of a page (R364). -/
structure Dpit where
  page : Nat
  st : DpitState
  loc1 : PageLoc
  loc2 : PageLoc
  pin : Bool
  /-- The parties whose accesses wait at the entry, in arrival order (R365). -/
  waiting : List Nat
  deriving DecidableEq, Repr, Inhabited

/-- An island's registers and limits (R29, R30, R39): what it transitions to, and what the draining left to do. -/
structure Island where
  req : Nat
  st : Nat
  done : Bool
  refuse : Nat
  fcap : Nat
  fnow : Nat
  limit : Nat
  pavg : Nat
  temp : BitVec 16
  thr : Nat
  /-- The cycles of its clock so far, in thousandths. -/
  ticks : Nat
  deriving DecidableEq, Repr, Inhabited

/-- The boot state (R22 to R28). -/
structure Boot where
  powered : Bool
  stage : Nat
  err : Nat
  recov : Bool
  rollback : BitVec 16
  flash : List FwImage
  supplied : Option FwImage
  verified : List (BitVec 16)
  memoryActive : Bool
  fatalPin : Bool
  thermTrip : Bool
  deriving DecidableEq, Repr, Inhabited

/-- The package power controller (R35 to R40): THR bits, the step state, intervals spent below 95 percent, dies in thermal limit. -/
structure Power where
  pnow : Nat
  plim : Nat
  thr : Nat
  lowIntervals : Nat
  hotDies : List Nat
  deriving DecidableEq, Repr, Inhabited

/-- A stack's control registers and its regulator (R269 to R275, R283). -/
structure StackRegs where
  lim : Nat
  step : Nat
  fast : Bool
  grants : List (Nat × Nat)
  waiting : List Nat
  lim1 : Nat
  lim2 : Nat
  resets : Nat
  staged : List Nat
  active : List Nat
  refuse : Nat
  done : Bool
  applying : Bool
  /-- The hub time of the last accepted APPLY (R275). -/
  appliedAt : Nat
  deriving DecidableEq, Repr, Inhabited

/-- A routine table entry (R355). -/
structure Routine where
  status : Nat
  bound : Nat
  bodyLines : List Line
  deriving DecidableEq, Repr, Inhabited

/-- A tenant (R18, R353, R367). -/
structure Tenant where
  num : Nat
  asidFirst : Nat
  asidCount : Nat
  vecFirst : Nat
  vecCount : Nat
  keyFirst : Nat
  keyCount : Nat
  engagement : Word
  ptroot : List (Nat × Word)
  windows : List (Nat × Word × Word)
  mbox : Word
  svcrow : Word
  aper : Word
  pasid : Word
  lqb : Word
  lqSeq : Nat
  lqTaken : Nat
  lqp : Word
  hring : Word
  vlog : Word
  vlogn : Nat
  wacnt : List (Nat × Word)
  allot : Word
  doma : List (Nat × Word)
  rtabb : List (Nat × Word)
  routines : List (Nat × Routine)
  faultSeq : Nat
  logDropped : Nat
  lastLogUs : Option Nat
  mboxNext : Nat
  hringNext : Nat
  posts : List (Line × Nat)
  lastViolation : Option (Nat × Nat × Nat × Nat × Nat × Nat)
  /-- The launch slots behind the expected sequence that have been logged, each with its word 0 (R368). -/
  staleLaunch : List (Nat × Word)
  /-- The DRAM rows of the backing pool that back no row (R111). -/
  backing : List Nat
  deriving DecidableEq, Repr, Inhabited

/-- A device-log record (R370, R354 and the events the chapters log): a kind of the model's, the hub time, and its content. -/
inductive LogKind where
  | violation | faultMessage | handback | sysLog | reservedWrite | partialCommand | fetchReread | boot | reset | launch
  | farTier | host
  deriving DecidableEq, Repr, Inhabited

/-- A record of the device log. -/
structure LogRec where
  kind : LogKind
  time : Nat
  body : List Word
  deriving DecidableEq, Repr, Inhabited

/-- A scrub in progress (R371). -/
structure Scrub where
  tenant : Nat
  area : Nat
  startTime : Nat
  tileRows : Nat
  dramRows : Nat
  accTiles : Nat
  poolEntries : Nat
  windows : List (Nat × Word × Word)
  deriving DecidableEq, Repr, Inhabited

/-- The states of an Axxel port (R376, R377); down before training and after a loss. -/
inductive PortState where
  | down | normal | drain | narrow | repair | degraded
  deriving DecidableEq, Repr, Inhabited

/-- An Axxel port (R375 to R377): the next numbers to send and expected, the hub time of the last progress of ACK, the replay buffer,
the flits put on the link, and those that wait for the port. -/
structure Port where
  num : Nat
  st : PortState
  badLane : Bool
  nextSend : Nat
  expect : Nat
  progressAt : Nat
  replay : List Flit
  sent : List (List Byte)
  waiting : List Flit
  partialMsg : List Flit
  crcErrors : Nat
  /-- The hub times of the last failures of a lane check (R377). -/
  laneFails : List Nat
  /-- The port on which a message that is passed on goes out: that of its first flit (R375). -/
  through : Option Nat
  deriving DecidableEq, Repr, Inhabited

/-- What a remote request carries (R379). -/
inductive RemoteKind where
  | load (src : Asker) (n : Nat)
  | store (thread : Nat)
  | atomic (src : Asker) (op : AtomOp) (n : Nat) (v w : Word)
  | element (op index : Nat)
  | index (op index : Nat)
  | command (ctx index : Nat)
  deriving DecidableEq, Repr, Inhabited

/-- A remote request in flight (R379): its tag, the module and port it went to, and the virtual address. -/
structure Remote where
  tag : Nat
  port : Nat
  modId : Nat
  va : Word
  kind : RemoteKind
  bytes : List Byte
  deriving DecidableEq, Repr, Inhabited

/-- The kept state of a power-gated tile island (R32): rows stay at their addresses in the model, so the image is the set of
dies whose tile memory is served from it. -/
structure Gate where
  die : Nat
  pages : List Nat
  deriving DecidableEq, Repr, Inhabited

/-- What the mailbox last returned to the host (R25, R26, R374). -/
inductive MailReply where
  | none | busy | success | refused
  | words (w : List Word)
  | bytes (b : List Byte)
  | records (r : List LogRec)
  deriving DecidableEq, Repr, Inhabited

/-- What a row can be owed within a bound (R104, R108). -/
inductive DueKind where
  | wake | open_ | issue | reload
  deriving DecidableEq, Repr, Inhabited

/-- The model's own: what a row is owed, and the tick count of its executor when that was first seen, or the hub time for a reload. -/
structure Due where
  thread : Nat
  kind : DueKind
  key : Nat
  since : Nat
  deriving DecidableEq, Repr, Inhabited

/-- A unit of an executor that takes no instruction for a time (R165, R225): the divider 0, the vector unit 1, of the executor of a
kind and place, and the tick count of its island at which it is free. -/
structure UnitBusy where
  kind : Nat
  exec : ExecKind
  place : Nat
  freeAt : Nat
  deriving DecidableEq, Repr, Inhabited

/-- A line access of a command or an element that has been translated and has not taken its move (R360): what it is of, the number of
the command or 0, the unit and ASID of its owner, the virtual ranges translated, and the parts of its source and destination. -/
structure Flight where
  acc : AccessId
  num : Nat
  unit : Nat
  asid : Nat
  ranges : List (Nat × Nat)
  src : List (Nat × Nat)
  dst : List (Nat × Nat)
  /-- The other module that the destination lies in, with its virtual address there (R185, R321). -/
  away : Option (Nat × Word)
  deriving DecidableEq, Repr, Inhabited

/-- What the tracker has seen of a page in the present period (R365): the stacks that have read it, and whether it was written. -/
structure PageUse where
  page : Nat
  readers : List Nat
  wrote : Bool
  deriving DecidableEq, Repr, Inhabited

/-- A write of the hub to memory whose row it cannot reach yet (R259, R261). -/
structure HubWrite where
  dp : Nat
  bytes : List Byte
  mark : StoreMark
  deriving DecidableEq, Repr, Inhabited

/-- A record for the log ring of a tenant whose slot the hub cannot walk to yet (R259, R370, R394): the tenant, the virtual address and the bytes. -/
structure RingWrite where
  tenant : Nat
  va : Nat
  bytes : List Byte
  deriving DecidableEq, Repr, Inhabited

/-- The whole module. -/
structure State where
  /-- The model's own: the moves to be made next (log entry 1). -/
  agenda : List Move
  /-- The model's own: counts the moves, and names the free value each one takes. -/
  fresh : Nat
  /-- The model's own: the thread at issue. -/
  cur : Option Nat
  /-- The model's own: the operands of the event being taken. -/
  inp : EventIn
  /-- The model's own: lines that have taken their version in the present move (R67). -/
  touched : List Nat
  /-- Hub time in ns (R354, R370). -/
  now : Nat
  mem : Memory
  hist : List LineHist
  commits : Nat
  gran : List (Nat × Gran)
  tags : List (Nat × RowTag)
  bad : List Nat
  threads : List Thread
  nextId : Nat
  shadows : List Shadow
  ctxs : List (Nat × EngCtx)
  oneSided : List OneSided
  counted : List (Nat × Nat × Nat)
  parts : List HashPart
  applied : List (Nat × Nat × Nat × Nat)
  syncs : List ((Nat × Nat) × SyncObj)
  domains : List Domain
  queues : List Queue
  tlbs : List TlbEntry
  misses : List Miss
  invs : List Invalidation
  bankWins : List BankWindow
  subs : List Subarray
  skinks : List Skink
  dpit : List Dpit
  trackerPool : List (Nat × Nat)
  islands : List Island
  boot : Boot
  power : Power
  stackRegs : List StackRegs
  tenants : List Tenant
  acl : List (Nat × Word)
  route : List (Nat × Word)
  clhalt : List Nat
  modid : Word
  keys : List (Nat × BitVec 512)
  farb : Word
  fars : Word
  log : List LogRec
  msix : List (Nat × Nat)
  posted : List (Nat × List (Nat × Nat))
  scrub : Option Scrub
  receipts : List (Nat × List Byte)
  receiptCount : Nat
  ports : List Port
  remotes : List Remote
  gates : List Gate
  mailbox : MailReply
  hostData : List (List Byte × Bool)
  secured : Bool
  units : List UnitBusy
  flights : List Flight
  pageUse : List PageUse
  /-- The hub time of the tracker's last period (R365). -/
  trackerAt : Nat
  hubWrites : List HubWrite
  ringWrites : List RingWrite
  /-- The miss messages in the mailboxes of the translation services, each with its unit (R170). -/
  missMail : List (Nat × List Word)
  /-- The model's own: what the rows are owed (R104, R108). -/
  dues : List Due
  /-- What the SMBus sideband has answered (R21). -/
  sideband : List Word
  /-- The rows that the row allocator has to place rows in (R110). -/
  freeRows : List Nat
  deriving DecidableEq, Repr

/-- An island before boot (R29): PGATED, at no frequency, its limit at its nominal clock. -/
def Island.reset (n : Nat) : Island :=
  let nominal := if n < 16 then 3600 else if n < 24 then 1200 else if n < 30 then 0 else 2000
  if n = 28 then ⟨0, 0, false, 0, 0, Config.hubClock.toNat, nominal, 0, 0, 0, 0⟩
  else ⟨0, 2, false, 0, 0, 0, nominal, 0, 0, 0, 0⟩

/-- The default mask of L bit j (R274). -/
def defaultMask (j : Nat) : Nat :=
  if j < 2 then 2 ^ j else if j < 6 then 2 ^ (j + 4) else if j < 10 then 2 ^ (j - 4) else 2 ^ j

/-- A stack's registers at reset (R269, R274, R283). -/
def StackRegs.reset : StackRegs :=
  { lim := 0x1800, step := 0, fast := false, grants := [], waiting := [], lim1 := 0x10000, lim2 := 0x4000, resets := 0
    staged := (List.range 25).map defaultMask, active := (List.range 25).map defaultMask
    refuse := 0, done := false, applying := false, appliedAt := 0 }

/-- Tenant 0, which is device firmware's: nothing is allotted to it by a command (log entry 6). -/
def Tenant.firmware : Tenant :=
  { num := 0, asidFirst := 0, asidCount := 0, vecFirst := 0, vecCount := 0, keyFirst := 0, keyCount := 0, engagement := 0
    ptroot := [], windows := [], mbox := 0, svcrow := 0, aper := 0, pasid := 0, lqb := 0, lqSeq := 0, lqTaken := 0, lqp := 0
    hring := 0, vlog := 0, vlogn := 0, wacnt := [], allot := 0, doma := [], rtabb := [], routines := []
    faultSeq := 0, logDropped := 0, lastLogUs := none, mboxNext := 0, hringNext := 0, posts := [], lastViolation := none
    staleLaunch := [], backing := [] }

/-- A port before its quadrant comes up (log entry 6). -/
def Port.reset (n : Nat) : Port := ⟨n, .down, false, 0, 0, 0, [], [], [], [], 0, [], none⟩

/-- The boot state at stage 0 (R22, R28). -/
def Boot.reset : Boot :=
  { powered := true, stage := 0, err := 0, recov := false, rollback := Config.fusedRollback
    flash := (List.range 5).map Config.flashImage, supplied := none, verified := []
    memoryActive := false, fatalPin := false, thermTrip := false }

/-- The module right after reset: stage 0, island 28 up and every other island power-gated (R22, R28, R29). -/
def State.reset : State :=
  { agenda := [], fresh := 0, cur := none, inp := .none, touched := [], now := 0
    mem := [], hist := [], commits := 0, gran := [], tags := [], bad := []
    threads := [], nextId := 0, shadows := [], ctxs := [], oneSided := [], counted := [], parts := [], applied := []
    syncs := [], domains := [], queues := [], tlbs := [], misses := [], invs := [], bankWins := []
    subs := [], skinks := [], dpit := [], trackerPool := []
    islands := (List.range 32).map Island.reset
    boot := Boot.reset
    power := { pnow := 0, plim := 4800, thr := 0, lowIntervals := 0, hotDies := [] }
    stackRegs := List.replicate 24 StackRegs.reset
    tenants := [Tenant.firmware], acl := [], route := [], clhalt := [], modid := 0, keys := [], farb := 0, fars := 0
    log := [], msix := [], posted := [], scrub := none, receipts := [], receiptCount := 0
    ports := (List.range 128).map Port.reset, remotes := [], gates := [], mailbox := .none, hostData := [], secured := false
    units := [], flights := [], pageUse := [], trackerAt := 0, hubWrites := [], ringWrites := [], missMail := [], dues := [], sideband := [], freeRows := [] }

end Sys2Proof.Machine
end

