-- ==== Sys2Proof/Machine/Memory.lean ====
section
/-!
DEFINITION. Reading and writing memory bytes in the canonical form, little-endian values over bytes (R1), bit fields of
words, and ordered association lists.
-/
namespace Sys2Proof.Machine

/-- The byte at an address. -/
def Memory.get : Memory → Nat → Byte
  | [], _ => Memory.unlisted
  | c :: m, a => if c.1 = a then c.2 else Memory.get m a

/-- The cells below an address. -/
def Memory.below : Memory → Nat → Memory
  | [], _ => []
  | c :: m, a => if c.1 < a then c :: Memory.below m a else []

/-- The cells from an address on. -/
def Memory.since : Memory → Nat → Memory
  | [], _ => []
  | c :: m, a => if c.1 < a then Memory.since m a else c :: m

/-- The n bytes from an address. -/
def Memory.bytes (m : Memory) (a : Nat) : Nat → List Byte
  | 0 => []
  | n + 1 =>
    let r := m.since a
    (match r with
     | [] => Memory.unlisted
     | c :: _ => if c.1 = a then c.2 else Memory.unlisted) :: Memory.bytes r (a + 1) n

/-- Bytes from an address as cells: one equal to what an unlisted address reads as is not kept. -/
def Memory.cells (a : Nat) : List Byte → Memory
  | [] => []
  | b :: bs => if b = Memory.unlisted then Memory.cells (a + 1) bs else (a, b) :: Memory.cells (a + 1) bs

/-- A memory with bytes written from an address. -/
def Memory.setBytes (m : Memory) (a : Nat) (bs : List Byte) : Memory :=
  m.below a ++ (Memory.cells a bs ++ m.since (a + bs.length))

/-- The little-endian value of bytes (R1). -/
def leNat : List Byte → Nat
  | [] => 0
  | b :: bs => b.toNat + 256 * leNat bs

/-- The n low bytes of a value, least significant first (R1). -/
def leBytes : Nat → Nat → List Byte
  | 0, _ => []
  | n + 1, v => BitVec.ofNat 8 v :: leBytes n (v / 256)

/-- The little-endian word of bytes. -/
def leWord (bs : List Byte) : Word := .ofNat 64 (leNat bs)

/-- The line of bytes, byte 0 in bits 7..0. -/
def leLine (bs : List Byte) : Line := .ofNat 512 (leNat bs)

/-- The eight bytes of a word. -/
def wordBytes (w : Word) : List Byte := leBytes 8 w.toNat

/-- The 64 bytes of a line. -/
def lineToBytes (l : Line) : List Byte := leBytes 64 l.toNat

/-- Bits lo + k - 1 .. lo of a word. -/
def field (w : Word) (lo k : Nat) : Nat := bitsAt w.toNat lo k

/-- A number with k bits at lo replaced. -/
def putBits (n lo k v : Nat) : Nat := n - bitsAt n lo k * 2 ^ lo + v % 2 ^ k * 2 ^ lo

/-- A word with k bits at lo replaced. -/
def setField (w : Word) (lo k v : Nat) : Word := .ofNat 64 (putBits w.toNat lo k v)

/-- The two's-complement value of the k low bits of n. -/
def signed (k n : Nat) : Int := if n % 2 ^ k < 2 ^ (k - 1) then (n % 2 ^ k : Nat) else (n % 2 ^ k : Nat) - (2 ^ k : Nat)

/-- An address a number of bytes on, modulo 2^64. -/
def wordAdd (a : Word) (n : Nat) : Word := a + BitVec.ofNat 64 n

/-- The 64-bit word of an integer, modulo 2^64. -/
def wordOfInt (z : Int) : Word := .ofInt 64 z

/-- The value a key has in an association list. -/
def assoc {β : Type} : List (Nat × β) → Nat → Option β
  | [], _ => none
  | p :: l, k => if p.1 = k then some p.2 else assoc l k

/-- An association list with a key set, keys kept rising. -/
def assocSet {β : Type} : List (Nat × β) → Nat → β → List (Nat × β)
  | [], k, v => [(k, v)]
  | p :: l, k, v =>
    if k < p.1 then (k, v) :: p :: l else if k = p.1 then (k, v) :: l else p :: assocSet l k v

/-- An association list without a key. -/
def assocDel {β : Type} (l : List (Nat × β)) (k : Nat) : List (Nat × β) := l.filter (·.1 != k)

/-- A list with one position replaced. -/
def setAt {α : Type} : List α → Nat → α → List α
  | [], _, _ => []
  | _ :: l, 0, y => y :: l
  | x :: l, n + 1, y => x :: setAt l n y

/-- The granules that n bytes from a cover. -/
def granules (a n : Nat) : List Nat :=
  if n = 0 then [] else
  (List.range ((a + n - 1) / granBytes - a / granBytes + 1)).map fun i => (a / granBytes + i) * granBytes

/-- The lines that n bytes from a touch. -/
def linesOf (a n : Nat) : List Nat :=
  if n = 0 then [] else
  (List.range ((a + n - 1) / lineBytes - a / lineBytes + 1)).map fun i => (a / lineBytes + i) * lineBytes

/-- The parts of an access of n bytes that lie in one line each, in rising order: address and length (R67). -/
def lineParts (a n : Nat) : List (Nat × Nat) :=
  (linesOf a n).map fun l => (max a l, min (a + n) (l + lineBytes) - max a l)

end Sys2Proof.Machine
end

