-- ==== Sys2Proof/Machine/Num.lean ====
section
/-!
DEFINITION. Number formats (R198 to R200), exact real arithmetic with the special values of R202, and the one rounding of R203.
-/
namespace Sys2Proof.Machine

/-- The floating formats (R198). -/
inductive FloatFmt where
  | f32 | bf16 | e4m3 | e5m2 | e2m1
  deriving DecidableEq, Repr

namespace FloatFmt

/-- Mantissa bits (R198). -/
def mant : FloatFmt → Nat
  | .f32 => 23 | .bf16 => 7 | .e4m3 => 3 | .e5m2 => 2 | .e2m1 => 1

/-- Exponent bits (R198). -/
def ebits : FloatFmt → Nat
  | .f32 => 8 | .bf16 => 8 | .e4m3 => 4 | .e5m2 => 5 | .e2m1 => 2

/-- Exponent bias (R198). -/
def bias : FloatFmt → Nat
  | .f32 => 127 | .bf16 => 127 | .e4m3 => 7 | .e5m2 => 15 | .e2m1 => 1

/-- The format has infinities (R198). -/
def hasInf : FloatFmt → Bool
  | .f32 | .bf16 | .e5m2 => true
  | _ => false

/-- The canonical NaN (R202); E2M1 has none, and nothing asks for it. -/
def nan : FloatFmt → Nat
  | .f32 => 0x7FC00000 | .bf16 => 0x7FC0 | .e4m3 => 0x7F | .e5m2 => 0x7E | .e2m1 => 0

/-- The code of the largest finite value (R198). -/
def maxCode : FloatFmt → Nat
  | .f32 => 0x7F7FFFFF | .bf16 => 0x7F7F | .e4m3 => 0x7E | .e5m2 => 0x7B | .e2m1 => 0x7

/-- The exponent of the smallest subnormal (R198). -/
def emin (f : FloatFmt) : Int := 1 - (f.bias : Int) - (f.mant : Int)

/-- The sign bit's weight. -/
def signBit (f : FloatFmt) : Nat := 2 ^ (f.mant + f.ebits)

end FloatFmt

/-- The floating format of an element type. -/
def ElemFloat : ElemType → Option FloatFmt
  | .f32 => some .f32 | .bf16 => some .bf16 | .e4m3 => some .e4m3 | .e5m2 => some .e5m2 | .e2m1 => some .e2m1
  | _ => none

/-- An extended real: NaN, an infinity, or the exact number m × 2^e with its sign; a zero keeps its sign. -/
inductive Rl where
  | nan
  | inf (neg : Bool)
  | fin (neg : Bool) (m : Nat) (e : Int)
  deriving DecidableEq, Repr, Inhabited

/-- The rounding modes (R203). -/
inductive RMode where
  | rne | rtz | rdn | rup
  deriving DecidableEq, Repr

namespace Rl

/-- The integer n. -/
def ofInt (n : Int) : Rl := .fin (decide (n < 0)) n.natAbs 0

/-- The value a code has in a format (R198). -/
def decode (f : FloatFmt) (c : Nat) : Rl :=
  let neg := bitsAt c (f.mant + f.ebits) 1 == 1
  let x := bitsAt c f.mant f.ebits
  let m := bitsAt c 0 f.mant
  if f.hasInf ∧ x = 2 ^ f.ebits - 1 then (if m = 0 then .inf neg else .nan)
  else if f = .e4m3 ∧ x = 15 ∧ m = 7 then .nan
  else if x = 0 then .fin neg m f.emin
  else .fin neg (2 ^ f.mant + m) (f.emin + (x : Int) - 1)

/-- The number is zero. -/
def isZero : Rl → Bool
  | .fin _ 0 _ => true
  | _ => false

/-- Not a number. -/
def isNan : Rl → Bool
  | .nan => true
  | _ => false

/-- The sign. -/
def neg? : Rl → Bool
  | .nan => false
  | .inf n => n
  | .fin n _ _ => n

/-- The signed integer a finite number is at an exponent not above its own. -/
def scaled (neg : Bool) (m : Nat) (e e0 : Int) : Int :=
  let v : Int := (m * 2 ^ (e - e0).toNat : Nat)
  if neg then -v else v

/-- The negation. -/
def negate : Rl → Rl
  | .nan => .nan
  | .inf n => .inf (!n)
  | .fin n m e => .fin (!n) m e

/-- The sum (R202): NaN from infinities of both signs; an exact zero is +0 unless every term is −0. -/
def add : Rl → Rl → Rl
  | .nan, _ => .nan
  | _, .nan => .nan
  | .inf a, .inf b => if a = b then .inf a else .nan
  | .inf a, _ => .inf a
  | _, .inf b => .inf b
  | .fin a m e, .fin b n k =>
    let e0 := min e k
    let v := scaled a m e e0 + scaled b n k e0
    if v = 0 then .fin (a && b && m == 0 && n == 0) 0 e0
    else .fin (decide (v < 0)) v.natAbs e0

/-- The product (R202): NaN from zero times infinity; a zero carries the exclusive-or of the signs,
also where the factors are INT8 values and 0 meets a negative one (DEDUCED, log entry 111). -/
def mul : Rl → Rl → Rl
  | .nan, _ => .nan
  | _, .nan => .nan
  | .inf a, y => if y.isZero then .nan else .inf (a != y.neg?)
  | x, .inf b => if x.isZero then .nan else .inf (x.neg? != b)
  | .fin a m e, .fin b n k => .fin (a != b) (m * n) (e + k)

/-- The sum of a list, +0 for none. -/
def sum : List Rl → Rl
  | [] => .fin false 0 0
  | x :: xs => xs.foldl add x

/-- The value times 2^k. -/
def scale (x : Rl) (k : Int) : Rl :=
  match x with
  | .fin n m e => .fin n m (e + k)
  | x => x

/-- x < y as numbers; false when either is NaN. -/
def lt : Rl → Rl → Bool
  | .nan, _ => false
  | _, .nan => false
  | .inf a, .inf b => a && !b
  | .inf a, _ => a
  | _, .inf b => !b
  | .fin a m e, .fin b n k => let e0 := min e k; decide (scaled a m e e0 < scaled b n k e0)

/-- x = y as numbers (zeros are equal); false when either is NaN. -/
def eq (x y : Rl) : Bool := !x.isNan && !y.isNan && !x.lt y && !y.lt x

/-- The integer quotient of m × 2^e by a mode, e possibly negative (R203). -/
def roundInt (neg : Bool) (m : Nat) (e : Int) (mode : RMode) : Nat :=
  if 0 ≤ e then m * 2 ^ e.toNat else
    let d := 2 ^ (-e).toNat
    let q := m / d
    let r := m % d
    let up : Bool := match mode with
      | .rne => decide (d < 2 * r) || (decide (2 * r = d) && q % 2 == 1)
      | .rtz => false
      | .rdn => neg && r != 0
      | .rup => !neg && r != 0
    if up then q + 1 else q

/-- The mode rounds away from zero past the largest finite value (R203). -/
def overflows (neg : Bool) : RMode → Bool
  | .rne => true
  | .rtz => false
  | .rdn => neg
  | .rup => !neg

/-- RoundTo (R203): the code of the rounded value in a format. -/
def roundTo (x : Rl) (f : FloatFmt) (mode : RMode) (sat : Bool) : Nat :=
  match x with
  | .nan => f.nan
  | .inf neg =>
    let s := if neg then f.signBit else 0
    if sat then f.maxCode + s
    else if f.hasInf then (f.maxCode + 1) + s
    else f.nan
  | .fin neg m e =>
    let s := if neg then f.signBit else 0
    if m = 0 then s else
      let q := max (e + (Nat.log2 m : Int) - (f.mant : Int)) f.emin
      let code := (q - f.emin).toNat * 2 ^ f.mant + roundInt neg m (e - q) mode
      if code ≤ f.maxCode then code + s
      else if sat then f.maxCode + s
      else if overflows neg mode then (if f.hasInf then f.maxCode + 1 + s else f.nan)
      else f.maxCode + s

/-- RoundRNE (R203). -/
def rne (x : Rl) (f : FloatFmt) : Nat := x.roundTo f .rne false

/-- The larger (R202): NaN when either is NaN, and +0 above −0. -/
def max (x y : Rl) : Rl :=
  if x.isNan || y.isNan then .nan
  else if x.lt y then y
  else if y.lt x then x
  else if x.neg? then y else x

/-- The smaller: NaN when either is NaN, and −0 below +0. -/
def min (x y : Rl) : Rl :=
  if x.isNan || y.isNan then .nan
  else if x.lt y then x
  else if y.lt x then y
  else if x.neg? then x else y

end Rl

/-- The value an element's bits have: an integer type is two's complement (R198). -/
def elemValue (t : ElemType) (c : Nat) : Rl :=
  match ElemFloat t with
  | some f => .decode f c
  | none => .ofInt (signed t.width c)

/-- The FP32 value of 32 bits. -/
def f32 (c : Nat) : Rl := .decode .f32 c

end Sys2Proof.Machine
end

