-- ==== Sys2Proof/Machine/Rows.lean ====
section
/-!
DEFINITION. The module seen as rows: the address map (R363), the address hash (R273), versions and views (R67, R68, R74),
granules and tags (R86, R90), the layout of a thread row (R89, R91), registers as bytes of the row (R16, R69).
-/
namespace Sys2Proof.Machine

namespace State

/-- The thread of an identifier. -/
def thread? (s : State) (id : Nat) : Option Thread := s.threads.find? (·.id == id)

/-- The thread whose row's bytes lie at a row address. -/
def threadAt? (s : State) (row : Nat) : Option Thread := s.threads.find? (·.row == row)

/-- The state with one thread's record replaced. -/
def setThread (s : State) (th : Thread) : State :=
  { s with threads := s.threads.map fun u => if u.id = th.id then th else u }

/-- The state with one thread's record changed. -/
def updThread (s : State) (id : Nat) (f : Thread → Thread) : State :=
  { s with threads := s.threads.map fun u => if u.id = id then f u else u }

/-- A record of the device log (R370, R354). -/
def logRec (s : State) (k : LogKind) (body : List Word) : State := { s with log := s.log ++ [⟨k, s.now, body⟩] }

/-- The tenant of a number, live or not. -/
def tenant? (s : State) (n : Nat) : Option Tenant := s.tenants.find? (·.num == n)

/-- The state with one tenant's record replaced. -/
def setTenant (s : State) (t : Tenant) : State :=
  { s with tenants := s.tenants.map fun u => if u.num = t.num then t else u }

/-- MSI-X vector v of a tenant is raised (R367); a tenant that is not live has no vector. -/
def raise (s : State) (tenant v : Nat) : State :=
  match s.tenant? tenant with
  | none => s
  | some t => { s with msix := s.msix ++ [(tenant, t.vecFirst + v)] }

end State

/-- Where an address lies (R363). -/
inductive Region where
  | dram
  | tile (t : Nat)
  | far (offset : Nat)
  | control
  | core
  | hole
  deriving DecidableEq, Repr

/-- The map of device-physical addresses (R363); the private memory of the service cores has keys from 2^48. -/
def State.region (s : State) (a : Nat) : Region :=
  if a < 0x018000000000 then .dram
  else if 0x400000000000 ≤ a ∧ a < 0x400000000000 + 0x20000 * 40960 ∧ (a - 0x400000000000) % 0x20000 < 0x18000 then
    .tile ((a - 0x400000000000) / 0x20000)
  else if 0x800000000000 ≤ a ∧ a < 0xF00000000000 ∧ a - 0x800000000000 < s.fars.toNat then .far (a - 0x800000000000)
  else if 0xF00000000000 ≤ a ∧ a < 0x1000000000000 then .control
  else if 0x1000000000000 ≤ a then .core
  else .hole

/-- The device-physical address of row r of tile t (R363). -/
def tileRow (t r : Nat) : Nat := 0x400000000000 + 0x20000 * t + rowBytes * r

/-- The address lies in tile memory. -/
def State.inTile (s : State) (a : Nat) : Bool :=
  match s.region a with
  | .tile _ => true
  | _ => false

/-- The handle address of a PLACED row (R110). -/
def handleAddr (h : Nat) : Nat := 0xF10000000000 + h * 0x800

/-- Where a row lies in the stacks (R273). -/
structure BankLoc where
  stack : Nat
  exec : Nat
  sub : Nat
  rown : Nat
  pch : Nat
  deriving DecidableEq, Repr

/-- The parity of a number's bits. -/
def parity (n : Nat) : Nat := (List.range 64).foldl (fun p i => (p + n / 2 ^ i) % 2) 0

/-- The DPIT entry of a page as boot leaves it (R364): at the frame of its own number. -/
def Dpit.identity (page : Nat) : Dpit := ⟨page, .home, .frame (page / 2 ^ 20) (page % 2 ^ 20), .frame 0 0, false, []⟩

/-- The DPIT entry of a page (R364); boot sets page p to HOME on stack p div 2^20, frame p mod 2^20. -/
def State.dpitOf (s : State) (page : Nat) : Dpit :=
  match s.dpit.find? (·.page == page) with
  | some d => d
  | none => .identity page

/-- The location that the active masks of a stack give for a row-in-stack number (R273). -/
def State.hashRow (s : State) (stack m : Nat) : Nat :=
  match s.stackRegs[stack]? with
  | none => m
  | some r => (List.range 25).foldl (fun l j => l + parity (m &&& r.active.getD j 0) * 2 ^ j) 0

/-- Where an address of a page lies when the page stands at a location (R273): none in the far tier. -/
def State.locateIn (s : State) (loc : PageLoc) (a : Nat) : Option BankLoc :=
  match loc with
  | .far _ => none
  | .frame st f =>
    let l := s.hashRow st ((f * pageBytes + a % pageBytes) / rowBytes)
    let pch := bitsAt l 0 6
    some ⟨st, st * 16384 + pch * 256 + bitsAt l 6 4 * 16 + bitsAt l 10 4, bitsAt l 14 3, bitsAt l 17 8, pch⟩

/-- Where a device-physical DRAM address resolves (R273): none in the far tier. -/
def State.locate (s : State) (a : Nat) : Option BankLoc :=
  match s.region a with
  | .dram => s.locateIn (s.dpitOf (a / pageBytes)).loc1 a
  | _ => none

/-- Where a read of a party on a stack is served (R365): of a duplicated page, the copy on the reader's stack. -/
def State.locateRead (s : State) (stack : Option Nat) (a : Nat) : Option BankLoc :=
  match s.region a with
  | .dram =>
    let d := s.dpitOf (a / pageBytes)
    match d.st, d.loc2 with
    | .dup, .frame st _ => s.locateIn (if stack = some st then d.loc2 else d.loc1) a
    | _, _ => s.locateIn d.loc1 a
  | _ => none

/-- The number of a subarray over the module. -/
def BankLoc.subId (l : BankLoc) : Nat := l.exec * 8 + l.sub

namespace State

/-- The newest version's number of a line. -/
def verOf (s : State) (line : Nat) : Nat :=
  match s.hist.find? (·.line == line) with
  | some h => h.cur
  | none => 0

/-- M's newest version of every line: the view of a new thread (DEDUCED, log entry 16). -/
def newestView (s : State) : List (Nat × Nat) := s.hist.map fun h => (h.line, h.cur)

/-- A line takes a new version, made by a commit or (0) by any other move; a move makes one version of a line (R67, R70). -/
def newVersion (s : State) (line commit : Nat) : State :=
  if s.touched.contains line then s else
    let now := leLine (s.mem.bytes line lineBytes)
    let made := s.islands.map (·.ticks)
    let h : LineHist := match s.hist.find? (·.line == line) with
      | some h => ⟨line, h.cur + 1, commit, made, ⟨h.cur, now, h.commit, h.made⟩ :: h.old⟩
      | none => ⟨line, 1, commit, made, [⟨0, now, 0, []⟩]⟩
    { s with hist := h :: s.hist.filter (·.line != line), touched := line :: s.touched }

/-- Bytes within one line written to M as one version. -/
def poke (s : State) (a : Nat) (bs : List Byte) : State :=
  let s := s.newVersion (lineOf a) 0
  { s with mem := s.mem.setBytes a bs }

/-- Bytes written to M line by line. -/
def pokeAll (s : State) (a : Nat) (bs : List Byte) : State :=
  (lineParts a bs.length).foldl (fun s p => s.poke p.1 ((bs.drop (p.1 - a)).take p.2)) s

/-- The tag of the row that holds an address (R90). -/
def tagOf (s : State) (a : Nat) : RowTag := (assoc s.tags (rowOf a)).getD .data

/-- The state with a row's tag set. -/
def setTag (s : State) (row : Nat) (t : RowTag) : State :=
  { s with tags := if t = .data then assocDel s.tags row else assocSet s.tags row t }

/-- The address lies in a thread row (R90). -/
def inThreadRow (s : State) (a : Nat) : Bool := s.tagOf a != .data

/-- What a byte of a thread row reads as: x0 reads zero and P0 reads 1 (R89, R91). -/
def overlay (s : State) (a : Nat) (b : Byte) : Byte :=
  if s.inThreadRow a then
    let o := a % rowBytes
    if 0x80 ≤ o ∧ o < 0x88 then 0 else if o = 0x38 then b ||| 1 else b
  else b

/-- M's newest bytes, as loads see them. -/
def newest (s : State) (a n : Nat) : List Byte :=
  (s.mem.bytes a n).mapIdx fun i b => s.overlay (a + i) b

/-- The bytes of a line at a version. -/
def atVersion (s : State) (line v : Nat) : Line :=
  match s.hist.find? (·.line == line) with
  | none => leLine (s.mem.bytes line lineBytes)
  | some h => match h.old.find? (·.num == v) with
    | some o => o.data
    | none => leLine (s.mem.bytes line lineBytes)

/-- The version of a line that a thread's view holds (R68). -/
def viewOf (th : Thread) (line : Nat) : Nat := (assoc th.view line).getD 0

/-- The bytes that a thread's view gives, within one line. -/
def viewBytes (s : State) (th : Thread) (a n : Nat) : List Byte :=
  let l := lineOf a
  let v := viewOf th l
  if v = s.verOf l then s.newest a n else
    let d := s.atVersion l v
    (List.range n).map fun i => s.overlay (a + i) (d.extractLsb' (8 * (a + i - l)) 8)

/-- A thread's view of a line becomes a version, never an older one (R74). -/
def advanceView (s : State) (id line v : Nat) : State :=
  s.updThread id fun th => if viewOf th line < v then { th with view := assocSet th.view line v } else th

/-- A thread's view of a line becomes M's newest version. -/
def viewNewest (s : State) (id line : Nat) : State := s.advanceView id line (s.verOf line)

/-- The lines that a commit made, each with its version (R74). -/
def commitLines (s : State) (c : Nat) : List (Nat × Nat) :=
  s.hist.filterMap fun h =>
    if h.commit = c then some (h.line, h.cur)
    else (h.old.find? (·.commit == c)).map fun o => (h.line, o.num)

/-- The commit that made a version of a line; 0 for none. -/
def commitOf (s : State) (line v : Nat) : Nat :=
  match s.hist.find? (·.line == line) with
  | none => 0
  | some h => if h.cur = v then h.commit else ((h.old.find? (·.num == v)).map (·.commit)).getD 0

/-- REFRESH (R74): a view takes a newer version of a line, and with a committed version the rest of its commit. -/
def refresh (s : State) (id line v : Nat) : State :=
  if s.verOf line < v then s else
    let s' := s.advanceView id line v
    let c := s.commitOf line v
    if c = 0 then s' else (s.commitLines c).foldl (fun s p => s.advanceView id p.1 p.2) s'

/-- The newest version of a line that M has held while the clock of an island counted 2,048 cycles (R75). -/
def heldVersion (s : State) (line island : Nat) : Nat :=
  let held (made : List Nat) : Bool := decide (made.getD island 0 + 2048000 ≤ ((s.islands[island]?).map (·.ticks)).getD 0)
  match s.hist.find? (·.line == line) with
  | none => 0
  | some h => if held h.made then h.cur else ((h.old.find? fun o => held o.made).map (·.num)).getD 0

/-- The address has granule states: tile memory, and the backing row of an EVICTED row, which keeps them (R111, R183). -/
def hasGran (s : State) (a : Nat) : Bool :=
  s.inTile a || s.threads.any fun th => th.evicted && th.row == rowOf a

/-- A line is one that a thread has written (R317, R330). -/
def noteWrote (s : State) (id line : Nat) : State :=
  s.updThread id fun t => { t with wrote := if t.wrote.contains line then t.wrote else line :: t.wrote }

/-- The state of a granule; only tile memory has one that is not F (R86, R183). -/
def granOfAddr (s : State) (a : Nat) : Gran := (assoc s.gran (granOf a)).getD .full

/-- One granule's state as it is listed. -/
def listGran (s : State) (k : Nat) (g : Gran) : State :=
  { s with gran := if g = .full then assocDel s.gran k else assocSet s.gran k g }

/-- One granule takes a state, where there are granule states. -/
def setOneGran (s : State) (k : Nat) (g : Gran) : State := if s.hasGran k then s.listGran k g else s

/-- The granules that n bytes from a cover take a state, where there are granule states. -/
def setGran (s : State) (a n : Nat) (g : Gran) : State := (granules a n).foldl (fun s k => s.setOneGran k g) s

/-- An uncorrectable error comes up at an address (log entry 76): its granule becomes P (R183), or, where there are none, its line is bad. -/
def strike (s : State) (a : Nat) : State :=
  if s.hasGran a then s.listGran (granOf a) .poison else
    match s.region a with
    | .dram | .far _ | .core => { s with bad := if s.bad.contains (lineOf a) then s.bad else lineOf a :: s.bad }
    | .tile _ | .control | .hole => s

/-- A P granule or an uncorrectable line meets n bytes from a (R57, R72, R183). -/
def poisoned (s : State) (a n : Nat) : Bool :=
  (granules a n).any (fun k => s.granOfAddr k == .poison) || (linesOf a n).any fun l => s.bad.contains l && ! s.hasGran l

/-- A 64-bit word of M. -/
def word64 (s : State) (a : Nat) : Word := leWord (s.mem.bytes a 8)

/-- A 64-bit word written to M. -/
def pokeWord (s : State) (a : Nat) (w : Word) : State := s.poke a (wordBytes w)

/-- Control word k of a row (R91). -/
def ctrl (s : State) (row k : Nat) : Word := s.word64 (row + 8 * k)

/-- Bits of control word k of a row. -/
def ctrlField (s : State) (row k lo n : Nat) : Nat := field (s.ctrl row k) lo n

/-- Bits of control word k of a row written. -/
def setCtrl (s : State) (row k lo n v : Nat) : State := s.pokeWord (row + 8 * k) (setField (s.ctrl row k) lo n v)

/-- STATE of a row (R94). -/
def code (s : State) (row : Nat) : Nat := s.ctrlField row 0 0 4

/-- PRIO of a row, with 0x00 taken as 0x80 (R91, R105). -/
def prio (s : State) (row : Nat) : Nat :=
  let p := s.ctrlField row 0 8 8
  if p = 0 then 0x80 else p

/-- PROG of a row (R102). -/
def prog (s : State) (row : Nat) : Nat := s.ctrlField row 0 32 32

/-- The PC word of a row. -/
def pcWord (s : State) (row : Nat) : Word := s.ctrl row 1

/-- TENANT, ASID and PRIVL of a row (R91). -/
def tenantOf (s : State) (row : Nat) : Nat := s.ctrlField row 2 0 6

/-- ASID of a row. -/
def asidOf (s : State) (row : Nat) : Nat := s.ctrlField row 2 6 10

/-- PRIVL of a row: 0 user, 1 tenant supervisor, 2 device. -/
def privOf (s : State) (row : Nat) : Nat := s.ctrlField row 2 16 2

/-- A scalar register of a row; x0 reads zero (R47, R89). -/
def getX (s : State) (row n : Nat) : Word := if n = 0 then 0 else s.word64 (row + 0x80 + 8 * n)

/-- A scalar register of a row written; x0 discards (R47). -/
def setX (s : State) (row n : Nat) (w : Word) : State := if n = 0 then s else s.pokeWord (row + 0x80 + 8 * n) w

/-- A vector register of a row. -/
def getV (s : State) (row n : Nat) : Line := leLine (s.mem.bytes (row + 0x180 + 64 * n) 64)

/-- A vector register of a row written. -/
def setV (s : State) (row n : Nat) (v : Line) : State := s.poke (row + 0x180 + 64 * n) (lineToBytes v)

/-- A predicate of a row; p0 reads true (R46). -/
def getP (s : State) (row n : Nat) : Bool := n = 0 || s.ctrlField row 7 n 1 == 1

/-- A predicate of a row written; p0 discards (R46). -/
def setP (s : State) (row n : Nat) (b : Bool) : State := if n = 0 then s else s.setCtrl row 7 n 1 b.toNat

/-- The open thread row that holds an address, if it is open (R69). -/
def openAt? (s : State) (a : Nat) : Option Thread :=
  s.threads.find? fun th => th.row == rowOf a && th.slot.isSome

/-- An entry joins the tail of a thread's outside queue (R76), which keeps the issues that the row has made (R75). -/
def enqueue (s : State) (id : Nat) (e : OQEntry) : State :=
  s.updThread id fun t => { t with oq := t.oq ++ [e], oqAt := t.oqAt ++ [t.issued] }

/-- The die of a tile (R363). -/
def dieOfTile (t : Nat) : Nat := t / 5120

/-- The cluster of a tile, over the module (R363). -/
def clusterOfTile (t : Nat) : Nat := t / 64

/-- Island n is ON (R29). -/
def islandOn (s : State) (n : Nat) : Bool :=
  match s.islands[n]? with
  | some i => i.st == 0
  | none => false

/-- An island is clocked: ON, or emptying itself before it is gated (R29, R32). -/
def clocked (s : State) (n : Nat) : Bool :=
  match s.islands[n]? with
  | some i => i.st == 0 || (i.st == 3 && i.req != 0)
  | none => false

/-- The host can reach the module: it has power, and no thermal trip has dropped the link (R38). -/
def hostLink (s : State) : Bool := s.boot.powered && ! s.boot.thermTrip

/-- A receiver's island is gated: its service runs no more, and it has no access in flight (R32, R33, R361). -/
def receiverGated (s : State) (u : Nat) : Bool :=
  decide (u < 640) && (match s.islands[2 * (u / 80)]? with
    | some i => i.st == 1 || i.st == 2
    | none => true)

end State

/-- Two ranges of virtual addresses overlap modulo 2^64 (R359). -/
def rangesMeet (a n b m : Nat) : Bool :=
  n != 0 && m != 0 && (decide ((b + 2 ^ 64 - a) % 2 ^ 64 < n) || decide ((a + 2 ^ 64 - b) % 2 ^ 64 < m))

/-- The thread that an entry of an outside queue comes from, and its address. -/
def State.entrySource : OQEntry → Option (Nat × Nat)
  | .write src dp _ _ => src.map fun t => (t, dp)
  | .read src _ dp _ => some (src.id, dp)
  | .atomic src _ dp _ _ _ => some (src.id, dp)
  | .ldfe src dp _ _ => some (src.id, dp)
  | .stfe src dp _ => some (src.id, dp)
  | .sete src dp _ _ => some (src.id, dp)
  | .ccrd src dp _ => some (src.id, dp)
  | .count src dp _ => some (src, dp)
  | .update src dp _ => some (src.id, dp)
  | .fship src dp _ _ _ _ => some (src.id, dp)
  | .access _ | .part _ _ _ => none
  | .hostRead _ _ => none

/-- The lines that an entry of a thread in an outside queue is for (R72). -/
def State.entryLines : OQEntry → List Nat
  | .write _ dp _ _ | .atomic _ _ dp _ _ _ | .ldfe _ dp _ _ | .stfe _ dp _ | .sete _ dp _ _ | .ccrd _ dp _ | .count _ dp _
  | .update _ dp _ | .fship _ dp _ _ _ _ => [lineOf dp]
  | .read _ _ dp n => linesOf dp n
  | .access _ | .part _ _ _ | .hostRead _ _ => []

/-- What a thread has asked for is of no more use, and what answers it still does not count (R76). -/
def Thread.askAnew (t : Thread) : Thread := { t with replies := [], asked := [], asks := t.asks + 1 }

/-- A thread as it asks now. -/
def Thread.asker (t : Thread) : Asker := ⟨t.id, t.asks⟩

/-- The entries of an outside queue that stay. -/
def Thread.cutQueue (t : Thread) (keep : OQEntry → Bool) : Thread :=
  { t with oq := t.oq.filter keep, oqAt := ((t.oq.zip t.oqAt).filter fun p => keep p.1).map (·.2) }

/-- The cluster of a T-thread or walker thread; 640 for others. -/
def Thread.cluster (th : Thread) : Nat :=
  match th.exec with
  | .tile => State.clusterOfTile th.place
  | .walker => th.place
  | _ => 640

/-- The TLB that serves a thread: a cluster's, or 640 + the stack's (R169, R357); none on the security and management
processors. -/
def Thread.unit (th : Thread) : Option Nat :=
  match th.exec with
  | .tile => some (State.clusterOfTile th.place)
  | .walker => some th.place
  | .bank => some (640 + th.place / 16384)
  | .service => if th.place < 664 then some th.place else none

/-- The unit that translates for a thread's elements and commands (R185, R321): 1000 and above a service core. -/
def Thread.ownerUnit (th : Thread) : Nat :=
  match th.exec with
  | .service => 1000 + th.place
  | _ => th.unit.getD 0

/-- The island whose clock an executor counts (R14, R17). -/
def Thread.island (th : Thread) : Nat :=
  match th.exec with
  | .tile => 2 * (State.dieOfTile th.place)
  | .walker => 2 * (th.place / 80) + 1
  | .bank => 16 + th.place / 16384 / 3
  | .service => if th.place < 640 then 2 * (th.place / 80) else if th.place < 664 then 30 + (th.place - 640) / 12 else 28

/-- The cycles that the clock of an island has counted, in thousandths. -/
def State.islandTicks (s : State) (n : Nat) : Nat := ((s.islands[n]?).map (·.ticks)).getD 0

/-- The floor clock of an island in MHz (R14). -/
def islandFloor (n : Nat) : Nat := if n < 16 then 1200 else if n < 24 then 600 else if n < 30 then 0 else 1000

/-- A load reads no version older than the newest that M held 2,048 cycles of the executor's clock before (R75): the view is brought to it. -/
def State.boundView (s : State) (th : Thread) (line : Nat) : State :=
  let v := s.heldVersion line th.island
  if State.viewOf th line < v then s.refresh th.id line v else s

/-- The cycles that a thread's executor has counted, in thousandths. -/
def State.ticksOf (s : State) (th : Thread) : Nat := s.islandTicks th.island

/-- The cycles of a thread's executor since a count (R3, R15). -/
def State.cyclesSince (s : State) (th : Thread) (t : Nat) : Nat := (s.ticksOf th - t) / 1000

/-- The A-die of a service core: a TSC stands on the die of its cluster and the core of stack s belongs to die s / 3 (R11); 8 stands for the
hub, which is on none. -/
def coreDie (k : Nat) : Nat := if k < 640 then k / 80 else if k < 664 then (k - 640) / 3 else 8

/-- The A-die of a thread's executor: a stack connects to die s / 3 (R11). -/
def Thread.die (th : Thread) : Nat :=
  match th.exec with
  | .tile => State.dieOfTile th.place
  | .walker => th.place / 80
  | .bank => th.place / 16384 / 3
  | .service => coreDie th.place

end Sys2Proof.Machine
end

