-- ==== Sys2Proof/Machine/Access.lean ====
section
/-!
DEFINITION. The path of an access (R167 to R171): own rows, the thread aperture, bank windows (R395), the TLBs, page
permissions, tenant windows; the walk of page tables (R356), which the hub also makes for the rings of a tenant (R394).
-/
namespace Sys2Proof.Machine

/-- The kinds of access a check is made for (R169, step 5; R170). -/
inductive AccKind where
  | read | write | exec | rmw
  deriving DecidableEq, Repr

/-- The code of a kind in a miss message (R170). -/
def AccKind.code : AccKind → Nat
  | .read => 0 | .write => 1 | .exec => 2 | .rmw => 3

/-- The outcome of the checks of R168 and R169 for one line part. -/
inductive Checked where
  | own (dp : Nat)
  | ok (dp : Nat)
  | remote (modId : Nat)
  | fault (c : Cause)
  | miss
  | violation (addr : Word)
  deriving DecidableEq, Repr

/-- The bytes of a page of a size code (R357). -/
def pageSize (code : Nat) : Nat := if code = 0 then 2 ^ 16 else if code = 1 then 2 ^ 21 else 2 ^ 30

/-- The device-physical address that a leaf gives an address (R356). -/
def leafAddr (leaf : Word) (size va : Nat) : Nat := field leaf 16 32 * 2 ^ 16 / pageSize size * pageSize size + va % pageSize size

/-- The leaf maps another module (R356). -/
def leafRemote (leaf : Word) : Bool := field leaf 7 1 == 1

/-- The permission bits of a leaf admit an access (R356; R169, step 5). -/
def leafPermits (leaf : Word) (k : AccKind) : Bool :=
  match k with
  | .read => field leaf 2 1 == 1
  | .write => field leaf 3 1 == 1
  | .exec => field leaf 4 1 == 1
  | .rmw => field leaf 2 1 == 1 && field leaf 3 1 == 1

/-- A leaf entry is well formed for a page size (R356): valid, must-be-zero fields zero, and the frame aligned. -/
def leafOk (leaf : Word) (size : Nat) : Bool :=
  field leaf 0 1 == 1 && field leaf 1 1 == 1 && field leaf 48 16 == 0 &&
    (if leafRemote leaf then field leaf 20 28 == 0
     else field leaf 8 8 == 0 && field leaf 16 32 * 2 ^ 16 % pageSize size == 0)

/-- The levels of the walk below an entry's table (R356): the lowest address bit indexed, the index bits, and the leaf's size
code. -/
def walkLevels : List (Nat × Nat × Option Nat) :=
  [(48, 8, none), (39, 9, none), (30, 9, some 2), (21, 9, some 1), (16, 5, some 0)]

/-- The walk of R356 over M's newest table lines: the leaf and its page's size code. -/
def State.walkFrom (s : State) (va : Nat) : List (Nat × Nat × Option Nat) → Nat → Option (Word × Nat)
  | [], _ => none
  | (lo, n, sz) :: ls, table =>
    let e := s.word64 (table + 8 * bitsAt va lo n)
    if field e 0 1 = 0 ∨ field e 48 16 ≠ 0 then none
    else if field e 1 1 = 1 then
      match sz with
      | none => none
      | some k => if leafOk e k then some (e, k) else none
    else State.walkFrom s va ls (field e 8 40 * 2 ^ 8)

/-- The table entries that the walk of R356 reads. -/
def State.walkReads (s : State) (va : Nat) : List (Nat × Nat × Option Nat) → Nat → List Nat
  | [], _ => []
  | (lo, n, _) :: ls, table =>
    let a := table + 8 * bitsAt va lo n
    let e := s.word64 a
    if field e 0 1 = 0 ∨ field e 48 16 ≠ 0 ∨ field e 1 1 = 1 then [a]
    else a :: State.walkReads s va ls (field e 8 40 * 2 ^ 8)

/-- The root of an ASID of a tenant; none when PTROOT is not valid (R353, R356). -/
def Tenant.root? (t : Tenant) (asid : Nat) : Option Nat :=
  match assoc t.ptroot asid with
  | some w => if field w 0 1 = 1 then some (field w 11 37 * 2 ^ 11) else none
  | none => none

/-- The walk for an address under an ASID of a tenant. -/
def State.walk (s : State) (tenant asid va : Nat) : Option (Word × Nat) :=
  match s.tenant? tenant with
  | none => none
  | some t => match t.root? asid with
    | none => none
    | some r => s.walkFrom va walkLevels r

/-- The table entries that the walk for an address under an ASID of a tenant reads. -/
def State.tableReads (s : State) (tenant asid va : Nat) : List Nat :=
  match (s.tenant? tenant).bind fun t => t.root? asid with
  | none => []
  | some r => s.walkReads va walkLevels r

/-- A window in use that holds a device-physical address (R369). -/
def Tenant.window? (t : Tenant) (dp : Nat) : Option (Nat × Word × Word) :=
  t.windows.find? fun w =>
    let base := field w.2.1 16 32 * 2 ^ 16
    let size := field w.2.2 0 32 * pageBytes
    base ≤ dp && dp < base + size

/-- The window of a tenant that holds an address. -/
def State.windowOf (s : State) (tenant dp : Nat) : Option (Nat × Word × Word) :=
  match s.tenant? tenant with
  | none => none
  | some t => t.window? dp

/-- The R, W and X bits of a window grant a kind of access, as those of a leaf do (R369; DEDUCED, log entry 13). -/
def windowGrants (w : Nat × Word × Word) : AccKind → Bool
  | .read => field w.2.2 33 1 == 1
  | .write => field w.2.2 34 1 == 1
  | .exec => field w.2.2 35 1 == 1
  | .rmw => field w.2.2 33 1 == 1 && field w.2.2 34 1 == 1

/-- A window of the tenant holds the address and grants the access (R169, step 6; R369). -/
def Tenant.windowAdmits (t : Tenant) (dp : Nat) (k : AccKind) : Bool := (t.window? dp).any fun w => windowGrants w k

/-- SEALED of a window (R369). -/
def windowSealed (w : Nat × Word × Word) : Bool := field w.2.2 32 1 == 1

/-- A saturating count of 32 bits raised by one. -/
def satInc (n : Nat) : Nat := min (n + 1) (2 ^ 32 - 1)

/-- An access is counted in WACNT when its window says so (R369): range r is the r-th sixteenth of the window. -/
def State.countWindow (s : State) (tenant dp : Nat) (write : Bool) : State :=
  match s.tenant? tenant with
  | none => s
  | some t => match t.window? dp with
    | none => s
    | some w =>
      if field w.2.2 44 1 = 0 then s else
        let base := field w.2.1 16 32 * 2 ^ 16
        let size := field w.2.2 0 32 * pageBytes
        let idx := 16 * w.1 + (dp - base) * 16 / size
        let c := (assoc t.wacnt idx).getD 0
        let c' : Word := if write then setField c 32 32 (satInc (field c 32 32)) else setField c 0 32 (satInc (field c 0 32))
        s.setTenant { t with wacnt := assocSet t.wacnt idx c' }

/-- The virtual address of a thread's row (R110, R125): for a PLACED row its slot in the tenant's thread aperture, or the
control-space address where the tenant has no aperture. -/
def State.rowVa (s : State) (th : Thread) : Word :=
  let h := s.ctrlField th.row 2 18 24
  if h = 0 then th.va else
    match s.tenant? (s.tenantOf th.row) with
    | none => .ofNat 64 (handleAddr h)
    | some t => if t.aper = 0 then .ofNat 64 (handleAddr h) else t.aper + .ofNat 64 (h * 0x800)

/-- The PLACED row of a live handle (R110). -/
def State.handleRow? (s : State) (h : Nat) : Option Thread :=
  if h = 0 then none else
    s.threads.find? fun th => s.tagOf th.row == .placed && s.ctrlField th.row 2 18 24 == h

/-- The handle slots of control space (R110, R363). -/
def inHandleSlots (dp : Nat) : Bool := decide (0xF10000000000 ≤ dp ∧ dp < 0xF10000000000 + 2 ^ 24 * 0x800)

/-- The address in the row that a handle slot leads to (R110); none outside the slots, and for a handle of no row. -/
def State.handleSlot? (s : State) (dp : Nat) : Option Nat :=
  if inHandleSlots dp then (s.handleRow? ((dp - 0xF10000000000) / 0x800)).map fun th => th.row + dp % 0x800 else none

/-- A control-space address of a handle slot becomes the address in the row (R110); any other stays. -/
def State.resolveHandle (s : State) (dp : Nat) : Option Nat := if inHandleSlots dp then s.handleSlot? dp else some dp

/-- The TLB entry that translates an address (R169, step 4). -/
def State.tlb? (s : State) (unit asid va : Nat) : Option TlbEntry :=
  s.tlbs.find? fun e => e.unit == unit && e.asid == asid && va / pageSize e.size == e.page / pageSize e.size

/-- The bank window register of a B-executor that an address hits (R395). -/
def State.bankHit? (s : State) (exec asid va : Nat) : Option BankWindow :=
  s.bankWins.find? fun b =>
    b.bank == exec && b.asid == asid && b.vpage == va / pageBytes && (s.dpitOf b.ppage).st == .home &&
      (match s.locate (b.ppage * pageBytes + va % pageBytes) with
       | some l => l.exec == exec
       | none => false)

/-- The registers that map an address of an ASID of a bank gain a use: the most recent first, at most 16 a bank. -/
def State.useBankWindow (s : State) (b : BankWindow) : State :=
  let rest := s.bankWins.filter (· != b)
  let mine := (rest.filter (·.bank == b.bank)).take 15
  { s with bankWins := b :: mine ++ rest.filter (·.bank != b.bank) }

/-- Steps 5 to 7 of R169 over a translation, without the row's own checks; the device privilege reaches control space (R363). -/
def State.checkLeaf (s : State) (tenant privl : Nat) (leaf : Word) (dp : Nat) (k : AccKind) : Checked :=
  if ¬ leafPermits leaf k ∨ field leaf 5 2 > privl then .fault .protect
  else if leafRemote leaf then .remote (field leaf 8 12)
  else match s.region dp with
    | .hole => .violation (.ofNat 64 dp)
    | .core => .violation (.ofNat 64 dp)
    | .control =>
      if privl ≠ 2 then .violation (.ofNat 64 dp) else
        match s.resolveHandle dp with
        | some a => .ok a
        | none => .violation (.ofNat 64 dp)
    | _ => if (s.tenant? tenant).any fun t => t.windowAdmits dp k then .ok dp else .violation (.ofNat 64 dp)

/-- R93: a thread of another tenant, or of lower privilege than the target row, does not reach a thread row's bytes; a translation that makes no access
(R329) is not gated so. -/
def State.rowAdmits (s : State) (tenant privl dp : Nat) (gated : Bool := true) : Bool :=
  let row := rowOf dp
  ! gated || s.tagOf dp == .data || (s.tenantOf row == tenant && decide (s.privOf row ≤ privl))

/-- The thread aperture of a tenant (R353): the row a slot's handle names, or a violation; none outside the aperture. -/
def State.aperture (s : State) (tenant privl a : Nat) (gated : Bool := true) : Option Checked :=
  match s.tenant? tenant with
  | none => none
  | some t =>
    if t.aper ≠ 0 ∧ t.aper.toNat ≤ a ∧ a < t.aper.toNat + 2 ^ 35 then
      match s.handleRow? ((a - t.aper.toNat) / 0x800) with
      | some u => if s.tenantOf u.row = tenant ∧ s.rowAdmits tenant privl u.row gated then
          some (.ok (u.row + (a - t.aper.toNat) % 0x800)) else some (.violation (.ofNat 64 (2 ^ 63 + a)))
      | none => some (.violation (.ofNat 64 (2 ^ 63 + a)))
    else none

/-- R93 over a translation. -/
def State.gateRow (s : State) (tenant privl : Nat) (c : Checked) (gated : Bool := true) : Checked :=
  match c with
  | .ok dp => if s.rowAdmits tenant privl dp gated then .ok dp else .violation (.ofNat 64 dp)
  | c => c

/-- The check of a service core's address, which is device-physical (R64): its own memory and the map of R363.
An address with non-zero bits 63..56 (step 2 of R169) is a violation of the map, as steps of R169 that name a page or a field of
an untranslated address are not made (DESIGN CHOICE, log entry 84). -/
def State.coreCheck (s : State) (place : Nat) (va : Word) : Checked :=
  let a := va.toNat
  if a ≥ 2 ^ 48 then
    (if 2 ^ 48 + 2 ^ 40 * place ≤ a ∧ a < 2 ^ 48 + 2 ^ 40 * (place + 1) then .ok a else .violation va)
  else match s.region a with
    | .hole => .violation va
    | .control => (match s.resolveHandle a with
      | some x => .ok x
      | none => .violation va)
    | _ => .ok a

/-- The checks of R169 at a TLB for any party, within one line, alignment apart; units from 1000 are the service cores, whose
addresses are device-physical (R64). -/
def State.xlate (s : State) (unit asid tenant privl : Nat) (va : Word) (k : AccKind) (gated : Bool := true) : Checked :=
  if 1000 ≤ unit then s.coreCheck (unit - 1000) va
  else if field va 56 8 ≠ 0 then .fault .pagefault else
    match s.aperture tenant privl va.toNat gated with
    | some c => c
    | none => match s.tlb? unit asid va.toNat with
      | none => .miss
      | some e => s.gateRow tenant privl (s.checkLeaf tenant privl e.leaf (leafAddr e.leaf e.size va.toNat) k) gated

/-- The checks of R168 and R169 for a thread's access within one line, alignment apart. -/
def State.check (s : State) (th : Thread) (va : Word) (k : AccKind) (gated : Bool := true) : Checked :=
  let a := va.toNat
  let own := (s.rowVa th).toNat
  let tenant := s.tenantOf th.row
  let privl := s.privOf th.row
  if own ≤ a ∧ a < own + rowBytes then .own (th.row + (a - own))
  else match th.exec with
  | .service => s.coreCheck th.place va
  | _ =>
    let asid := s.asidOf th.row
    match (if th.exec = .bank ∧ field va 56 8 = 0 then s.bankHit? th.place asid a else none) with
    | some b => s.gateRow tenant privl (s.checkLeaf tenant privl b.leaf (b.ppage * pageBytes + a % pageBytes) k) gated
    | none => match th.unit with
      | none => .fault .unavail
      | some u => s.xlate u asid tenant privl va k gated

/-- A B-thread's access through the stack TLB loads a bank window register (R395); a hit makes it the most recently used. -/
def State.noteBankWindow (s : State) (th : Thread) (va dp : Nat) : State :=
  if th.exec ≠ .bank then s else
    let asid := s.asidOf th.row
    match s.bankHit? th.place asid va with
    | some b => s.useBankWindow b
    | none => match th.unit with
      | none => s
      | some u => match s.tlb? u asid va with
        | none => s
        | some e => match s.windowOf (s.tenantOf th.row) dp, s.locate dp with
          | some w, some l =>
            if ¬ windowSealed w ∧ (s.dpitOf (dp / pageBytes)).st = .home ∧ l.exec = th.place then
              s.useBankWindow ⟨th.place, asid, va / pageBytes, dp / pageBytes, e.leaf, s.tenantOf th.row⟩
            else s
          | _, _ => s

/-- A miss that is already waited for by the same party for the same page is joined (R358). -/
def State.postMiss (s : State) (th : Thread) (va : Word) (k : AccKind) (prefetch : Bool) : State :=
  match th.unit with
  | none => s
  | some u =>
    if s.misses.any (fun m => m.thread == some th.id && m.va == va && m.prefetch == prefetch && m.stage != 3) then s else
      let m : Miss := ⟨s.nextId, some th.id, s.rowVa th, u, s.asidOf th.row, s.tenantOf th.row, s.privOf th.row, k.code, va, 0,
        [], prefetch⟩
      { s with misses := s.misses ++ [m], nextId := s.nextId + 1 }

/-- The service has answered that a page of a thread's write-back or member table has no mapping (R235, R329, R358). -/
def State.answeredNone (s : State) (id : Nat) (va : Word) : Bool :=
  s.misses.any fun m => m.thread == some id && m.stage == 3 && m.va.toNat / pageBytes == va.toNat / pageBytes

/-- Answered misses of a thread are used up. -/
def State.dropAnswers (s : State) (id : Nat) : State :=
  { s with misses := s.misses.filter fun m => ! (m.thread == some id && m.stage == 3) }

/-- A hub walk of R394 under a tenant's posting ASID: the address, when it is mapped with the permission and in a window that grants
it. -/
def State.hubTranslate (s : State) (t : Tenant) (va : Nat) (k : AccKind) : Option Nat :=
  match s.walk t.num (field t.pasid 0 10) va with
  | none => none
  | some (leaf, size) =>
    let dp := leafAddr leaf size va
    if leafPermits leaf k ∧ ¬ leafRemote leaf ∧ va < 2 ^ 56 ∧ t.windowAdmits dp k ∧
       (s.region dp = .dram ∨ s.inTile dp ∨ (0x800000000000 ≤ dp ∧ s.region dp ≠ .hole ∧ s.region dp ≠ .control)) then some dp
    else none

/-- The base and the log2 of the slot count in a ring register (R353). -/
def ringBase (w : Word) : Nat := field w 6 50 * 2 ^ 6

/-- The log2 of a ring's slot count; the field is 0 to 10. -/
def ringLog (w : Word) : Nat := field w 0 6

end Sys2Proof.Machine
end

