-- ==== Sys2Proof/Machine/Banks.lean ====
section
/-!
DEFINITION. Row buffers, claims, refresh and the activation regulator (R259 to R272), the DPIT on a write (R365), hold
entries (R262, R265 to R267), and transactional groups with their shadows (R276 to R279).
-/
namespace Sys2Proof.Machine

/-- The outcome of bringing a row to where an access is served: at once, or the access waits (R261, R271, R365). -/
inductive Reach where
  | ok (s : State)
  | wait (s : State) (sub : Nat)

/-- The names of parties that claim a subarray (R261): a thread is its identifier plus 1; the others stand from 2^64 on. -/
def ctxParty (k : Nat) : Nat := 2 ^ 64 + k
/-- A one-sided operation as a party. -/
def opParty (id : Nat) : Nat := 2 ^ 65 + id
/-- The hub as it serves updates of a hash table. -/
def hashParty (desc : Nat) : Nat := 2 ^ 66 + desc
/-- The hub as it writes or reads for itself or the host. -/
def hubParty (row : Nat) : Nat := 2 ^ 67 + row
/-- The row allocator and the translation services. -/
def serviceParty (unit : Nat) : Nat := 2 ^ 68 + unit

namespace State

/-- The record of a subarray; a subarray not listed is FREE. -/
def subarray (s : State) (sub : Nat) : Subarray := (s.subs.find? (·.sub == sub)).getD ⟨sub, .free, false, []⟩

/-- The state with a subarray's record set; a FREE one with nothing waiting is not listed. -/
def setSub (s : State) (b : Subarray) : State :=
  let rest := s.subs.filter (·.sub != b.sub)
  { s with subs := if b = ⟨b.sub, .free, false, []⟩ then rest else b :: rest }

/-- The row that a buffer holds (R259). -/
def bufRow : BufState → Option Nat
  | .free => none
  | .thread r => some r
  | .opened r => some r
  | .held r _ => some r

/-- The state with a subarray's buffer set. A row that a refresh has closed waits to be activated again whoever holds it (R268). -/
def setBuf (s : State) (sub : Nat) (b : BufState) : State :=
  let r := s.subarray sub
  s.setSub { r with buf := b, refreshing := r.refreshing && (bufRow b).isSome && bufRow b == bufRow r.buf }

/-- A stack's registers with one changed. -/
def updStack (s : State) (stack : Nat) (f : StackRegs → StackRegs) : State :=
  match s.stackRegs[stack]? with
  | none => s
  | some r => { s with stackRegs := setAt s.stackRegs stack (f r) }

/-- The regulator admits an activate now (R270): fewer than LIM in the last microsecond, fewer than 4 of the pseudo-channel in
the last 16 ns. -/
def regulatorFree (s : State) (stack pch : Nat) : Bool :=
  match s.stackRegs[stack]? with
  | none => false
  | some r =>
    decide ((r.grants.filter fun g => s.now < g.1 + 1000).length < r.lim) &&
      decide ((r.grants.filter fun g => g.2 == pch && decide (s.now < g.1 + 16)).length < 4)

/-- An activate is charged to the stack's regulator (R272). -/
def charge (s : State) (stack pch : Nat) : State :=
  s.updStack stack fun r => { r with grants := (s.now, pch) :: r.grants.filter fun g => s.now < g.1 + 1000 }

/-- The open thread row that stands in a subarray's buffer (R259). -/
def bufThread? (s : State) (sub : Nat) : Option Thread :=
  s.threads.find? fun th => th.slot.isSome && th.exec == .bank &&
    (match s.locate th.row with
     | some l => l.subId == sub
     | none => false)

/-- The thread that occupies a buffer: the open thread row in it, or the holder (R261). -/
def occupant? (s : State) (sub : Nat) : Option Nat :=
  match (s.subarray sub).buf with
  | .thread _ => (s.bufThread? sub).map (·.id)
  | .held _ t => some t
  | _ => none

/-- A claim on a subarray, in arrival order (R261). -/
def claim (s : State) (sub who : Nat) : State :=
  let b := s.subarray sub
  if b.claims.any (·.1 == who) then s else s.setSub { b with claims := b.claims ++ [(who, s.islandTicks (16 + sub / 393216))] }

/-- The claims of a party, and its places at DPIT entries, are gone. -/
def dropClaims (s : State) (who : Nat) : State :=
  let cut := s.subs.map fun b => { b with claims := b.claims.filter (·.1 != who) }
  let entries := s.dpit.map fun d => { d with waiting := d.waiting.filter (· != who) }
  { s with subs := cut.filter fun b => b != (⟨b.sub, .free, false, []⟩ : Subarray)
           dpit := entries.filter fun d => d != .identity d.page }

/-- A claim of a party on a subarray is gone. -/
def unclaim (s : State) (sub who : Nat) : State :=
  let b := s.subarray sub
  s.setSub { b with claims := b.claims.filter (·.1 != who) }

/-- A row of a stack that a refresh has closed waits to be activated again (R268). -/
def refreshPending (s : State) (stack : Nat) : Bool := s.subs.any fun b => b.refreshing && b.sub / 131072 == stack

/-- The regulator grants an activate of a row now (R268, R270): rows that a refresh has closed and activates that came before go first. -/
def granted (s : State) (l : BankLoc) : Bool :=
  ! s.refreshPending l.stack && s.regulatorFree l.stack l.pch && (match s.stackRegs[l.stack]? with
    | some r => r.waiting.isEmpty || r.waiting.head? == some (l.subId * 256 + l.rown)
    | none => false)

/-- An activate that the regulator has granted is charged, and waits no more (R270, R272). -/
def chargeGrant (s : State) (l : BankLoc) : State :=
  (s.charge l.stack l.pch).updStack l.stack fun r => { r with waiting := r.waiting.filter (· != l.subId * 256 + l.rown) }

/-- An activate waits for the regulator in arrival order (R270). -/
def awaitGrant (s : State) (l : BankLoc) : State :=
  let key := l.subId * 256 + l.rown
  s.updStack l.stack fun r => if r.waiting.contains key then r else { r with waiting := r.waiting ++ [key] }

/-- A row is activated in a subarray whose buffer is FREE or OPEN, or the request waits for the regulator (R259, R270). -/
def activate (s : State) (l : BankLoc) (dest : BufState) (who : Nat) : Reach :=
  if s.granted l then
    let s := s.chargeGrant l
    let b := s.subarray l.subId
    .ok (s.setSub { b with buf := dest, claims := b.claims.filter (·.1 != who) })
  else .wait (s.awaitGrant l) l.sub

/-- The two activates of a swap (R260, R270, R272), when the regulator grants both. -/
def swap (s : State) (l : BankLoc) (who : Nat) : Reach :=
  if s.granted l then
    let s' := s.chargeGrant l
    if s'.regulatorFree l.stack l.pch then .ok ((s'.charge l.stack l.pch).unclaim l.subId who) else .wait (s.awaitGrant l) l.sub
  else .wait (s.awaitGrant l) l.sub

/-- An activate that opens no buffer for its party (R272): a copy into a shadow, or the re-binding of a committed row. -/
def extraActivate (s : State) (l : BankLoc) : Reach :=
  if s.granted l then .ok (s.chargeGrant l) else .wait (s.awaitGrant l) l.sub

/-- An activate of a party in its turn among the claims of the subarray (R261). -/
def activateInTurn (s : State) (l : BankLoc) (dest : BufState) (who : Nat) : Reach :=
  let b := s.subarray l.subId
  if b.claims.isEmpty || (b.claims.head?.map (·.1)) == some who then s.activate l dest who else .wait (s.claim l.subId who) l.sub

/-- A DPIT entry set; an entry as boot left it is not listed (R364). -/
def setDpit (s : State) (d : Dpit) : State :=
  let rest := s.dpit.filter (·.page != d.page)
  { s with dpit := if d = .identity d.page then rest else d :: rest }

/-- An access of a party waits at the DPIT entry of a page, behind those that came before (R365). -/
def awaitDpit (s : State) (d : Dpit) (who : Nat) : State :=
  if d.waiting.contains who then s.setDpit d else s.setDpit { d with waiting := d.waiting ++ [who] }

/-- An access of a party waits at the DPIT entry of a page no more. -/
def leaveDpit (s : State) (page who : Nat) : State :=
  let d := s.dpitOf page
  if d.waiting.contains who then s.setDpit { d with waiting := d.waiting.filter (· != who) } else s

/-- An access of a party that waited at the DPIT entry of a page waits there still (R365). -/
def waitsAtDpit (s : State) (who page : Nat) : Bool :=
  let d := s.dpitOf page
  d.st == .revert || (d.waiting.contains who && d.waiting.head? != some who)

/-- A write of a party meets the DPIT entry of its page (R365): a move ends; a duplicated page reverts and the write waits; after the reversal the
accesses that waited proceed in arrival order. -/
def dpitWrite (s : State) (who page : Nat) : State × Bool :=
  let d := s.dpitOf page
  match d.st with
  | .home | .far => if d.waiting.isEmpty || d.waiting.head? == some who then (s, true) else (s.awaitDpit d who, false)
  | .moving =>
    let st : DpitState := match d.loc1 with
      | .frame _ _ => .home
      | .far _ => .far
    (s.setDpit { d with st := st, loc2 := .frame 0 0 }, true)
  | .dup => (s.awaitDpit { d with st := .revert } who, false)
  | .revert => (s.awaitDpit d who, false)

/-- The stack of the executor that reads, for a B-thread (R365). -/
def readerStack (s : State) (who : Nat) : Option Nat :=
  match s.threads.find? fun th => th.id + 1 == who && th.exec == .bank with
  | some th => some (th.place / 16384)
  | none => none

/-- The tracker sees an access to a page (R365). -/
def notePage (s : State) (page : Nat) (stack : Option Nat) (write : Bool) : State :=
  let u := (s.pageUse.find? (·.page == page)).getD ⟨page, [], false⟩
  let readers := match stack with
    | some k => if write || u.readers.contains k then u.readers else k :: u.readers
    | none => u.readers
  let u' : PageUse := ⟨page, readers, u.wrote || write⟩
  if s.pageUse.any (· == u') then s else { s with pageUse := u' :: s.pageUse.filter (·.page != page) }

/-- An access of a party brings its row to the buffer (R259 to R261), or waits. -/
def reachRow (s : State) (l : BankLoc) (who : Nat) : Reach :=
  let b := s.subarray l.subId
  if bufRow b.buf = some l.rown then
    (if b.refreshing then .wait s l.sub else .ok (s.setSub { b with claims := b.claims.filter (·.1 != who) }))
  else match b.buf with
    | .free | .opened _ => s.activateInTurn l (.opened l.rown) who
    | .thread _ | .held _ _ =>
      if (s.occupant? l.subId).map (· + 1) = some who then s.swap l who
      else .wait (s.claim l.subId who) l.sub

/-- An access of a party (a thread's identifier plus 1, or another's name) reaches its bytes (R259 to R261, R365), or waits: at the DPIT entry
of its page, or for the buffer. -/
def reach (s : State) (who a : Nat) (write : Bool) : Reach :=
  match s.region a with
  | .dram =>
    let stack := s.readerStack who
    let page := a / pageBytes
    let s := s.notePage page stack write
    let (s, go) := if write then s.dpitWrite who page else (s, true)
    match (if write then s.locate a else s.locateRead stack a) with
    | none => if go then .ok (s.leaveDpit page who) else .wait s 0
    | some l =>
      if ¬ go then .wait s l.sub else match s.reachRow l who with
        | .wait s k => .wait s k
        | .ok s => .ok (if write then s.leaveDpit page who else s)
  | _ => .ok s

/-- Every row of some addresses can be served now (R259 to R261), or the access waits, its claims placed. -/
def reachAll (s : State) (who : Nat) (write : Bool) : List Nat → Reach
  | [] => .ok s
  | a :: as => match s.reach who a write with
    | .wait s k => .wait s k
    | .ok s => reachAll s who write as

/-- A party's walk of a page table reaches the rows of the entries that it reads (R259, R272, R356). -/
def reachWalk (s : State) (who tenant asid va : Nat) : Reach := s.reachAll who false (s.tableReads tenant asid va)

/-- The walk that the hub makes for a posting address of a tenant (R394). -/
def reachPosting (s : State) (t : Tenant) (va : Nat) : Reach :=
  s.reachWalk (hubParty (2 ^ 60 + t.num)) t.num (field t.pasid 0 10) va

/-- Gaussian elimination over the masks of the address hash: rows of a mask and the L bits that make it up. -/
def solveMasks : Nat → Nat → List (Nat × Nat) → List (Nat × Nat) → Option (List (Nat × Nat))
  | 0, _, done, _ => some done
  | n + 1, j, done, rest =>
    match rest.find? fun r => r.1.testBit j with
    | none => none
    | some p =>
      let clear (r : Nat × Nat) : Nat × Nat := if r.1.testBit j then (r.1 ^^^ p.1, r.2 ^^^ p.2) else r
      solveMasks n (j + 1) (done.map clear ++ [p]) ((rest.filter (· != p)).map clear)

/-- The masks of the inverse map, when the masks are invertible (R275): bit j of M is the parity of L AND mask j. -/
def inverseMasks (masks : List Nat) : Option (List Nat) :=
  (solveMasks 25 0 [] ((List.range 25).map fun j => (masks.getD j 0 % 2 ^ 25, 2 ^ j))).map fun l => l.map (·.2)

/-- The device-physical address of the row at a location of a stack (R273), where a page maps to its frame. -/
def rowAtLoc (s : State) (stack l : Nat) : Option Nat :=
  match (s.stackRegs[stack]?).bind fun r => inverseMasks r.active with
  | none => none
  | some ms =>
    let m := (List.range 25).foldl (fun n j => n + parity (l &&& ms.getD j 0) * 2 ^ j) 0
    let f := m * rowBytes / pageBytes
    let page := match s.dpit.find? fun d => d.loc1 == PageLoc.frame stack f with
      | some d => some d.page
      | none => if (s.dpitOf (stack * 2 ^ 20 + f)).loc1 = PageLoc.frame stack f then some (stack * 2 ^ 20 + f) else none
    page.map fun p => p * pageBytes + m * rowBytes % pageBytes

/-- The hold state of a subarray of a thread's executor (R262): 0 NONE, 1 SAVE, 2 DROP, 3 LOST. -/
def holdState (s : State) (row k : Nat) : Nat := field (s.word64 (row + 0x7E8)) (2 * k) 2

/-- The row of a hold entry (R262). -/
def holdRow (s : State) (row k : Nat) : Nat := field (s.word64 (row + 0x7F0)) (8 * k) 8

/-- The hold entry of a subarray written. -/
def setHold (s : State) (row k st rown : Nat) : State :=
  let s := s.pokeWord (row + 0x7E8) (setField (s.word64 (row + 0x7E8)) (2 * k) 2 st)
  if st = 0 then s else s.pokeWord (row + 0x7F0) (setField (s.word64 (row + 0x7F0)) (8 * k) 8 rown)

/-- The LOST entry that an access of a thread names (R267): its subarray. -/
def lostHold? (s : State) (th : Thread) (dp : Nat) : Option Nat :=
  if th.exec ≠ .bank then none else
    match s.locate dp with
    | some l => if l.exec = th.place ∧ s.holdState th.row l.sub = 3 ∧ s.holdRow th.row l.sub = l.rown then some l.sub else none
    | none => none

/-- The holds of a closing row (R266): SAVE entries are unbound, DROP entries become LOST, and their buffers OPEN; with kill, every
entry becomes NONE. -/
def releaseHolds (s : State) (th : Thread) (kill : Bool) : State :=
  if th.exec ≠ .bank then s else
    (List.range 8).foldl (fun s k =>
      let h := s.holdState th.row k
      let r := s.holdRow th.row k
      if h = 0 then s else
        let sub := th.place * 8 + k
        let s := if (s.subarray sub).buf = .held r th.id then s.setBuf sub (.opened r) else s
        if kill then s.setHold th.row k 0 0 else if h = 2 then s.setHold th.row k 3 r else s) s

/-- BSTAT of a row (R262). -/
def bstat (s : State) (row : Nat) : Word := s.word64 (row + 0x7E0)

/-- The thread has a transactional group open (R262). -/
def inGroup (s : State) (row : Nat) : Bool := field (s.bstat row) 0 1 == 1

/-- The thread is in in-memory work (R262, R282). -/
def inMem (s : State) (row : Nat) : Bool := field (s.bstat row) 24 1 == 1

/-- The group fields of BSTAT cleared. -/
def clearGroup (s : State) (th : Thread) : State :=
  let s := { s with shadows := s.shadows.filter (·.thread != th.id) }
  s.pokeWord (th.row + 0x7E0) (setField (setField (s.bstat th.row) 0 2 0) 8 16 0)

/-- A group is aborted (R278, R279): its shadows are discarded. -/
def abortGroup (s : State) (th : Thread) : State := if s.inGroup th.row then s.clearGroup th else s

/-- The store of a thread at a device-physical address is a group store (R277): it hits a bank window and names a data row in the
executor's own subarrays. -/
def isGroupStore (s : State) (th : Thread) (va dp : Nat) : Bool :=
  th.exec == .bank && s.inGroup th.row && (s.bankHit? th.place (s.asidOf th.row) va).isSome && s.tagOf dp == .data &&
    (match s.locate dp with
     | some l => l.exec == th.place
     | none => false)

/-- The shadow rows that a subarray can still give (R276). -/
def avail (exec k : Nat) : Nat := 8 - Config.repairedSpares (exec * 8 + k) % 9

/-- A shadow is reserved for a group's row (R277), or none is free. -/
def reserveShadow (s : State) (th : Thread) (row : Nat) : Option State :=
  if s.shadows.any (fun h => h.thread == th.id && h.row == row) then some s else
    match s.locate row with
    | none => none
    | some l =>
      let used := (s.shadows.filter fun h => h.thread == th.id &&
        (match s.locate h.row with
         | some m => m.sub == l.sub
         | none => false)).length
      if used < avail th.place l.sub then
        let s := { s with shadows := s.shadows ++ [(⟨th.id, row, false, []⟩ : Shadow)] }
        let b := s.bstat th.row
        let b := setField b 8 8 (field b 8 8 + 1)
        some (s.pokeWord (th.row + 0x7E0) (setField b (16 + l.sub) 1 1))
      else none

/-- The DRAIN of a group store (R277): the first one copies the row, and the bytes go into the shadow. A group store that TX.ABORT, START or REDIRECT
finds in the SB meets at its DRAIN no shadow and is dropped, or the shadow of the row in a later group and goes into it (DESIGN CHOICE, log entry 100). -/
def shadowWrite (s : State) (id dp : Nat) (bs : List Byte) : State :=
  let row := rowOf dp
  { s with shadows := s.shadows.map fun h =>
      if h.thread = id ∧ h.row = row then
        let ls := if h.copied then h.lines else (List.range 32).map fun i => leLine (s.mem.bytes (row + 64 * i) 64)
        let i := (dp - row) / 64
        let old := lineToBytes (ls.getD i 0)
        let o := dp % 64
        { h with copied := true, lines := setAt ls i (leLine (old.take o ++ bs ++ old.drop (o + bs.length))) }
      else h }

/-- The bytes that a group's thread reads from a shadow that has been copied (R277). -/
def shadowBytes? (s : State) (id dp n : Nat) : Option (List Byte) :=
  match s.shadows.find? fun h => h.thread == id && h.row == rowOf dp && h.copied with
  | none => none
  | some h => some (((lineToBytes (h.lines.getD ((dp - h.row) / 64) 0)).drop (dp % 64)).take n)

/-- COMMIT (R87, R278): every line of every shadowed row takes its new version in one move, as a line that the thread has written (R317, R330). -/
def commitGroup (s : State) (th : Thread) : State :=
  let mine := s.shadows.filter fun h => h.thread == th.id && h.copied
  let c := s.commits + 1
  let s := { s with commits := c, shadows := s.shadows.filter (·.thread != th.id) }
  mine.foldl (fun s h =>
    (List.range 32).foldl (fun s i =>
      let a := h.row + 64 * i
      let s := s.newVersion a c
      let s := { s with mem := s.mem.setBytes a (lineToBytes (h.lines.getD i 0)) }
      (s.viewNewest th.id a).noteWrote th.id a) s) s

/-- A new version of a line of a copied row dooms its group (R277): looked at over the lines of the present move. -/
def doomGroups (s : State) : State :=
  s.shadows.foldl (fun s h =>
    if h.copied ∧ s.touched.any (fun l => rowOf l == h.row) then
      match s.thread? h.thread with
      | none => s
      | some th => s.pokeWord (th.row + 0x7E0) (setField (s.bstat th.row) 1 1 1)
    else s) s

end State

end Sys2Proof.Machine
end

