-- ==== Sys2Proof/Machine/Accs.lean ====
section
/-!
DEFINITION. Accumulators (R230 to R236): the status word of the row, the marks of lines, the stores that a write-back makes, and
what a restore reads.
-/
namespace Sys2Proof.Machine

/-- An accumulator of no thread: unbound, with no contents. -/
def Acc.none : Acc := ⟨false, [], [], [], 0⟩

/-- An accumulator without its physical tile: the marks and codes of its lines stand (R231, R235). -/
def Acc.unbind (a : Acc) : Acc := { a with bound := false, lines := [] }

/-- Every line +0.0 and ZERO (R235, R246). -/
def Acc.zero : Acc := ⟨true, List.replicate 64 0, List.replicate 64 .zero, List.replicate 64 0, 0⟩

/-- Line j of an accumulator: row j div 2, columns 16 (j mod 2) and up (R234). -/
def Acc.line (a : Acc) (j : Nat) : Line := a.lines.getD j 0

/-- Element (i, j) as its FP32 bits (R230). -/
def Acc.elem (a : Acc) (i j : Nat) : Nat := bitsAt (a.line (2 * i + j / 16)).toNat (32 * (j % 16)) 32

/-- An accumulator from its elements: a line that changes becomes DIRTY (R235). -/
def Acc.ofElems (a : Acc) (f : Nat → Nat → Nat) : Acc :=
  let ls := (List.range 64).map fun l =>
    leLine ((List.range 16).flatMap fun c => leBytes 4 (f (l / 2) (16 * (l % 2) + c)))
  let marks := (List.range 64).map fun l =>
    if ls.getD l 0 = a.line l ∧ a.lines.length = 64 then a.marks.getD l .zero else LineMark.dirty
  { a with bound := true, lines := ls, marks := marks, codes := if a.codes.length = 64 then a.codes else List.replicate 64 0 }

/-- The accumulator k of a thread. -/
def Thread.acc (th : Thread) (k : Nat) : Acc := th.accs.getD k Acc.none

/-- A thread with an accumulator replaced. -/
def Thread.setAcc (th : Thread) (k : Nat) (a : Acc) : Thread :=
  let l := if th.accs.length = 4 then th.accs else List.replicate 4 Acc.none
  { th with accs := setAt l k a }

namespace State

/-- ASTAT of a row (R233). -/
def astat (s : State) (row : Nat) : Word := s.word64 (row + 0x7D0)

/-- The status of accumulator k (R230, R233): 0 NONE, 1 DEFINED, 2 LOST. -/
def accStatus (s : State) (row k : Nat) : Nat := field (s.astat row) (2 * k) 2

/-- INC of accumulator k (R233). -/
def accInc (s : State) (row k : Nat) : Bool := field (s.astat row) (8 + k) 1 == 1

/-- Status and INC of accumulator k written. -/
def setAccStatus (s : State) (row k st : Nat) (inc : Bool) : State :=
  s.pokeWord (row + 0x7D0) (setField (setField (s.astat row) (2 * k) 2 st) (8 + k) 1 inc.toNat)

/-- ASAVE of a row (R232). -/
def asave (s : State) (row : Nat) : Word := s.word64 (row + 0x7F8)

/-- ASAVE names a save area (R232). The check is made at the first define only; a restore or a write-back takes the whole word, rewritten since, as
the base (DESIGN CHOICE, log entry 103). -/
def asaveOk (w : Word) : Bool := w != 0 && field w 0 11 == 0 && field w 56 8 == 0

/-- Accumulators are discarded (R97, R124, R233): AST and AINC zero, no contents. -/
def dropAccs (s : State) (th : Thread) : State :=
  let s := s.pokeWord (th.row + 0x7D0) (setField (s.astat th.row) 0 12 0)
  s.updThread th.id fun t => { t with accs := [], matrix := [] }

/-- Some DEFINED accumulator of a thread has a DIRTY or ZERO line (R235). -/
def accsDirty (s : State) (th : Thread) : Bool :=
  (List.range 4).any fun k => s.accStatus th.row k == 1 && (th.acc k).bound && (th.acc k).marks.any (· != .saved)

end State

/-- Every 32-bit word of a line is the same (R235). -/
def lineRepeats (l : Line) : Bool := (List.range 16).all fun i => bitsAt l.toNat (32 * i) 32 == bitsAt l.toNat 0 32

/-- The code that a write-back gives line j of an accumulator (R235, steps 2 to 4). -/
def Acc.newCode (a : Acc) (j : Nat) : Nat :=
  match a.marks.getD j .zero with
  | .saved => a.codes.getD j 0
  | .zero => 0
  | .dirty => if lineRepeats (a.line j) then (if a.line j = 0 then 0 else 1) else 2

/-- The accumulator after a write-back: every line SAVED (R235, step 5). -/
def Acc.saved (a : Acc) : Acc :=
  { a with marks := List.replicate 64 .saved, codes := (List.range 64).map a.newCode }

/-- What an instruction in flight makes of an accumulator that is written back meanwhile: the lines that it does not change are SAVED (R231, R235). -/
def Acc.over (a old : Acc) : Acc :=
  { a with marks := (List.range 64).map fun j => if a.line j = old.line j then .saved else a.marks.getD j .dirty
           codes := (List.range 64).map old.newCode }

/-- The stores that the lines of accumulator k make (R235, steps 2 and 3): offset in the save area and bytes. -/
def Acc.lineStores (a : Acc) (k : Nat) : List (Nat × List Byte) :=
  (List.range 64).flatMap fun j =>
    if a.marks.getD j .zero = .dirty then
      (match a.newCode j with
       | 1 => [(0x200 + 0x100 * k + 4 * j, leBytes 4 (bitsAt (a.line j).toNat 0 32))]
       | 2 => [(0x800 + 0x1000 * k + 64 * j, lineToBytes (a.line j))]
       | _ => [])
    else []

/-- The stores of a write-back in order (R235), as offsets in the save area. -/
def State.writeBackStores (s : State) (th : Thread) : List (Nat × List Byte) :=
  let sseq := (field (s.astat th.row) 16 16 + 1) % 2 ^ 16
  let status := bitsAt (s.astat th.row).toNat 0 12 + sseq * 2 ^ 16
  let codes := (List.range 4).flatMap fun k =>
    leBytes 16 (if s.accStatus th.row k = 1 then
      (List.range 64).foldl (fun n j => n + (th.acc k).newCode j % 4 * 4 ^ j) 0 else 0)
  (0, leBytes 8 status) :: (0x40, codes) ::
    (List.range 4).flatMap fun k => if s.accStatus th.row k = 1 then (th.acc k).lineStores k else []

/-- SSEQ advanced and every line of every DEFINED accumulator SAVED (R235), in the results of instructions in flight too. -/
def State.markSaved (s : State) (th : Thread) : State :=
  let a := s.astat th.row
  let s := s.pokeWord (th.row + 0x7D0) (setField a 16 16 (field a 16 16 + 1))
  let here (t : Thread) (k : Nat) : Bool := s.accStatus th.row k == 1 && (t.acc k).bound
  s.updThread th.id fun t =>
    { t with accs := (List.range 4).map fun k => if here t k then (t.acc k).saved else t.acc k
             matrix := t.matrix.map fun m => { m with results := m.results.map fun r => (r.1, if here t r.1 then r.2.over (t.acc r.1) else r.2) } }

end Sys2Proof.Machine
end

