-- ==== Sys2Proof/Machine/Registers.lean ====
section
/-!
DEFINITION. What the registers of control space read as (R28, R29, R35, R39, R269, R274, R283, R363).
-/
namespace Sys2Proof.Machine

/-- The base addresses of the registers (R28, R29, R35, R39, R269, R274, R283, R363). -/
def ctlBoot : Nat := 0xF00000010000
/-- PKGPWR (R35). -/
def ctlPower : Nat := 0xF00000010040
/-- FARB (R363). -/
def ctlFarb : Nat := 0xF00000010080
/-- FARS (R363). -/
def ctlFars : Nat := 0xF00000010088
/-- ISLCTL of island 0 (R29). -/
def ctlIsl : Nat := 0xF00000020000
/-- ISLTEL of island 0 (R39). -/
def ctlTel : Nat := 0xF00000030000
/-- ACTREG of stack 0 (R269). -/
def ctlAct : Nat := 0xF00000050000
/-- ENCKE of stack 0 (R283). -/
def ctlEncke : Nat := 0xF00000058000
/-- ROWHM 0 of stack 0 (R274). -/
def ctlHash : Nat := 0xF00000060000

/-- BOOTSTAT (R28). -/
def Boot.word (b : Boot) : Word :=
  .ofNat 64 (b.stage % 16 + b.err % 256 * 2 ^ 8 + b.recov.toNat * 2 ^ 16 + b.rollback.toNat * 2 ^ 32)

/-- ISLCTL (R29). -/
def Island.ctl (i : Island) : Word :=
  .ofNat 64 (i.req % 4 + i.st % 4 * 4 + i.done.toNat * 16 + i.refuse % 256 * 2 ^ 8 + i.fcap % 2 ^ 16 * 2 ^ 16 +
    i.fnow % 2 ^ 16 * 2 ^ 32)

/-- ISLTEL (R39). -/
def Island.tel (i : Island) : Word := .ofNat 64 (i.pavg % 2 ^ 32 + i.temp.toNat * 2 ^ 32 + i.thr % 32 * 2 ^ 48)

/-- PKGPWR (R35). -/
def Power.word (p : Power) : Word := .ofNat 64 (p.pnow % 2 ^ 32 + p.plim % 2 ^ 16 * 2 ^ 32 + p.thr % 16 * 2 ^ 48)

namespace State

/-- QUIESCED of a stack (R274): no DPIT entry maps a page to it, no buffer is THREAD or HELD, every thread row is FREE, and no
group has a shadow there. -/
def quiesced (s : State) (stack : Nat) : Bool :=
  let maps (l : PageLoc) : Bool := match l with
    | .frame st _ => st == stack
    | .far _ => false
  (s.dpit.filter fun d => d.page / 2 ^ 20 == stack).length == 2 ^ 20 &&
    s.dpit.all (fun d => ! maps d.loc1 && ! ((d.st == .moving || d.st == .dup || d.st == .revert) && maps d.loc2)) &&
    s.subs.all (fun b => b.sub / 8 / 16384 != stack || (match b.buf with
      | .thread _ | .held _ _ => false
      | _ => true)) &&
    s.threads.all (fun th => (match s.locate th.row with
      | some l => l.stack != stack || s.code th.row == 0
      | none => true)) &&
    s.shadows.all (fun h => match s.locate h.row with
      | some l => l.stack != stack
      | none => true)

/-- Register word k of an array of registers with a stride, for index below a count. -/
def regIndex (a base stride count : Nat) : Option (Nat × Nat) :=
  if base ≤ a ∧ a < base + stride * count then some ((a - base) / stride, (a - base) % stride) else none

/-- ACTREG of a stack (R269). -/
def actWord (s : State) (r : StackRegs) : Word :=
  .ofNat 64 (0x1800 + r.lim % 2 ^ 16 * 2 ^ 16 + (r.grants.filter fun g => s.now < g.1 + 1000).length % 2 ^ 16 * 2 ^ 32 +
    r.step % 16 * 2 ^ 48 + r.fast.toNat * 2 ^ 52)

/-- The register at an 8-byte aligned control-space address; none where the manual places no register. -/
def readControl (s : State) (a : Nat) : Option Word :=
  if a = ctlBoot then some s.boot.word
  else if a = ctlPower then some s.power.word
  else if a = ctlFarb then some s.farb
  else if a = ctlFars then some s.fars
  else match regIndex a ctlIsl 0x40 32 with
  | some (i, 0) => (s.islands[i]?).map Island.ctl
  | some _ => none
  | none => match regIndex a ctlTel 0x10 32 with
    | some (i, 0) => (s.islands[i]?).map Island.tel
    | some _ => none
    | none => match regIndex a ctlAct 0x40 24 with
      | some (i, 0) => (s.stackRegs[i]?).map s.actWord
      | some _ => none
      | none => match regIndex a ctlEncke 0x40 24 with
        | some (i, 0) => (s.stackRegs[i]?).map fun r =>
            .ofNat 64 (r.lim1 % 2 ^ 24 + r.lim2 % 2 ^ 24 * 2 ^ 24 + r.resets % 2 ^ 16 * 2 ^ 48)
        | some _ => none
        | none => match regIndex a ctlHash 0x1000 24 with
          | some (i, o) => match s.stackRegs[i]? with
            | none => none
            | some r =>
              if o < 0x100 then (r.staged[o / 8]?).map (.ofNat 64)
              else if o < 0x200 then (r.active[(o - 0x100) / 8]?).map (.ofNat 64)
              else if o = 0x200 then
                some (.ofNat 64 ((s.quiesced i).toNat * 2 + r.refuse % 256 * 2 ^ 8 + r.done.toNat * 2 ^ 16))
              else none
          | none => none

/-- The bytes of a load from control space; none where a byte belongs to no register. -/
def controlBytes (s : State) (a n : Nat) : Option (List Byte) :=
  (List.range n).mapM fun i =>
    (s.readControl ((a + i) / 8 * 8)).map fun w => w.extractLsb' (8 * ((a + i) % 8)) 8

end State

end Sys2Proof.Machine
end

