-- ==== Sys2Proof/Machine/Ops.lean ====
section
/-!
DEFINITION. The shared operations on threads: violation records (R19, R370), taking a fault (R113 to R116), beginning a close
(R366), the commands (R95 to R100, R121), and stores to thread rows (R4, R91, R95).
-/
namespace Sys2Proof.Machine

/-- No thread's identifier. -/
def noThread : Nat := 2 ^ 64

/-- The bits of a byte of a thread row that a store writes (R4, R91, R177, R233, R262); word 0 is written by R95 alone. The reserved fields of a
stream slot, which R177 gives RW, keep what is written (DESIGN CHOICE, log entry 93). -/
def rowMask (o : Nat) : Byte :=
  if o < 8 then 0
  else if o < 16 then 0xFF
  else if o < 32 then 0
  else if o < 36 then 0xFF
  else if o < 40 then 0
  else if o < 56 then 0xFF
  else if o = 56 then 0xFE
  else if o = 57 then 0xCF
  else if 0x80 ≤ o ∧ o < 0x88 then 0
  else if 0x7D0 ≤ o ∧ o < 0x7D8 then 0
  else if 0x7E0 ≤ o ∧ o < 0x7F8 then 0
  else 0xFF

namespace State

/-- The bytes that a store leaves in a row: in a thread row each field takes the effect of its access code (R6). -/
def masked (s : State) (a : Nat) (bs : List Byte) : List Byte :=
  if s.inThreadRow a then
    ((s.mem.bytes a bs.length).zip bs).mapIdx fun i p =>
      let m := rowMask ((a + i) % rowBytes)
      (p.1 &&& ~~~m) ||| (p.2 &&& m)
  else bs

/-- A write of the hub lands (R394): plain bytes, and never a command; a message's granules become F. -/
def landHub (s : State) (a : Nat) (bs : List Byte) (fill : Bool) : State :=
  let s := s.poke a (s.masked a bs)
  if fill then s.setGran a bs.length .full else s

/-- A write of the hub within one line (R69, R73, R259): it joins the outside queue of an open row, lands once its row can be reached, or
waits behind the writes of its line that wait. -/
def hubPart (s : State) (a : Nat) (bs : List Byte) (fill : Bool) : State :=
  let late (s : State) : State := { s with hubWrites := s.hubWrites ++ [(⟨a, bs, .hub fill⟩ : HubWrite)] }
  if s.hubWrites.any (fun w => lineOf w.dp == lineOf a) then late s
  else match s.openAt? a with
    | some u => s.enqueue u.id (.write none a bs (.hub fill))
    | none => match s.reach (hubParty (rowOf a)) a true with
      | .ok s => s.landHub a bs fill
      | .wait s _ => late s

/-- A write that the hub makes through a ring of a tenant (R394), line by line. -/
def hubPoke (s : State) (a : Nat) (bs : List Byte) (fill : Bool := false) : State :=
  (lineParts a bs.length).foldl (fun s p => s.hubPart p.1 ((bs.drop (p.1 - a)).take p.2) fill) s

/-- The third word of a violation record (R370). -/
def violWord (kind srcTenant smod : Nat) (host : Bool) (count : Nat) : Word :=
  .ofNat 64 (kind % 256 + srcTenant % 64 * 2 ^ 8 + smod % 4096 * 2 ^ 14 + host.toNat * 2 ^ 26 + count % 2 ^ 16 * 2 ^ 32)

/-- A write of the hub into the log ring of a tenant (R259, R370, R394): it is made once the walk for its slot can be, after those that wait; a slot
with no mapping takes nothing. -/
def ringWrite (s : State) (tenant va : Nat) (bs : List Byte) : State :=
  let late (s : State) : State := { s with ringWrites := s.ringWrites ++ [(⟨tenant, va, bs⟩ : RingWrite)] }
  if s.ringWrites.any (·.tenant == tenant) then late s
  else match s.tenant? tenant with
    | none => s
    | some t => match s.reachPosting t va with
      | .wait s _ => late s
      | .ok s => match s.hubTranslate t va .write with
        | some dp => s.hubPoke dp bs
        | none => s

/-- The records that waited for their walks are tried again, in their order. -/
def flushRings (s : State) : State :=
  s.ringWrites.foldl (fun s w => s.ringWrite w.tenant w.va w.bytes) { s with ringWrites := [] }

/-- The virtual address of record n of a tenant's log ring (R353, R370). -/
def vlogVa (t : Tenant) (n : Nat) : Nat := ringBase t.vlog + n % 2 ^ ringLog t.vlog * 32

/-- A new record of a violation: in the device log, and in the tenant's ring. -/
def newViolation (s : State) (t : Tenant) (key : Nat × Nat × Nat × Nat) (body : List Word) : State :=
  let s := s.setTenant { t with vlogn := t.vlogn + 1, lastViolation := some (key.1, key.2.1, key.2.2.1, key.2.2.2, t.vlogn, s.log.length) }
  (s.logRec .violation body).ringWrite t.num (vlogVa t t.vlogn) (body.flatMap wordBytes)

/-- A violation (R19, R370): one record in the tenant's log ring and one in the device log, or the count of the tenant's previous
record raised when source, kind, page and microsecond match. -/
def violate (s : State) (logTenant kind : Nat) (addr row : Word) (srcTenant smod : Nat) (host : Bool) : State :=
  let body (count : Nat) : List Word := [addr, row, violWord kind srcTenant smod host count, .ofNat 64 s.now]
  match s.tenant? logTenant with
  | none => s.logRec .violation (body 1)
  | some t =>
    let src := if row = 0 then srcTenant * 2 ^ 14 + smod * 2 + host.toNat else row.toNat * 2 ^ 32
    let key := (src, kind, addr.toNat / pageBytes, s.now / 1000)
    match t.lastViolation with
    | some (src', kind', page', us', n, i) =>
      if (src', kind', page', us') ≠ key then s.newViolation t key (body 1) else
        let c := match s.log[i]? with
          | some r => min (field (r.body.getD 2 0) 32 16 + 1) 65535
          | none => 1
        let s := { s with log := match s.log[i]? with
          | some r => setAt s.log i { r with body := setAt r.body 2 (violWord kind srcTenant smod host c) }
          | none => s.log }
        s.ringWrite t.num (vlogVa t n + 16) (wordBytes (violWord kind srcTenant smod host c))
    | none => s.newViolation t key (body 1)

/-- A violation by a thread; an access to control space has kind 8 (R19, R370). -/
def violateBy (s : State) (th : Thread) (kind : Nat) (addr : Word) : State :=
  let kind := if kind ≤ 3 ∧ 0xF00000000000 ≤ addr.toNat ∧ addr.toNat < 0x1000000000000 then 8 else kind
  s.violate (s.tenantOf th.row) kind addr (s.rowVa th) (s.tenantOf th.row) (s.modid.toNat % 4096) false

/-- The word-0 bits of WAITING with a kind and argument (R103). -/
def waitBits (wkind warg : Nat) : Nat := 4 + wkind % 16 * 2 ^ 16 + warg % 2 ^ 12 * 2 ^ 20

/-- STATE, WKIND and WARG written together. -/
def setWord0 (s : State) (row bits : Nat) : State :=
  let w := s.ctrl row 0
  s.pokeWord row (setField (setField w 0 4 bits) 16 16 (bits / 2 ^ 16))

/-- The state a command or a queued access meets: the one a close in progress will give, or the row's (R98, R100). -/
def logical (s : State) (th : Thread) : Nat :=
  match th.closing with
  | some b => b % 16
  | none => s.code th.row

/-- A close begins (R77, R366): the row takes these word-0 bits when its store buffer has drained. -/
def beginClose (s : State) (id bits : Nat) : State :=
  s.updThread id fun th => { th with closing := some bits, deferred := none }

/-- The state takes the logical state of a thread: at the end of its close when it is open, at once when it is closed. -/
def setLogical (s : State) (id bits : Nat) : State :=
  match s.thread? id with
  | none => s
  | some th =>
    let since := if s.logical th = 2 then th.readyAt else s.ticksOf th
    let s := s.updThread id fun th => { th with stall := if bits % 16 = 4 then th.stall else none, readyAt := since }
    if th.slot.isSome then s.beginClose id bits
    else s.setWord0 th.row bits

/-- PROG and LACT become zero (the Clear of R97; WKIND and WARG follow with the state). -/
def clearProgress (s : State) (row : Nat) : State := (s.setCtrl row 0 32 32 0).setCtrl row 4 32 1 0

/-- A pending spawn request is cancelled (R121). -/
def cancelSpawn (s : State) (id : Nat) : State :=
  s.updThread id fun th => { th with spawn := th.spawn.map fun q => { q with cancelled := true } }

/-- A walk that a thread has asked for is given up: its request leaves the queue, and a running walk has no requester (R251). -/
def dropWalk (s : State) (id : Nat) : State :=
  { s with skinks := s.skinks.map fun k =>
      { k with queue := k.queue.filter (·.thread != id), ends := k.ends.filter (·.1 != id)
               cur := k.cur.map fun q => if q.thread = id then { q with thread := noThread } else q } }

/-- The next issue is from the PC word, with the checks of a transfer or without them (R92, R97). -/
def takePc (s : State) (id : Nat) (checked : Bool) : State :=
  match s.thread? id with
  | none => s
  | some th =>
    let pc := s.pcWord th.row
    (s.dropWalk id).updThread id fun th =>
      { th.askAnew with ip := pc, check := if checked then some ⟨true, none, none⟩ else none, fbuf := []
                        split := none, staged := [], reserved := none }

/-- What a thread waits for and claims is given up. -/
def endWait (s : State) (id : Nat) : State :=
  (s.updThread id fun th => { th with stall := none }).dropClaims (id + 1)

/-- KILL and TH.EXIT (R97, R124, R266, R279): accumulators are discarded, holds dropped and a group aborted. -/
def killState (s : State) (th : Thread) : State :=
  ((((s.dropWalk th.id).abortGroup th).releaseHolds th true).dropAccs th)

/-- A FIXED row that is FREE becomes a DATA row (R90, R97). -/
def rowToData (s : State) (th : Thread) : State :=
  let s := s.setTag th.row .data
  { s with threads := s.threads.filter (·.id != th.id) }

/-- The mark of a close whose row is a DATA row already: KILL taken against FREE while the row is closing (R98). -/
def dataBits : Nat := 2 ^ 32

/-- The effect of START (R97). -/
def cmdStart (s : State) (th : Thread) : State :=
  match s.logical th with
  | 0 | 1 =>
    let s := (s.abortGroup th).clearProgress th.row
    let s := s.pokeWord (th.row + 0x18) 0
    let s := ((s.cancelSpawn th.id).takePc th.id true).endWait th.id
    s.setLogical th.id 2
  | _ => s.cancelSpawn th.id

/-- The effect of STOP (R97). -/
def cmdStop (s : State) (th : Thread) : State :=
  match s.logical th with
  | 2 | 3 => (s.dropClaims (th.id + 1)).setLogical th.id 1
  | 4 => ((s.clearProgress th.row).endWait th.id).setLogical th.id 1
  | 6 => (s.setWord0 th.row 6).endWait th.id
  | _ => s

/-- The effect of REDIRECT (R97). -/
def cmdRedirect (s : State) (th : Thread) : State :=
  match s.logical th with
  | 1 | 2 | 4 | 5 =>
    let s := (s.abortGroup th).clearProgress th.row
    let s := if s.logical th = 5 then s.setCtrl th.row 3 0 8 0 else s
    let s := ((s.cancelSpawn th.id).takePc th.id true).endWait th.id
    s.setLogical th.id 2
  | 3 =>
    let s := (s.abortGroup th).clearProgress th.row
    ((s.cancelSpawn th.id).takePc th.id true).endWait th.id
  | _ => s

/-- A spawn request of a thread still pending (R121). -/
def spawnPending (th : Thread) : Bool :=
  match th.spawn with
  | some q => ! q.cancelled
  | none => false

/-- The effect of RESUME (R97, R121); with a PC word that was written, a walk asked for before is given up (R251). -/
def cmdResume (s : State) (th : Thread) : State :=
  match s.logical th with
  | 1 => if spawnPending th then s.setLogical th.id (waitBits 0xA 0) else
      let pc := s.pcWord th.row
      let written := s.ctrlField th.row 7 12 1 == 1
      let s := if written then s.dropWalk th.id else s
      (s.updThread th.id fun t => { (if written then t.askAnew else t) with ip := pc, check := none }).setLogical th.id 2
  | 5 => (s.updThread th.id fun t => { t with check := none }).setLogical th.id 2
  | _ => s

/-- The effect of KILL (R97). -/
def cmdKill (s : State) (th : Thread) : State :=
  match s.logical th with
  | 0 =>
    if s.tagOf th.row = .fixed then
      (if th.slot.isSome then (s.setTag th.row .data).updThread th.id fun t => { t with closing := some dataBits } else s.rowToData th)
    else s
  | _ =>
    let s := (s.cancelSpawn th.id).killState th
    let s := s.updThread th.id fun t => { t.askAnew with check := none, split := none, staged := [], reserved := none }
    (s.endWait th.id).setLogical th.id 0

/-- The effect of STEP (R97, R121): the PC word is taken, with its check, only when PCW is set. -/
def cmdStep (s : State) (th : Thread) : State :=
  match s.logical th with
  | 1 =>
    if spawnPending th then s.setLogical th.id (waitBits 0xA 0) else
      let pcw := s.ctrlField th.row 7 12 1 = 1
      let s := if pcw then s.takePc th.id true else s.updThread th.id fun t => { t with check := none }
      (s.setCtrl th.row 7 13 1 1).setLogical th.id 2
  | _ => s

/-- The effect of a command on a row, for the state in which it is taken (R97). SSTEP is cleared first. -/
def takeCommand (s : State) (id cmd : Nat) : State :=
  match s.thread? id with
  | none => s
  | some th =>
    let s := if s.ctrlField th.row 7 13 1 = 1 then s.setCtrl th.row 7 13 1 0 else s
    match cmd with
    | 1 => s.cmdStart th
    | 2 => s.cmdStop th
    | 3 => s.cmdRedirect th
    | 4 => s.cmdResume th
    | 5 => s.cmdKill th
    | 6 => s.cmdStep th
    | _ => s

/-- A unit of H.REHASH is between its moves (R304, R305). -/
def splitBusy (th : Thread) : Bool :=
  match th.split with
  | some p => decide (p.stage < 4)
  | none => false

/-- A command reaches a row (R95, R96): during a unit of H.REHASH it waits for move (c) (R305), a walker's row takes it after the walk (R253), and an EVICTED row keeps it in CMD, KILL and
STOP apart; codes 7 to 15 are cleared and recorded
as a violation of kind 9. -/
def command (s : State) (th : Thread) (src : Option Nat) (cmd : Nat) (mark : StoreMark := .plain) : State :=
  if cmd = 0 then s
  else if 7 ≤ cmd then
    let local_ := s.modid.toNat % 4096
    match src.bind s.thread?, mark with
    | some u, _ => s.violate (s.tenantOf th.row) 9 (.ofNat 64 th.row) (s.rowVa u) (s.tenantOf u.row) local_ false
    | none, .outside tenant smod host => s.violate (s.tenantOf th.row) 9 (.ofNat 64 th.row) 0 tenant smod host
    | none, _ => s.violate (s.tenantOf th.row) 9 (.ofNat 64 th.row) 0 (s.tenantOf th.row) local_ false
  else if th.exec = .walker then
    { s with skinks := s.skinks.map fun k =>
        if k.cluster = th.place then { k with heldCommands := k.heldCommands ++ [(th.row, cmd)] } else k }
  else if splitBusy th then s.updThread th.id fun t => { t with heldCmds := t.heldCmds ++ [cmd] }
  else if s.logical th = 6 then
    (if cmd = 5 ∨ cmd = 2 then (s.setCtrl th.row 0 4 4 0).takeCommand th.id cmd else s.setCtrl th.row 0 4 4 cmd)
  else s.takeCommand th.id cmd

/-- A store of bytes within one line of a thread row (R91, R95): the fields take the effect of their codes, the PC word's mark is
set for another party's store, and a store that covers bytes 0 to 7 writes PRIO and posts its command. -/
def storeRow (s : State) (th : Thread) (src : Option Nat) (a : Nat) (bs : List Byte) (mark : StoreMark := .plain) : State :=
  let o := a - th.row
  let n := bs.length
  let s := s.poke a (s.masked a bs)
  let s := if src ≠ some th.id ∧ o < 16 ∧ 8 < o + n then s.setCtrl th.row 7 12 1 1 else s
  if o = 0 ∧ 8 ≤ n then
    let p := (bs.getD 1 0).toNat
    let s := if p ≠ 0 then s.setCtrl th.row 0 8 8 p else s
    let cmd := (bs.getD 0 0).toNat / 16
    if src = some th.id ∧ th.slot.isSome then s.updThread th.id fun t => { t with ownCmd := cmd } else s.command th src cmd mark
  else if o < 8 then s.logRec .partialCommand [.ofNat 64 a]
  else s

/-- A row of a tile, of the stacks or of a service core's own memory, which a START-DATA can make a thread row (R64, R90). -/
def canStart (s : State) (row : Nat) : Bool :=
  match s.region row with
  | .tile _ | .dram | .core => true
  | _ => false

/-- The words that START-DATA writes (R119): a DATA row becomes a FIXED thread row with the issuer's identity. -/
def startWords (s : State) (src : Option Nat) (prio : Byte) (row : Nat) : State :=
  let ident := match src.bind s.thread? with
    | some t => bitsAt (s.ctrl t.row 2).toNat 0 18
    | none => 0
  let s := s.setTag row .fixed
  let w0 := 2 + prio.toNat * 2 ^ 8
  let s := s.pokeWord row (.ofNat 64 w0)
  let tier := match s.region row with
    | .dram => 1
    | _ => 0
  let s := s.pokeWord (row + 0x10) (.ofNat 64 (ident + tier * 2 ^ 42))
  let s := s.pokeWord (row + 0x18) 0
  let s := s.setCtrl row 4 32 32 0
  let s := s.pokeWord (row + 0x7D0) 0
  s.poke (row + 0x7E0) (List.replicate 24 0)

/-- The thread that START-DATA begins (R119), its words written. -/
def startThread (s : State) (row : Nat) (va : Word) : Thread :=
  let kind : ExecKind := match s.region row with
    | .tile _ => .tile
    | .dram => .bank
    | _ => .service
  let place := match s.region row with
    | .tile t => t
    | .dram => (match s.locate row with
      | some l => l.exec
      | none => 0)
    | _ => (row - 2 ^ 48) / 2 ^ 40
  let th : Thread :=
    { (default : Thread) with id := s.nextId, row := row, va := va, exec := kind, place := place, ip := s.pcWord row,
                              check := some ⟨true, none, none⟩, view := s.newestView }
  { th with readyAt := s.ticksOf th }

/-- START-DATA (R119). -/
def startData (s : State) (src : Option Nat) (prio : Byte) (row : Nat) (va : Word) : State :=
  let s := s.startWords src prio row
  { s with threads := s.threads ++ [s.startThread row va], nextId := s.nextId + 1 }

/-- START-DATA reaches a row that has become a DATA row in the close that still goes on (R98, R119): the new thread takes the row over as the close
leaves it, READY, with the store buffer and the outside queue that the close has yet to empty. -/
def restartData (s : State) (src : Option Nat) (prio : Byte) (th : Thread) (va : Word) : State :=
  let s := s.startWords src prio th.row
  let new := s.startThread th.row va
  s.updThread th.id fun t =>
    { new with id := t.id, slot := t.slot, openedAt := t.openedAt, closing := some 2, sb := t.sb, oq := t.oq, oqAt := t.oqAt
               appliedSince := t.appliedSince, issued := t.issued, asks := t.asks + 1, fbuf := [], matrix := t.matrix }

/-- Bytes of a party reach M within one line (R73, R76): plain memory takes them, a thread row by its codes, and the mark of
TH.START makes a DATA row a thread row. The row is closed, or stands at the boundary of an APPLY. -/
def landStore (s : State) (src : Option Nat) (a : Nat) (bs : List Byte) (mark : StoreMark) : State :=
  match s.threadAt? (rowOf a) with
  | some th =>
    (match mark with
     | .hub fill => s.landHub a bs fill
     | .startData prio va =>
       if s.inThreadRow a then s.storeRow th src a bs mark
       else if s.canStart (rowOf a) then (s.poke a bs).restartData src prio th va
       else s.poke a bs
     | _ => if s.inThreadRow a then s.storeRow th src a bs mark else s.poke a bs)
  | none =>
    match mark with
    | .hub fill => s.landHub a bs fill
    | .startData prio va =>
      let s := s.poke a bs
      if s.tagOf a = .data ∧ s.canStart (rowOf a) then s.startData src prio (rowOf a) va else s
    | _ => s.poke a bs

/-- A store within one line of a party outside the rows (R69, R73, R259): it joins the outside queue of an open row, takes its move once its
row can be reached, or waits behind the stores to its line that wait. -/
def outsidePart (s : State) (a : Nat) (bs : List Byte) (mark : StoreMark) : State :=
  let late (s : State) : State := { s with hubWrites := s.hubWrites ++ [(⟨a, bs, mark⟩ : HubWrite)] }
  if s.hubWrites.any (fun v => lineOf v.dp == lineOf a) then late s
  else match s.openAt? a with
    | some u => s.enqueue u.id (.write none a bs mark)
    | none => match s.reach (hubParty (rowOf a)) a true with
      | .ok s => s.landStore none a bs mark
      | .wait s _ => late s

/-- The hub's writes that waited are tried again, in their order (R261). -/
def flushHub (s : State) : State :=
  s.hubWrites.foldl (fun s w => match w.mark with
    | .hub fill => s.hubPart w.dp w.bytes fill
    | m => s.outsidePart w.dp w.bytes m) { s with hubWrites := [] }

/-- The executor code of a fault message (R114). -/
def execCode : ExecKind → Nat
  | .tile => 0 | .bank => 1 | .walker => 2 | .service => 3

/-- The fault message of a thread (R114). -/
def faultMessage (s : State) (th : Thread) (c : Cause) (data : Word) (seq : Nat) : Line :=
  leLine (([s.rowVa th, s.ctrl th.row 3, data, s.pcWord th.row,
    (.ofNat 64 (c.code + execCode th.exec * 2 ^ 8 + seq % 2 ^ 32 * 2 ^ 16) : Word), 0, 0, 0]).flatMap wordBytes)

/-- The message of a fault goes to the tenant's fault mailbox, or to the device log with MSI-X vector 0 (R114 to R116). -/
def sendFault (s : State) (th : Thread) (c : Cause) (data : Word) : State :=
  let tn := s.tenantOf th.row
  match s.tenant? tn with
  | none => s.logRec .faultMessage [s.rowVa th, s.ctrl th.row 3, data, s.pcWord th.row, .ofNat 64 c.code]
  | some t =>
    let seq := (t.faultSeq + 1) % 2 ^ 32
    let msg := s.faultMessage th c data seq
    let own := s.rowVa th
    let s := s.setTenant { t with faultSeq := seq }
    if t.svcrow = 0 ∨ t.svcrow = own ∨ th.exec = .service then
      (s.logRec .faultMessage [own, s.ctrl th.row 3, data, s.pcWord th.row,
        .ofNat 64 (c.code + execCode th.exec * 2 ^ 8 + seq % 2 ^ 32 * 2 ^ 16)]).raise tn 0
    else s.setTenant { t with faultSeq := seq, posts := t.posts ++ [(msg, th.id)] }

/-- A walk ends with a fault (R253): the requester takes the cause. -/
def failWalk (s : State) (th : Thread) (c : Cause) : State :=
  if th.exec ≠ .walker then s else
    { s with skinks := s.skinks.map fun k =>
        if k.cluster = th.place then
          match k.cur with
          | some q => { k with cur := none, emitted := [], issues := 0, ends := k.ends ++ [(q.thread, .fault c)] }
          | none => k
        else k }

/-- A unit of H.REHASH whose keys its thread will not read now goes on to its move (c) (R305). -/
def giveUp (c : Cause) (data : Word) (sp : Split) : Split :=
  if 2 ≤ sp.stage then sp else { sp with stage := 3 * sp.stage, failed := some (c, data) }

/-- TAKING A FAULT (R113): the fault word receives the cause and the faulting instruction's address, the PC word keeps that
address, PROG keeps its progress, a walk that the instruction has asked for is given up (R251), a unit of H.REHASH reads no keys (R305), STATE becomes FAULTED at the end of the close that
begins, and the message is sent. -/
def takeFault (s : State) (id : Nat) (c : Cause) (data : Word) : State :=
  match s.thread? id with
  | none => s
  | some th =>
    let ip := th.ip.toNat
    let s := s.pokeWord (th.row + 0x18) (.ofNat 64 (c.code + ip % 8 * 2 ^ 8 + bitsAt ip 6 50 * 2 ^ 11))
    let s := s.pokeWord (th.row + 0x08) th.ip
    let s := if s.ctrlField th.row 7 13 1 = 1 then s.setCtrl th.row 7 13 1 0 else s
    let s := s.updThread id fun t => { t.askAnew with check := none, stall := none, split := t.split.map (giveUp c data) }
    let s := ((s.dropWalk id).dropClaims (id + 1)).beginClose id 5
    (s.sendFault th c data).failWalk th c

end State

end Sys2Proof.Machine
end

