-- ==== Sys2Proof/Machine/Hash.lean ====
section
/-!
DEFINITION. Retrieval tables (R287 to R305): descriptors, signatures, buckets with their chains, Lookup, and the effect of one
HAPPLY move.
-/
namespace Sys2Proof.Machine

/-- A finaliser of 64-bit hashes (R291). -/
def mix64 (z : Nat) : Nat :=
  let z := Nat.xor z (z / 2 ^ 33) * 0xFF51AFD7ED558CCD % 2 ^ 64
  let z := Nat.xor z (z / 2 ^ 33) * 0xC4CEB9FE1A85EC53 % 2 ^ 64
  Nat.xor z (z / 2 ^ 33)

/-- The generator G (R291). -/
def hashGen (seed : Word) (t b j : Nat) : Nat :=
  mix64 (Nat.xor (Nat.xor (Nat.xor seed.toNat (t * 2 ^ 24 % 2 ^ 64)) (b * 2 ^ 16 % 2 ^ 64)) (j % 2 ^ 64))

/-- The real value of an input element; NaN and zeros give 0 (R291). -/
def hashVal (fmt : ElemType) (c : Nat) : Rl :=
  match elemValue fmt c with
  | .nan => .fin false 0 0
  | .fin _ 0 _ => .fin false 0 0
  | v => v

/-- Bit b of the SRP signature of table t (R292). -/
def srpBit (h : HashCtx) (t b : Nat) (xs : List Nat) : Bool :=
  let step (acc : Nat × Rl × Int) (c : Nat) : Nat × Rl × Int :=
    let (i, sum, infs) := acc
    let minus := hashGen h.seed t b (i / 64) / 2 ^ (i % 64) % 2 == 1
    match hashVal h.fmt c with
    | .inf n => (i + 1, sum, if n = minus then infs + 1 else infs - 1)
    | v => (i + 1, sum.add (if minus then v.negate else v), infs)
  let (_, sum, infs) := xs.foldl step (0, .fin false 0 0, 0)
  decide (infs > 0) || (infs == 0 && (Rl.fin false 0 0).lt sum)

/-- The DWTA code of bin c before borrowing: none for an empty bin (R293). -/
def dwtaBin (h : HashCtx) (t c : Nat) (xs : List Nat) : Option Nat :=
  let w := 2 ^ 2 ^ h.lw
  ((List.range w).foldl (fun (best : Option (Rl × Nat)) k =>
    let y := hashVal h.fmt (xs.getD (hashGen h.seed t c (1024 + k) % xs.length) 0)
    if y.isZero then best else match best with
      | none => some (y, k)
      | some (b, _) => if b.lt y then some (y, k) else best) none).map (·.2)

/-- The signature of an input under a table (R292, R293). -/
def signature (h : HashCtx) (t : Nat) (xs : List Nat) : Nat :=
  if h.fam = 0 then (List.range 16).foldl (fun n b => n + (srpBit h t b xs).toNat * 2 ^ b) 0
  else
    let width := 2 ^ h.lw
    let w := 2 ^ width
    let nb := 16 / width
    let bins := (List.range nb).map fun c => dwtaBin h t c xs
    let code (c : Nat) : Nat := match bins.getD c none with
      | some k => k
      | none => match ((List.range nb).drop 1).find? fun r => (bins.getD ((c + r) % nb) none).isSome with
        | some r => (((bins.getD ((c + r) % nb) none).getD 0) + r) % w
        | none => 0
    (List.range nb).foldl (fun n c => n + code c % 2 ^ width * 2 ^ (width * c)) 0

/-- The fields of a descriptor (R287), from its words. -/
def hashDesc (desc : Nat) (w : List Word) : HashCtx :=
  let c := w.getD 0 0
  { desc := desc, descVa := 0, fam := field c 0 2, kb := field c 2 5, kmax := field c 7 5, l := field c 12 7, pol := field c 19 2
    fmt := .ofCode (field c 21 4), lw := field c 25 2, dim := field c 27 11, seed := w.getD 1 0
    bkt := (w.getD 2 0).toNat, bst := (w.getD 3 0).toNat, keys := (w.getD 4 0).toNat, pl := (w.getD 6 0).toNat
    kstr := field (w.getD 5 0) 0 32, pn := field (w.getD 5 0) 32 32, pages := [] }

/-- The configuration and seed words are valid, and the tables named exist (R288; all that H.SIG checks). -/
def hashHeadOk (c : Word) (h : HashCtx) (last : Nat) : Bool :=
  decide (h.fam < 2) && h.pol != 3 && [0x2, 0x3, 0x4, 0x5].contains (field c 21 4) && decide (1 ≤ h.kb ∧ h.kb ≤ 16) &&
    decide (h.kb ≤ h.kmax ∧ h.kmax ≤ 16) && decide (1 ≤ h.l ∧ h.l ≤ 64) && decide (1 ≤ h.dim ∧ h.dim ≤ 1024) &&
    (h.fam == 0 || h.lw != 3) && field c 38 26 == 0 && decide (last ≤ h.l)

/-- The whole descriptor is valid (R288). -/
def hashOk (w : List Word) (h : HashCtx) (last : Nat) : Bool :=
  hashHeadOk (w.getD 0 0) h last &&
    [h.bkt, h.bst, h.keys, h.pl].all (fun a => decide (a < 2 ^ 56)) && h.bkt % 256 == 0 && h.bst % 16 == 0 &&
    h.keys % 64 == 0 && h.pl % 256 == 0 && w.getD 15 0 == 0 && h.kstr % 64 == 0 &&
    decide (32 * h.dim * h.fmt.bytes ≤ h.kstr)

/-- The address of bucket i of table t (R289). -/
def HashCtx.bucketVa (h : HashCtx) (t i : Nat) : Nat := h.bkt + 256 * (t * 2 ^ h.kmax + i)

/-- The address of its status record (R289). -/
def HashCtx.statusVa (h : HashCtx) (t i : Nat) : Nat := h.bst + 16 * (t * 2 ^ h.kmax + i)

/-- The address of pool bucket p (R289). -/
def HashCtx.poolVa (h : HashCtx) (p : Nat) : Nat := h.pl + 256 * p

/-- The address of its status record (R289). -/
def HashCtx.poolStatusVa (h : HashCtx) (p : Nat) : Nat := h.pl + 256 * h.pn + 16 * p

/-- The ranges whose pages are translated at issue (R296, step 4): bases and lengths. -/
def HashCtx.ranges (h : HashCtx) : List (Nat × Nat) :=
  [(h.bkt, 256 * h.l * 2 ^ h.kmax), (h.bst, 16 * h.l * 2 ^ h.kmax), (h.pl, (256 + 16) * h.pn)].filter (·.2 != 0)

/-- The device-physical address that the translations made at issue give. A NEXT or FREE index of PN or more, a bucket beyond the ranges checked, or
a base stored since, can lead beyond their pages, and where it leads then is a free value (DESIGN CHOICE, log entry 105). -/
def HashCtx.dp (h : HashCtx) (va : Nat) : Nat :=
  ((assoc h.pages (va / pageBytes)).getD (Config.strayPage (va / pageBytes))) * pageBytes + va % pageBytes

/-- The line parts of a range in the table, through the same translations. -/
def HashCtx.dpParts (h : HashCtx) (va n : Nat) : List (Nat × Nat) := (lineParts va n).map fun p => (h.dp p.1, p.2)

/-- The address of a word of the descriptor (R287). -/
def HashCtx.word (h : HashCtx) (o : Nat) : Nat := h.dp (h.descVa + o)

/-- The mark of an empty slot (R289). -/
def emptySlot : Nat := 0xFFFFFFFF

namespace State

/-- The first line of a table's descriptor is uncorrectable: every HAPPLY acts by it (R302). -/
def headBad (s : State) (h : HashCtx) : Bool := s.poisoned (lineOf (h.word 0)) lineBytes

/-- A table as M's newest descriptor lines describe it (R287, R302); the checks and translations made at issue stand (R296). One whose first line
is uncorrectable is ordered as it was described before (DESIGN CHOICE, log entry 81). -/
def hashNow (s : State) (h : HashCtx) : HashCtx :=
  if s.headBad h then h else
  { hashDesc h.desc ((List.range 16).map fun k => s.word64 (h.word (8 * k))) with descVa := h.descVa, pages := h.pages }

/-- The pending parts with their tables as M's newest descriptors describe them (R302). -/
def partsNow (s : State) : State := { s with parts := s.parts.map fun (p : HashPart) => { p with hash := s.hashNow p.hash } }

/-- A 32-bit value of M. -/
def word32 (s : State) (a : Nat) : Nat := leNat (s.mem.bytes a 4)

/-- The 64 entries of a bucket. -/
def bucketEntries (s : State) (a : Nat) : List Nat := (List.range 64).map fun k => s.word32 (a + 4 * k)

/-- The pool buckets of a chain, from the NEXT field, at most n of them (R290). -/
def chainFrom (s : State) (h : HashCtx) : Nat → Nat → List Nat
  | 0, _ => []
  | n + 1, next =>
    if next = 0 then [] else
      (next - 1) :: chainFrom s h n (field (s.word64 (h.dp (h.poolStatusVa (next - 1)) + 8)) 32 32)

/-- The chain of bucket i of table t (R290). -/
def chain (s : State) (h : HashCtx) (t i : Nat) : List Nat :=
  let w := s.word64 (h.dp (h.statusVa t i) + 8)
  s.chainFrom h (field w 8 3) (field w 32 32)

/-- The addresses of a bucket and its chain buckets, in order. -/
def chainAddrs (s : State) (h : HashCtx) (t i : Nat) : List Nat :=
  h.dp (h.bucketVa t i) :: (s.chain h t i).map fun p => h.dp (h.poolVa p)

/-- The entry words of a bucket and its chain that are not empty, in slot and chain order. -/
def liveEntries (s : State) (h : HashCtx) (t i : Nat) : List Nat :=
  ((s.chainAddrs h t i).flatMap s.bucketEntries).filter (· != emptySlot)

/-- An uncorrectable line in a bucket, its chain or a status record (R300, R302). -/
def bucketBad (s : State) (h : HashCtx) (t i : Nat) : Bool :=
  s.poisoned (h.dp (h.statusVa t i)) 16 || (s.chainAddrs h t i).any (fun a => s.poisoned a 256) ||
    (s.chain h t i).any fun p => s.poisoned (h.dp (h.poolStatusVa p)) 16

/-- An uncorrectable line in a pool bucket or its status record (R302). -/
def poolBad (s : State) (h : HashCtx) (p : Nat) : Bool :=
  s.poisoned (h.dp (h.poolStatusVa p)) 16 || s.poisoned (h.dp (h.poolVa p)) 256

/-- One pass of Lookup (R294): fail, go to another bucket, or stay with the depth found. A bucket of DEPTH 0 is stayed with at a depth up to KB, and what
its slots hold is then given as it stands (DESIGN CHOICE, log entry 124). -/
def lookupPass (s : State) (h : HashCtx) (t sig d i : Nat) : Option (Nat × Nat × Bool) :=
  let depth := field (s.word64 (h.dp (h.statusVa t i) + 8)) 0 5
  if (depth = 0 ∧ d > h.kb) ∨ depth > h.kmax ∨ (0 < depth ∧ depth < d) then none
  else if depth > d then
    let i' := sig % 2 ^ depth
    some (depth, i', i' == i)
  else some (d, i, true)

/-- The buckets that a Lookup on one state reads (R294). -/
def lookupPath (s : State) (h : HashCtx) (t sig : Nat) : Nat → Nat → Nat → List Nat
  | 0, _, _ => []
  | n + 1, d, i => i :: (match s.lookupPass h t sig d i with
    | none => []
    | some (d', i', stay) => if stay then [] else lookupPath s h t sig n d' i')

/-- Lookup on one state (R294, R302): the depth and bucket; depth only grows, so 17 passes end it. None on an inconsistent status or an
uncorrectable line. -/
def lookup (s : State) (h : HashCtx) (t sig : Nat) : Nat → Nat → Nat → Option (Nat × Nat)
  | 0, _, _ => none
  | n + 1, d, i => if s.bucketBad h t i then none else match s.lookupPass h t sig d i with
    | none => none
    | some (d', i', stay) => if stay then some (d', i') else lookup s h t sig n d' i'

/-- A descriptor counter raised by one: DROPS 0, SPILLS 1, REPLS 2, ERRS 3 (R287). -/
def bumpCounter (s : State) (h : HashCtx) (k : Nat) : State :=
  s.pokeWord (h.word (0x58 + 8 * k)) (s.word64 (h.word (0x58 + 8 * k)) + 1)

/-- A bucket's slots written from a list, the rest empty. -/
def fillBucket (s : State) (a : Nat) (es : List Nat) : State :=
  s.pokeAll a ((List.range 64).flatMap fun k => leBytes 4 (es.getD k emptySlot))

/-- The shape word of bucket i of table t. -/
def shape (s : State) (h : HashCtx) (t i : Nat) : Word := s.word64 (h.dp (h.statusVa t i) + 8)

/-- The shape word written. -/
def setShape (s : State) (h : HashCtx) (t i : Nat) (w : Word) : State := s.pokeWord (h.dp (h.statusVa t i) + 8) w

/-- BUSN written (R290). -/
def setBusn (s : State) (h : HashCtx) (t i u : Nat) : State := s.pokeWord (h.dp (h.statusVa t i)) (.ofNat 64 u)

/-- A pool bucket is taken from the free list (R302): its index. -/
def takePool (s : State) (h : HashCtx) : Option (Nat × State) :=
  let f := s.word64 (h.word 0x50)
  if field f 0 32 = 0 then none else
    let p := field f 0 32 - 1
    let next := field (s.word64 (h.dp (h.poolStatusVa p) + 8)) 32 32
    some (p, s.pokeWord (h.word 0x50) (.ofNat 64 (next + (field f 32 32 - 1) % 2 ^ 32 * 2 ^ 32)))

/-- A pool bucket is pushed onto the free list (R302). -/
def givePool (s : State) (h : HashCtx) (p : Nat) : State :=
  let f := s.word64 (h.word 0x50)
  let sw := h.dp (h.poolStatusVa p) + 8
  let s := s.pokeWord sw (setField (s.word64 sw) 32 32 (field f 0 32))
  s.pokeWord (h.word 0x50) (.ofNat 64 (p + 1 + (field f 32 32 + 1) % 2 ^ 32 * 2 ^ 32))

/-- The chain of bucket i of table t becomes a list of pool buckets: their NEXT fields, and NCH and NEXT of the home status. -/
def setChain (s : State) (h : HashCtx) (t i : Nat) (ps : List Nat) : State :=
  let s := s.setShape h t i (setField (setField (s.shape h t i) 8 3 ps.length) 32 32
    (match ps.head? with
     | some p => p + 1
     | none => 0))
  (List.range ps.length).foldl (fun s k =>
    let sw := h.dp (h.poolStatusVa (ps.getD k 0)) + 8
    s.pokeWord sw (setField (s.word64 sw) 32 32 (match ps[k + 1]? with
      | some q => q + 1
      | none => 0))) s

/-- Spill buckets with no live entry are unlinked and pushed onto the free list (R302). -/
def pruneChain (s : State) (h : HashCtx) (t i : Nat) : State :=
  let ps := s.chain h t i
  let isDead (p : Nat) : Bool := (s.bucketEntries (h.dp (h.poolVa p))).all (· == emptySlot)
  let dead := ps.filter isDead
  if dead.isEmpty then s else dead.foldl (fun s p => s.givePool h p) (s.setChain h t i (ps.filter (! isDead ·)))

/-- The address of the first slot of a bucket and its chain that satisfies a test, in slot and then chain order. -/
def findSlot (s : State) (h : HashCtx) (t i : Nat) (p : Nat → Bool) : Option Nat :=
  ((s.chainAddrs h t i).flatMap fun a => (List.range 64).map fun k => a + 4 * k).find? fun a => p (s.word32 a)

/-- An insert into bucket i (R302). -/
def insertEntry (s : State) (h : HashCtx) (t i entry : Nat) : State :=
  match s.findSlot h t i (fun e => e != emptySlot && e % 2 ^ 24 == entry % 2 ^ 24) with
  | some a => s.poke a (leBytes 4 entry)
  | none => match s.findSlot h t i (· == emptySlot) with
    | some a => s.poke a (leBytes 4 entry)
    | none =>
      if h.pol = 1 then
        let ps := s.chain h t i
        if field (s.shape h t i) 8 3 < 7 then
          match s.takePool h with
          | some (p, s) => ((s.fillBucket (h.dp (h.poolVa p)) [entry]).setChain h t i (ps ++ [p])).bumpCounter h 1
          | none => s.bumpCounter h 0
        else s.bumpCounter h 0
      else if h.pol = 2 then
        let home := h.dp (h.bucketVa t i)
        let k := (List.range 64).foldl (fun b k =>
          if s.word32 (home + 4 * k) / 2 ^ 24 < s.word32 (home + 4 * b) / 2 ^ 24 then k else b) 0
        if s.word32 (home + 4 * k) / 2 ^ 24 < entry / 2 ^ 24 % 256 then
          (s.poke (home + 4 * k) (leBytes 4 entry)).bumpCounter h 2
        else s.bumpCounter h 0
      else s.bumpCounter h 0

/-- A delete from bucket i (R302). -/
def deleteEntry (s : State) (h : HashCtx) (t i entry : Nat) : State :=
  ((s.chainAddrs h t i).flatMap fun a => (List.range 64).map fun k => a + 4 * k).foldl (fun s a =>
    let e := s.word32 a
    if e ≠ emptySlot ∧ e % 2 ^ 24 = entry % 2 ^ 24 then s.poke a (leBytes 4 emptySlot) else s) s

/-- The pool bucket that an insert into bucket i would link (R302). -/
def insertPool? (s : State) (p : HashPart) (i : Nat) : Option Nat :=
  let h := p.hash
  let f := field (s.word64 (h.word 0x50)) 0 32
  let fits (t : Nat → Bool) : Bool := (s.findSlot h p.table i t).isSome
  if p.delete || p.entry % 2 ^ 24 == 0xFFFFFF || h.pol != 1 || decide (7 ≤ field (s.shape h p.table i) 8 3) || f == 0 ||
      fits (fun e => e != emptySlot && e % 2 ^ 24 == p.entry % 2 ^ 24) || fits (· == emptySlot) then none
  else some (f - 1)

/-- The effect of an insert or delete part on the bucket its Lookup finds (R302). -/
def applyUpdate (s : State) (p : HashPart) : State :=
  let h := p.hash
  match s.lookup h p.table p.sig 17 h.kb (p.sig % 2 ^ h.kb) with
  | none => s.bumpCounter h 3
  | some (_, i) =>
    if (s.insertPool? p i).any fun q => s.poolBad h q then s.bumpCounter h 3 else
      let s := if p.entry % 2 ^ 24 = 0xFFFFFF then s
        else if p.delete then s.deleteEntry h p.table i p.entry
        else s.insertEntry h p.table i p.entry
      (s.pruneChain h p.table i).setBusn h p.table i p.usn

/-- Entries laid over a bucket and pool buckets, 64 each. -/
def layEntries (s : State) (as : List Nat) (es : List Nat) : State :=
  (List.range as.length).foldl (fun s k => s.fillBucket (as.getD k 0) ((es.drop (64 * k)).take 64)) s

/-- Pool buckets taken, n of them. -/
def takePools (s : State) (h : HashCtx) : Nat → Option (List Nat × State)
  | 0 => some ([], s)
  | n + 1 => match s.takePool h with
    | none => none
    | some (p, s) => match takePools s h n with
      | none => none
      | some (ps, s) => some (p :: ps, s)

/-- Move (a) of a split (R304): none when the unit ends with it. -/
def splitA (s : State) (p : HashPart) (i : Nat) : State × Bool :=
  let h := p.hash
  if s.poisoned (h.dp (h.statusVa p.table i)) 16 then (s.bumpCounter h 3, false) else
    let w := s.shape h p.table i
    let depth := field w 0 5
    let s := s.setBusn h p.table i p.usn
    if depth = 0 ∨ depth = h.kmax then (s, false)
    else (s.setShape h p.table i (setField w 5 1 1), true)

/-- The first n buckets of the free list (R302). -/
def freeBuckets (s : State) (h : HashCtx) : Nat → Nat → List Nat
  | 0, _ => []
  | n + 1, next =>
    if next = 0 then [] else
      (next - 1) :: freeBuckets s h n (field (s.word64 (h.dp (h.poolStatusVa (next - 1)) + 8)) 32 32)

/-- An uncorrectable line among those that move (b) of a split reads and writes (R302, R304). -/
def splitBad (s : State) (p : HashPart) (i : Nat) (moved : List Nat) : Bool :=
  let h := p.hash
  let j := i + 2 ^ field (s.shape h p.table i) 0 5
  s.bucketBad h p.table i || s.poisoned (h.dp (h.statusVa p.table j)) 16 || s.poisoned (h.dp (h.bucketVa p.table j)) 256 ||
    (s.freeBuckets h ((moved.length + 63) / 64 - 1) (field (s.word64 (h.word 0x50)) 0 32)).any fun q => s.poolBad h q

/-- Move (b) of a split (R304): false on a shortage of pool buckets (R305). -/
def splitB (s : State) (p : HashPart) (i : Nat) (moved : List Nat) : State × Bool :=
  let h := p.hash
  let d := field (s.shape h p.table i) 0 5
  let need := (moved.length + 63) / 64 - 1
  if field (s.word64 (h.word 0x50)) 32 32 < need then (s, false) else
    match s.takePools h need with
    | none => (s, false)
    | some (ps, s) =>
      let j := i + 2 ^ d
      let s := s.layEntries (h.dp (h.bucketVa p.table j) :: ps.map fun q => h.dp (h.poolVa q)) moved
      let s := s.setShape h p.table j (.ofNat 64 (d + 1))
      (((s.setChain h p.table j ps).setBusn h p.table j p.usn), true)

/-- Move (c) of a split (R304), or its form that only lowers SPLT (R305). -/
def splitC (s : State) (p : HashPart) (i : Nat) (moved : List Nat) (whole : Bool) : State :=
  let h := p.hash
  let w := s.shape h p.table i
  let s := s.setBusn h p.table i p.usn
  if ¬ whole then s.setShape h p.table i (setField w 5 1 0) else
    let rest := (s.liveEntries h p.table i).filter fun e => ! moved.contains e
    let ps := s.chain h p.table i
    let keep := ps.take ((rest.length + 63) / 64 - 1)
    let s := s.layEntries (h.dp (h.bucketVa p.table i) :: keep.map fun q => h.dp (h.poolVa q)) rest
    let s := s.setShape h p.table i (setField (setField w 5 1 0) 0 5 (field w 0 5 + 1))
    let s := s.setChain h p.table i keep
    (ps.drop keep.length).foldl (fun s q => s.givePool h q) s

/-- The part is next in its family's order (R302). -/
def partNext (s : State) (p : HashPart) : Bool :=
  s.parts.all fun q => q == p || q.hash.desc != p.hash.desc || q.table != p.table ||
    q.sig % 2 ^ q.hash.kb != p.sig % 2 ^ p.hash.kb || decide (p.usn < q.usn)

/-- A part is done: AUSN becomes the greatest update at which every one is applied (R302), and the lines written are kept with its
number (R306). -/
def finishPart (s : State) (p : HashPart) : State :=
  let parts := s.parts.filter (· != p)
  let mine := parts.filter fun q => q.hash.desc == p.hash.desc
  let ausn := match mine.map (·.usn) with
    | [] => (s.word64 (p.hash.word 0x40)).toNat
    | u :: us => us.foldl min u - 1
  let s := { s with parts := parts }
  if mine.any (·.usn == p.usn) then s else s.pokeWord (p.hash.word 0x48) (.ofNat 64 ausn)

/-- The lines of the present move are kept as written by an update (R306). -/
def noteApplied (s : State) (p : HashPart) : State :=
  { s with applied := s.applied ++ s.touched.map fun l => (p.hash.desc, p.usn, l, s.verOf l) }

end State

end Sys2Proof.Machine
end

