-- ==== Sys2Proof/Machine/Ports.lean ====
section
/-!
DEFINITION. The sending side of an Axxel port (R375 to R377): numbering flits, the replay buffer, and the messages a port carries. No
rule gives the payload of a message, so Config.messagePayload stands for it (log entry 23).
-/
namespace Sys2Proof.Machine

/-- The sequence number after another (R375). -/
def nextSeq (n : Nat) : Nat := (n + 1) % 4096

/-- One bit of the CRC of R375: the polynomial 0x04C1_1DB7, reflected. -/
def crc32Bit (c : Nat) : Nat := if c % 2 = 1 then (c / 2) ^^^ 0xEDB88320 else c / 2

/-- The CRC after a number of bits. -/
def crc32Bits : Nat → Nat → Nat
  | 0, c => c
  | k + 1, c => computed (crc32Bit c) (crc32Bits k)

/-- The CRC of bytes in ascending order, from a value. -/
def crc32From (c : Nat) : List Byte → Nat
  | [] => c
  | b :: bs => computed (crc32Bits 8 (c ^^^ b.toNat)) fun d => crc32From d bs

/-- The CRC-32 of bytes (R375): initial value and final XOR 0xFFFF_FFFF. -/
def crc32 (bs : List Byte) : Nat := crc32From 0xFFFFFFFF bs ^^^ 0xFFFFFFFF

/-- The 256 bytes of a flit on the link (R375). -/
def flitBytes (f : Flit) : List Byte :=
  let body := leBytes 2 (f.seq.toNat + f.typ.toNat * 2 ^ 12) ++ leBytes 2 (f.ack.toNat + f.nak.toNat * 2 ^ 15) ++
    leBytes 2 (f.dst.toNat + f.hops.toNat * 2 ^ 12) ++ leBytes 2 f.src.toNat ++ [f.kind, f.tenant] ++ leBytes 2 f.tag.toNat ++
    (f.payload ++ List.replicate 240 0).take 240
  body ++ leBytes 4 (crc32 body)

/-- The fields of the bytes that a port receives (R375). -/
def flitOf (bs : List Byte) : Flit :=
  let half (k : Nat) : Nat := leNat ((bs.drop k).take 2)
  { seq := .ofNat 12 (half 0), typ := .ofNat 4 (half 0 / 2 ^ 12), ack := .ofNat 12 (half 2), nak := half 2 / 2 ^ 15 == 1
    dst := .ofNat 12 (half 4), hops := .ofNat 4 (half 4 / 2 ^ 12), src := .ofNat 12 (half 6), kind := bs.getD 8 0
    tenant := bs.getD 9 0, tag := .ofNat 16 (half 10), payload := (bs.drop 12).take 240 }

/-- The CRC of a flit holds (R375). -/
def flitCrcHolds (bs : List Byte) : Bool := bs.length == 256 && leNat (bs.drop 252) == crc32 (bs.take 252)

/-- The states in which new message flits are sent (R377). -/
def Port.sendsNew (p : Port) : Bool := p.st == .normal || p.st == .repair || p.st == .degraded

/-- A flit leaves with its number and the last number received in order (R375), and stays in the replay buffer (R376). -/
def Port.emit (p : Port) (now : Nat) (f : Flit) : Port :=
  let f := { f with seq := .ofNat 12 p.nextSend, ack := .ofNat 12 (p.expect + 4095) }
  { p with nextSend := nextSeq p.nextSend, sent := p.sent ++ [flitBytes f], replay := p.replay ++ [f]
           progressAt := if p.replay.isEmpty then now else p.progressAt }

/-- Flits that wait are sent while the state allows it and the replay buffer has room (R376, R377). -/
def Port.pump (p : Port) (now : Nat) : Port :=
  if ! p.sendsNew then p
  else
    let n := 512 - p.replay.length
    (p.waiting.take n).foldl (fun p f => p.emit now f) { p with waiting := p.waiting.drop n }

/-- A flit without a number is sent: idle, or link control with NAK (R375, R376). -/
def Port.answer (p : Port) (nak : Bool) : Port :=
  let f : Flit := { (default : Flit) with typ := if nak then 3 else 0, ack := .ofNat 12 (p.expect + 4095), nak := nak }
  { p with sent := p.sent ++ [flitBytes f] }

/-- The flits of a message (R375). -/
def messageFlits (kind dst src tenant tag : Nat) (payloads : List (List Byte)) : List Flit :=
  let one (typ : Nat) (bs : List Byte) : Flit :=
    { (default : Flit) with
        typ := .ofNat 4 typ, dst := .ofNat 12 dst, src := .ofNat 12 src, kind := .ofNat 8 kind
        tenant := .ofNat 8 tenant, tag := .ofNat 16 tag, payload := bs }
  match payloads with
  | [] => [one 1 []]
  | b :: bs => one 1 b :: bs.map (one 2)

namespace State

/-- A port changed. -/
def updPort (s : State) (n : Nat) (f : Port → Port) : State :=
  match s.ports[n]? with
  | none => s
  | some p => { s with ports := setAt s.ports n (f p) }

/-- Flits are given to a port. -/
def sendFlits (s : State) (port : Nat) (fs : List Flit) : State :=
  s.updPort port fun p => ({ p with waiting := p.waiting ++ fs } : Port).pump s.now

/-- A message is given to a port (R375). -/
def sendMessage (s : State) (port kind dst tenant tag : Nat) (va : Word) (bytes : List Byte) : State :=
  s.sendFlits port (messageFlits kind dst (s.modid.toNat % 4096) tenant tag (Config.messagePayload kind va bytes))

/-- A message tag not in use (R375). -/
def freeTag (s : State) : Nat := ((List.range 65536).find? fun t => ! s.remotes.any (·.tag == t)).getD 0

/-- The port that a module's messages leave by (R353, ROUTE): none where the entry is not valid. -/
def routePort (s : State) (m : Nat) : Option Nat :=
  match assoc s.route m with
  | some w => if field w 15 1 = 1 then some (field w 0 7) else none
  | none => none

/-- The kind of a request's message (R375, R379). -/
def requestKind (k : RemoteKind) (bytes : List Byte) : Nat :=
  match k with
  | .load _ _ | .index _ _ => 1
  | .store _ => 3
  | .atomic _ _ _ _ _ => 8
  | .element _ _ | .command _ _ => if bytes.isEmpty then 1 else 3

/-- The tenant that a request is made for (R375). -/
def requestTenant (s : State) (k : RemoteKind) : Nat :=
  match k with
  | .load a _ | .atomic a _ _ _ _ => ((s.thread? a.id).map fun t => s.tenantOf t.row).getD 0
  | .store id => ((s.thread? id).map fun t => s.tenantOf t.row).getD 0
  | .element op _ | .index op _ => ((s.oneSided.find? (·.id == op)).map (·.tenant)).getD 0
  | .command c _ => (((assoc s.ctxs c).bind fun x => x.cq.head?).map (·.tenant)).getD 0

/-- A request to another module is sent once (R379). -/
def sendRemote (s : State) (m : Nat) (va : Word) (kind : RemoteKind) (bytes : List Byte) : State :=
  if s.remotes.any (fun r => r.kind == kind && r.va == va && r.modId == m) then s else
    let port := (s.routePort m).getD 128
    let tag := s.freeTag
    let s' : State := { s with remotes := s.remotes ++ [(⟨tag, port, m, va, kind, bytes⟩ : Remote)] }
    s'.sendMessage port (requestKind kind bytes) m (s.requestTenant kind) tag va bytes

end State

end Sys2Proof.Machine
end

