-- ==== Sys2Proof/Machine/Elements.lean ====
section
/-!
DEFINITION. Accesses that no thread issues (R84, R85, R189): the lines and elements of engine commands, the elements of GET, PUT
and H.PROBE, their failures (R187, R300, R322) and the completion counter (R186).
-/
namespace Sys2Proof.Machine

/-- Whose translation an access uses (R185, R321): the unit, ASID, tenant and privilege, and the thread and row for a miss message. -/
structure Owner where
  unit : Nat
  asid : Nat
  tenant : Nat
  privl : Nat
  row : Word
  deriving DecidableEq, Repr

/-- Why an access is not made now. -/
inductive XStop where
  | code (ecode : Nat)
  | miss (va : Word)
  | viol (addr : Word)
  | remote (modId : Nat) (va : Word)
  deriving DecidableEq, Repr

namespace State

/-- The service has answered that a page of a unit has no mapping (R358). -/
def noMapping (s : State) (o : Owner) (va : Word) : Bool :=
  s.misses.any fun m => m.thread.isNone && m.unit == o.unit && m.asid == o.asid && m.stage == 3 &&
    m.va.toNat / pageBytes == va.toNat / pageBytes

/-- The line parts of an access by an owner, translated and checked (R169, R185, R321). -/
def ownerParts (s : State) (o : Owner) (va : Word) (n : Nat) (k : AccKind) : Except XStop (List (Nat × Nat)) :=
  (lineParts va.toNat n).mapM fun p =>
    let a : Word := .ofNat 64 p.1
    match s.xlate o.unit o.asid o.tenant o.privl a k with
    | .ok dp | .own dp => (match s.region dp with
      | .control => .error (.code 0x12)
      | _ => .ok (dp, p.2))
    | .fault .pagefault => .error (.code 0x11)
    | .fault _ => .error (.code 0x12)
    | .violation w => .error (.viol w)
    | .remote m => .error (.remote m a)
    | .miss => if s.noMapping o a then .error (.code 0x11) else .error (.miss a)

/-- The line parts of a destination whose granules a failed element leaves P (R187, R300): where the TLB has no entry, the page table
decides. -/
def ownerPlaces (s : State) (o : Owner) (va : Word) (n : Nat) : Except XStop (List (Nat × Nat)) :=
  (lineParts va.toNat n).mapM fun p =>
    match s.ownerParts o (.ofNat 64 p.1) p.2 .write with
    | .error (.miss a) => (match s.walk o.tenant o.asid a.toNat with
      | some (leaf, size) => (match s.gateRow o.tenant o.privl (s.checkLeaf o.tenant o.privl leaf (leafAddr leaf size a.toNat) .write) with
        | .ok dp => .ok (dp, p.2)
        | _ => .error (.miss a))
      | none => .error (.miss a))
    | .ok (q :: _) => .ok q
    | .ok [] => .error (.code 0)
    | .error e => .error e

/-- A miss of an element is posted once (R170, R358). -/
def postOwnerMiss (s : State) (o : Owner) (va : Word) (k : AccKind) : State :=
  if s.misses.any (fun m => m.thread.isNone && m.unit == o.unit && m.asid == o.asid && m.va == va) then s else
    { s with misses := s.misses ++ [(⟨s.nextId, none, o.row, o.unit, o.asid, o.tenant, o.privl, k.code, va, 0, [], false⟩ : Miss)]
             nextId := s.nextId + 1 }

/-- An answered miss is used up, or is of no use to what is submitted after it. -/
def dropNoMapping (s : State) (o : Owner) : State :=
  { s with misses := s.misses.filter fun m => ! (m.thread.isNone && m.unit == o.unit && m.asid == o.asid && m.stage == 3) }

/-- Bytes of parts as M holds them. -/
def partsBytes (s : State) (ps : List (Nat × Nat)) : List Byte := ps.flatMap fun p => s.newest p.1 p.2

/-- The mark of a store that an engine or an element of a tenant makes (R370). -/
def engineMark (s : State) (tenant : Nat) : StoreMark := .outside tenant (s.modid.toNat % 4096) false

/-- Parts written by a party that is no thread: M takes versions, thread rows by their codes, tile granules become F (R84, R85). -/
def partsWrite (s : State) (mark : StoreMark) : List (Nat × Nat) → List Byte → State
  | [], _ => s
  | p :: ps, bs =>
    partsWrite ((s.landStore none p.1 (bs.take p.2) mark).setGran p.1 p.2 .full) mark ps (bs.drop p.2)

/-- Every part's row can be served now (R259 to R261, R365); otherwise the access waits, its claims placed. -/
def partsReach (s : State) (who : Nat) (write : Bool) : List (Nat × Nat) → Reach
  | [] => .ok s
  | p :: ps => match s.reach who p.1 write with
    | .wait s k => .wait s k
    | .ok s => partsReach s who write ps

/-- The party that an access is made by (R261). -/
def accessParty : AccessId → Nat
  | .command k _ => ctxParty k
  | .element op _ => opParty op

/-- The translated access of a command or element (R360). -/
def flight? (s : State) (a : AccessId) : Option Flight := s.flights.find? (·.acc == a)

/-- An access is translated: it is in flight until its move (R360). -/
def addFlight (s : State) (f : Flight) : State := { s with flights := f :: s.flights.filter (·.acc != f.acc) }

/-- Accesses are in flight no more. -/
def dropFlights (s : State) (p : AccessId → Bool) : State := { s with flights := s.flights.filter fun f => ! p f.acc }

/-- Accesses are given up: their translations, their places in outside queues, their messages and their claims (R322, R324). -/
def dropAccesses (s : State) (p : AccessId → Bool) (who : Nat) : State :=
  let stays (e : OQEntry) : Bool := match e with
    | .access a => ! p a
    | _ => true
  let sent (r : Remote) : Bool := match r.kind with
    | .element op i => p (.element op i)
    | .command k i => p (.command k i)
    | _ => false
  let s : State := { s.dropFlights p with threads := s.threads.map (·.cutQueue stays), remotes := s.remotes.filter fun r => ! sent r }
  s.dropClaims who

/-- The accesses of a context's head command. -/
def ofContext (k : Nat) : AccessId → Bool
  | .command c _ => c == k
  | .element _ _ => false

/-- The open thread row that an access must reach through its outside queue (R84): the destination's, else the source's. -/
def queueRow? (s : State) (dst src : List (Nat × Nat)) : Option Thread :=
  match (dst.findSome? fun p => s.openAt? p.1) with
  | some th => some th
  | none => src.findSome? fun p => s.openAt? p.1

/-- An entry stands in no outside queue. -/
def withdraw (s : State) (e : OQEntry) : State :=
  { s with threads := s.threads.map fun t => if t.oq.contains e then t.cutQueue (· != e) else t }

/-- An entry joins the tail of an open row's outside queue, once, and stands in no other. -/
def joinOnce (s : State) (th : Thread) (e : OQEntry) : State := if th.oq.contains e then s else (s.withdraw e).enqueue th.id e

/-- An access stands in no outside queue. -/
def leaveQueues (s : State) (a : AccessId) : State := s.withdraw (.access a)

/-- An access joins the tail of an open row's outside queue. -/
def joinQueue (s : State) (th : Thread) (a : AccessId) : State := s.joinOnce th (.access a)

/-- The open row whose outside queue an access must join: none where there is no such row, or where this is that row's APPLY (R84). -/
def joins? (s : State) (dst src : List (Nat × Nat)) (applying : Option Nat) : Option Thread :=
  (s.queueRow? dst src).filter fun th => some th.id != applying

/-- An access has taken its move: it is in flight no more, and stands in no outside queue. -/
def endAccess (s : State) (a : AccessId) : State := (s.dropFlights (· == a)).leaveQueues a

/-- The counter move of a one-sided operation or of M.MVS (R186). -/
def counterMove (s : State) (dp add : Nat) (failed : List (Nat × Nat)) : State :=
  let w := s.word64 dp
  let err := field w 63 1
  let count := (field w 0 63 + add) % 2 ^ 63
  let first := failed.foldl (fun (b : Option (Nat × Nat)) f => match b with
    | none => some f
    | some g => if f.1 < g.1 then some f else some g) none
  let e := match err, first with
    | 0, some f =>
      let x := s.word64 (dp + 8)
      wordBytes (setField (setField x 0 32 f.1) 32 8 f.2)
    | _, _ => s.mem.bytes (dp + 8) 8
  let err' := if err = 1 ∨ first.isSome then 1 else 0
  (s.landStore none dp (wordBytes (.ofNat 64 (count + err' * 2 ^ 63)) ++ e) .plain).setGran dp 16 .full

end State

/-- The accesses of a command (R319, R320, R325): how many there are. -/
def EngCmd.accesses (c : EngCmd) : Nat :=
  match c.kind with
  | .copy | .fill | .gath | .scat | .decStrm => c.n
  | .decLoad => (2 ^ c.k * c.w + 63) / 64
  | .marker => 0

/-- What one access reads and where it writes: the source addresses, the destination, and the bytes written for those read. -/
structure Xfer where
  src : List (Word × Nat)
  dst : Option (Word × Nat)
  bytes : List Byte → List Byte

/-- Access i of a command, with its context's decode table (R319, R320, R325). -/
def EngCmd.xfer (c : EngCmd) (x : EngCtx) (i : Nat) : Xfer :=
  let at_ (a : Word) (o : Nat) : Word := a + .ofNat 64 o
  match c.kind with
  | .copy => ⟨[(at_ c.src (64 * i), 64)], some (at_ c.dst (64 * i), 64), id⟩
  | .fill => ⟨[], some (at_ c.dst (64 * i), 64), fun _ => (List.replicate 8 (wordBytes c.src)).flatten⟩
  | .gath => ⟨[(at_ c.src (c.idx.getD i 0 * c.es), c.es)], some (at_ c.dst (i * c.es), c.es), id⟩
  | .scat => ⟨[(at_ c.src (i * c.es), c.es)], some (at_ c.dst (c.idx.getD i 0 * c.es), c.es), id⟩
  | .decLoad => ⟨[(at_ c.src (64 * i), min 64 (2 ^ c.k * c.w - 64 * i))], none, id⟩
  | .decStrm =>
    let per := 64 / x.w
    let bit0 := x.k * per * i
    let lo := bit0 / 8 / 64
    let hi := (bit0 + x.k * per + 7) / 8
    let lines := (hi + 63) / 64 - lo
    ⟨(List.range lines).map fun j => (at_ c.src (64 * (lo + j)), 64), some (at_ c.dst (64 * i), 64), fun bs =>
      let n := leNat bs
      (List.range per).flatMap fun e => leBytes x.w (x.table.getD (n / 2 ^ (bit0 + x.k * e - 8 * 64 * lo) % 2 ^ x.k) 0)⟩
  | .marker => ⟨[], none, id⟩

/-- The owner of a command's accesses (R321). -/
def EngCmd.owner (c : EngCmd) : Owner := ⟨c.unit, c.asid, c.tenant, c.privl, c.row⟩

/-- The owner of an operation's elements (R185). -/
def OneSided.owner (o : OneSided) (s : State) : Owner :=
  ⟨o.unit, o.asid, o.tenant, o.privl, (s.thread? o.thread).elim 0 s.rowVa⟩

/-- Element i of a GET or PUT with its index (R184). -/
def OneSided.xfer (o : OneSided) (i idx : Nat) : Xfer :=
  let at_ (a : Word) (k : Nat) : Word := a + .ofNat 64 (k * o.es)
  match o.kind with
  | .put => ⟨[(at_ o.src i, o.es)], some (at_ o.dst idx, o.es), fun b => b⟩
  | _ => ⟨[(at_ o.src idx, o.es)], some (at_ o.dst i, o.es), fun b => b⟩

/-- The parts of region i of an H.PROBE (R298, R299). -/
def OneSided.regionParts (o : OneSided) (i : Nat) : List (Nat × Nat) := (o.region.drop (9 * i)).take 9

namespace State

/-- The parts of several source ranges. -/
def sourceParts (s : State) (o : Owner) (xs : List (Word × Nat)) : Except XStop (List (Nat × Nat)) :=
  (xs.mapM fun p => s.ownerParts o p.1 p.2 .read).map List.flatten

/-- What an attempt at a transfer comes to. -/
inductive XferResult where
  | wait (s : State)
  | fail (s : State) (ecode : Nat) (va : Word)
  | done (s : State) (lines : List (Nat × Nat)) (read : List Byte)
  | remote (s : State) (modId : Nat) (write : Bool) (va : Word) (bytes : List Byte)

/-- What the translation of a transfer comes to: the parts of its source and destination, a destination in another module, or what stops it. -/
inductive Plan where
  | parts (src dst : List (Nat × Nat))
  | away (src : List (Nat × Nat)) (modId : Nat) (va : Word)
  | stop (r : XferResult)

/-- The virtual ranges of a transfer. -/
def xferRanges (x : Xfer) : List (Nat × Nat) := (x.src ++ x.dst.toList).map fun p => (p.1.toNat, p.2)

/-- A transfer is translated and checked (R84, R85, R169, R185, R321): its source before its destination, and both before any poison is seen, so
that of several causes the first of these is reported (DESIGN CHOICE, log entry 113). -/
def plan (s : State) (o : Owner) (x : Xfer) (kind : Nat) : Plan :=
  let va := match x.src with
    | p :: _ => p.1
    | [] => (x.dst.map (·.1)).getD 0
  let halt (k : AccKind) (va : Word) : XStop → Plan
    | .miss v => .stop (.wait (s.postOwnerMiss o v k))
    | .viol w => .stop (.fail (s.violate o.tenant kind w 0 o.tenant (s.modid.toNat % 4096) false) 0x13 va)
    | .code c => .stop (.fail (s.dropNoMapping o) c va)
    | .remote m v => .stop (.remote s m false v [])
  match s.sourceParts o x.src with
  | .error e => halt .read va e
  | .ok src => match x.dst with
    | none => .parts src []
    | some (dva, dn) => match s.ownerParts o dva dn .write with
      | .ok dst => .parts src dst
      | .error (.remote m v) => .away src m v
      | .error e => halt .write dva e

/-- A translated transfer takes its move (R84, R85): it reaches the rows, joins an outside queue where a line of it, or of the index that it has
read, lies in an open row (unless this is that row's APPLY), and reads the sources and writes the destination in the same move, or sends what it has
read to the module that the destination lies in. -/
def perform (s : State) (o : Owner) (x : Xfer) (f : Flight) (index : List (Nat × Nat)) (applying : Option Nat) : XferResult :=
  let va := match x.src with
    | p :: _ => p.1
    | [] => (x.dst.map (·.1)).getD 0
  match s.joins? f.dst (f.src ++ index) applying with
  | some th => .wait ((s.addFlight f).joinQueue th f.acc)
  | none => match s.partsReach (accessParty f.acc) false f.src with
    | .wait s _ => .wait (s.addFlight f)
    | .ok s =>
      if f.src.any fun p => s.poisoned p.1 p.2 then .fail s 0x15 va else
        match s.partsReach (accessParty f.acc) true f.dst with
        | .wait s _ => .wait (s.addFlight f)
        | .ok s =>
          let s := f.src.foldl (fun s p => s.countWindow o.tenant p.1 false) s
          let s := f.dst.foldl (fun s p => s.countWindow o.tenant p.1 true) s
          let read := s.partsBytes f.src
          match f.away with
          | some (m, v) => .remote s m true v (x.bytes read)
          | none =>
          let s := if f.dst.isEmpty then s else s.partsWrite (s.engineMark o.tenant) f.dst (x.bytes read)
          .done s (f.dst.map fun p => (lineOf p.1, s.verOf (lineOf p.1))) read

/-- An access has a request at another module that is not answered yet (R185). -/
def sentAway (s : State) (a : AccessId) : Bool :=
  s.remotes.any fun r => match r.kind with
    | .element op i | .index op i => a == .element op i
    | .command k i => a == .command k i
    | _ => false

/-- The translated parts of an access, kept since an earlier event or made now (R360); one that waits for another module is not made again. -/
def flightOf (s : State) (o : Owner) (x : Xfer) (a : AccessId) (num kind : Nat) : Except XferResult Flight :=
  if s.sentAway a then .error (.wait s) else
    match (s.flight? a).filter (fun f => f.ranges == xferRanges x) with
    | some f => .ok f
    | none => match s.plan o x kind with
      | .parts src dst => .ok ⟨a, num, o.unit, o.asid, xferRanges x, src, dst, none⟩
      | .away src m v => .ok ⟨a, num, o.unit, o.asid, xferRanges x, src, [], some (m, v)⟩
      | .stop r => .error r

/-- One transfer (R84, R85); one whose source another module sends reads its index through the outside queue of the index's row, as any other. -/
def transfer (s : State) (o : Owner) (x : Xfer) (a : AccessId) (num : Nat) (index : List (Nat × Nat)) (applying : Option Nat)
    (kind : Nat) : XferResult :=
  match s.flightOf o x a num kind with
  | .error (.remote s m w va bs) => (match s.joins? [] index applying with
    | some th => .wait (s.joinQueue th a)
    | none => .remote (s.endAccess a) m w va bs)
  | .error r => r
  | .ok f => match s.perform o x f index applying with
    | .wait s => .wait s
    | .fail s e va => .fail (s.endAccess a) e va
    | .done s ls bs => .done (s.endAccess a) ls bs
    | .remote s m w va bs => .remote (s.endAccess a) m w va bs

/-- A transfer is only translated (R169, R360): its access is in flight, or it stops as the transfer would. -/
def translateOnly (s : State) (o : Owner) (x : Xfer) (a : AccessId) (num kind : Nat) : XferResult :=
  match s.flightOf o x a num kind with
  | .error r => r
  | .ok f => .wait (s.addFlight f)

/-- An engine context; one that was never written is as at its allotment (R316). -/
def ctx (s : State) (k : Nat) : EngCtx := (assoc s.ctxs k).getD .fresh

/-- The state with an engine context set. -/
def setCtx (s : State) (k : Nat) (c : EngCtx) : State := { s with ctxs := assocSet s.ctxs k c }

/-- The cause a handback message gives for an element code (R322). -/
def handbackCause (ecode : Nat) : Cause :=
  if ecode = 0x11 then .pagefault else if ecode = 0x12 then .protect else .datapoison

/-- The code of a command's kind in a handback message (R322). -/
def kindCode : EngKind → Nat
  | .copy => 0 | .fill => 1 | .gath => 2 | .scat => 3 | .decLoad => 4 | .decStrm => 5 | .marker => 6

/-- The lowest access index not taken (R322). -/
def lowestLeft (c : EngCmd) : Nat := ((List.range c.accesses).find? fun i => ! c.taken.contains i).getD c.accesses

/-- The head command is handed back (R322): HALT, a message for the ring, and none of its accesses in flight (R360); an answer that a page has no
mapping is used up with it (R358). -/
def handBack (s : State) (k : Nat) (c : EngCmd) (ecode : Nat) (va : Word) : State :=
  let x := s.ctx k
  let h : Handback := ⟨c.num, c.row, va, lowestLeft c, handbackCause ecode, kindCode c.kind⟩
  ((s.dropAccesses (ofContext k) (ctxParty k)).dropNoMapping c.owner).setCtx k { x with halt := true, haltAt := lowestLeft c, pending := x.pending ++ [h] }

/-- A context's copy engine runs while its tile island is ON, and while that island drains its commands before PGATED (R32). -/
def engineRuns (s : State) (k : Nat) : Bool :=
  match s.islands[2 * (k / 64)]? with
  | some i => i.st == 0 || (i.st == 3 && i.req == 2)
  | none => false

/-- The engine of a context takes an access: it runs, or the access was translated before the engine paused and ends now (R32, R33). -/
def engineTakes (s : State) (k i : Nat) : Bool := s.engineRuns k || (s.flight? (.command k i)).isSome

/-- How an access is to be taken: its move, at the APPLY of a row's queue or not, or its translation alone (R360). -/
inductive Taking where
  | move (applying : Option Nat)
  | translate
  deriving DecidableEq, Repr

/-- A transfer as it is to be taken. -/
def attempt (s : State) (o : Owner) (x : Xfer) (a : AccessId) (num : Nat) (index : List (Nat × Nat)) (how : Taking)
    (kind : Nat) : XferResult :=
  match how with
  | .move ap => s.transfer o x a num index ap kind
  | .translate => match s.translateOnly o x a num kind with
    | .remote _ _ _ _ _ => .wait s
    | r => r

/-- The next access i of a context's head command (R84, R321). -/
def engCommand (s : State) (k i : Nat) (how : Taking) : State :=
  let x := s.ctx k
  match x.cq with
  | [] => s
  | c :: rest =>
    if x.halt ∨ c.taken.contains i ∨ c.accesses ≤ i ∨ ¬ s.engineTakes k i ∨ s.receiverGated c.unit then s else
      match s.attempt c.owner (c.xfer x i) (.command k i) c.num [] how 4 with
      | .wait s => s
      | .fail s e va => s.handBack k c e va
      | .remote s m w va bs => s.sendRemote m va (.command k i) (if w then bs else [])
      | .done s lines read =>
        let c := { c with taken := i :: c.taken, lines := c.lines ++ lines
                          loaded := if c.kind = .decLoad then c.loaded ++ [(i, leLine read)] else c.loaded }
        s.setCtx k { x with cq := c :: rest, wrote := x.wrote ++ lines.map fun l => (c.num, l.1, l.2) }

/-- A one-sided operation replaced. -/
def setOneSided (s : State) (o : OneSided) : State :=
  { s with oneSided := s.oneSided.map fun p => if p.id = o.id then o else p }

/-- Where a failed element leaves its granules P (R187, R300): its destination of a GET, or its region. A destination of a GET that is refused or that
no page maps has no granules, and none becomes P (DESIGN CHOICE, log entry 118). -/
def poisonParts (s : State) (o : OneSided) (i : Nat) : List (Nat × Nat) :=
  match o.kind with
  | .get => (s.ownerPlaces (o.owner s) (wordAdd o.dst (i * o.es)) o.es).toOption.getD []
  | .put => []
  | .probe _ _ _ => o.regionParts i

/-- The table entries that are read for an address range of an owner where the TLB has no entry (R356). -/
def missReads (s : State) (o : Owner) (va : Word) (n : Nat) (k : AccKind) : List Nat :=
  (lineParts va.toNat n).flatMap fun p => match s.ownerParts o (.ofNat 64 p.1) p.2 k with
    | .error (.miss a) => s.tableReads o.tenant o.asid a.toNat
    | _ => []

/-- The table entries that are read for the place of a failed element's granules. -/
def poisonReads (s : State) (o : OneSided) (i : Nat) : List Nat :=
  match o.kind with
  | .get => s.missReads (o.owner s) (wordAdd o.dst (i * o.es)) o.es .write
  | _ => []

/-- The granules of a failed element become P. -/
def poisonElement (s : State) (o : OneSided) (i : Nat) : State :=
  (s.poisonParts o i).foldl (fun s p => s.setGran p.1 p.2 .poison) s

/-- The last move of an element that has failed (R187, R300): its granules become P, through the outside queue of an open row where they lie in
one (R76). -/
def endFailed (s : State) (o : OneSided) (i : Nat) (applying : Option Nat) : State :=
  match s.reachAll (opParty o.id) false (s.poisonReads o i) with
  | .wait s _ => s
  | .ok s => match s.joins? (s.poisonParts o i) [] applying with
  | some th => s.joinQueue th (.element o.id i)
  | none => ((s.poisonElement o i).endAccess (.element o.id i)).setOneSided { o with taken := i :: o.taken }

/-- An element has failed (R187, R300), and takes its last move; one that a lost link fails takes it in the counter move (0x40). -/
def failElement (s : State) (o : OneSided) (i ecode : Nat) (applying : Option Nat := none) : State :=
  let o' := { o with failed := o.failed ++ [(i, ecode)] }
  let s : State := s.dropAccesses (· == AccessId.element o.id i) (opParty o.id)
  if ecode = 0x40 then s.setOneSided { o' with taken := i :: o.taken }
  else (s.setOneSided o').endFailed o' i applying

/-- The region that a finished probe element writes (R299). -/
def probeRegion (p : ProbeProg) : List Byte :=
  let es := p.entries.take 128
  leBytes 8 p.busn ++ leBytes 2 es.length ++
    leBytes 1 ((decide (128 < p.entries.length)).toNat + p.split.toNat * 2) ++ List.replicate 53 0 ++
    (List.range 128).flatMap fun k => leBytes 4 (es.getD k emptySlot)

/-- The rows that a read of a bucket with its status record and its chain reaches (R272, R294, R298). -/
def bucketParts (s : State) (h : HashCtx) (t i : Nat) : List (Nat × Nat) :=
  (h.dp (h.statusVa t i), 16) :: h.dpParts (h.bucketVa t i) 256 ++
    (s.chain h t i).flatMap fun p => (h.dp (h.poolStatusVa p), 16) :: h.dpParts (h.poolVa p) 256

/-- The last move of a probe element (R298): its region is written, through the outside queue of an open row where it lies in one. -/
def finishProbe (s : State) (o : OneSided) (i : Nat) (p : ProbeProg) (applying : Option Nat) : State :=
  let ps := o.regionParts i
  match s.joins? ps [] applying with
  | some th => s.joinQueue th (.element o.id i)
  | none => match s.partsReach (opParty o.id) true ps with
    | .wait s _ => s
    | .ok s =>
      let s := (s.partsWrite (s.engineMark o.tenant) ps (probeRegion p)).leaveQueues (.element o.id i)
      s.setOneSided { o with taken := i :: o.taken, probes := o.probes.filter (·.index != i)
                             wrote := o.wrote ++ ps.map fun q => (lineOf q.1, s.verOf (lineOf q.1)) }

/-- One move of a probe element (R294, R298): one pass of Lookup, the partner's read, or the last move with the region. Lines of an open thread
row are read through its outside queue, or in the move that the region's row takes at its own (R76, R84). -/
def probeElement (s : State) (o : OneSided) (h : HashCtx) (tbl : Nat) (sigs : List Nat) (i : Nat) (applying : Option Nat) : State :=
  let t := tbl + i
  let sig := sigs.getD i 0
  let p := (o.probes.find? (·.index == i)).getD ⟨i, h.kb, sig % 2 ^ h.kb, [], 0, false⟩
  let keep (s : State) (p : ProbeProg) : State :=
    s.setOneSided { o with probes := p :: o.probes.filter (·.index != i) }
  let at_ := if p.split then p.bucket + 2 ^ p.d else p.bucket
  let atRegion := (s.queueRow? (o.regionParts i) []).any fun th => some th.id == applying
  match (if atRegion then none else s.joins? [] (s.bucketParts h t at_) applying) with
  | some th => s.joinQueue th (.element o.id i)
  | none => match s.partsReach (opParty o.id) false (s.bucketParts h t at_) with
  | .wait s _ => s
  | .ok s =>
    let s := s.leaveQueues (.element o.id i)
    if s.bucketBad h t at_ then s.failElement o i 0x15 applying
    else if p.split then
      s.finishProbe o i { p with entries := p.entries ++ s.liveEntries h t at_, busn := (s.word64 (h.dp (h.statusVa t at_))).toNat } applying
    else match s.lookupPass h t sig p.d p.bucket with
      | none => s.failElement o i 0x29 applying
      | some (d, b, stay) =>
        if ¬ stay then keep s { p with d := d, bucket := b }
        else
          let st := h.dp (h.statusVa t b)
          let p := { p with d := d, bucket := b, entries := s.liveEntries h t b, busn := (s.word64 st).toNat }
          if field (s.word64 (st + 8)) 5 1 = 1 then keep s { p with split := true } else s.finishProbe o i p applying

/-- Where the index of element i of an operation lies in this module's memory (R184); nowhere for an operation without a list, or for an index
that another module has sent. -/
def indexParts (s : State) (o : OneSided) (i : Nat) : Except XStop (List (Nat × Nat)) :=
  match o.idx, assoc o.idxs i with
  | some base, none => s.ownerParts (o.owner s) (wordAdd base (8 + 4 * i)) 4 .read
  | _, _ => .ok []

/-- The index of element i of an operation (R184, R185): from another module, which has sent it, or as M holds it in its list. A poisoned one fails
the element as a poisoned source does (DESIGN CHOICE, log entry 94). -/
def elementIdx (s : State) (o : OneSided) (i : Nat) : Except XStop Nat :=
  match o.idx with
  | none => .ok i
  | some _ => match assoc o.idxs i with
    | some j => .ok j
    | none => (s.indexParts o i).bind fun ps =>
        if ps.any fun p => s.poisoned p.1 p.2 then .error (.code 0x15) else .ok (leNat (s.partsBytes ps))

/-- The row at whose APPLY an access is taken. -/
def Taking.row : Taking → Option Nat
  | .move ap => ap
  | .translate => none

/-- The open row in whose outside queue an element that fails must take its move (R84): its own destination's, else its index's; none where this is
an APPLY, which reads the rest as M holds it. -/
def failingRow? (s : State) (o : OneSided) (i : Nat) (index : List (Nat × Nat)) (how : Taking) : Option Thread :=
  if how.row.isSome then none else
    s.joins? (match o.kind with
      | .get => (s.ownerParts (o.owner s) (wordAdd o.dst (i * o.es)) o.es .write).toOption.getD []
      | _ => []) index none

/-- The next move of element i of a one-sided operation (R85, R185, R298). -/
def engElement (s : State) (id i : Nat) (how : Taking) : State :=
  match s.oneSided.find? (·.id == id) with
  | none => s
  | some o =>
    if o.taken.contains i ∨ o.n ≤ i ∨ s.receiverGated o.unit ∨ s.sentAway (.element id i) then s
    else if o.failed.any (·.1 == i) then (if how = .translate then s else s.endFailed o i how.row)
    else
      match o.kind with
      | .probe h tbl sigs => (match how with
        | .translate => s
        | .move ap => s.probeElement o h tbl sigs i ap)
      | _ =>
        let own := o.owner s
        match s.indexParts o i with
        | .error (.miss v) => s.postOwnerMiss own v .read
        | .error (.code c) => (s.dropNoMapping own).failElement o i c how.row
        | .error (.viol w) => (s.violate o.tenant 5 w 0 o.tenant (s.modid.toNat % 4096) false).failElement o i 0x13 how.row
        | .error (.remote m v) => if how = .translate then s else s.sendRemote m v (.index id i) []
        | .ok index => match s.partsReach (opParty o.id) false index with
          | .wait s _ => s
          | .ok s =>
            let fails (t : State) (e : Nat) : State := match s.failingRow? o i index how with
              | some th => if how = .translate then s else s.joinQueue th (.element id i)
              | none => t.failElement o i e how.row
            match s.elementIdx o i with
            | .error _ => fails s 0x15
            | .ok j => match s.attempt own (o.xfer i j) (.element id i) 0 index how 5 with
              | .wait s => s
              | .fail t e _ => fails t e
              | .remote s m w va bs => s.sendRemote m va (.element id i) (if w then bs else [])
              | .done s lines _ => s.setOneSided { o with taken := i :: o.taken, wrote := o.wrote ++ lines }

/-- ENGACC (R70, R84, R85), or the access taken at the APPLY of the queue it had joined. -/
def engAccess (s : State) (a : AccessId) (how : Taking) : State :=
  match a with
  | .command k i => s.engCommand k i how
  | .element id i => s.engElement id i how

end State

end Sys2Proof.Machine
end

