-- ==== Sys2Proof/Machine/Close.lean ====
section
/-!
DEFINITION. The outside queue of an open row (R76, R176), the operations of atomics (R190), and the close of a row (R77, R235, R266,
R366).
-/
namespace Sys2Proof.Machine

/-- The value an atomic writes over the old one; none when it writes nothing (R190). The width is n bytes. -/
def atomicNew (op : AtomOp) (n old v w : Nat) : Option Nat :=
  let m := 2 ^ (8 * n)
  let sg (x : Nat) : Int := signed (8 * n) x
  match op with
  | .add => some ((old + v) % m)
  | .and => some (Nat.land old v)
  | .or => some (Nat.lor old v)
  | .xor => some (Nat.xor old v)
  | .min => some (if sg v < sg old then v else old)
  | .max => some (if sg old < sg v then v else old)
  | .minu => some (if v < old then v else old)
  | .maxu => some (if old < v then v else old)
  | .swap => some v
  | .cas => if old = v then some w else none
  | .faddF32 => some (((Rl.decode .f32 old).add (.decode .f32 v)).rne .f32)
  | .faddBf16 => some (((Rl.decode .bf16 old).add (.decode .bf16 v)).rne .bf16)

/-- The key of a reply from another module. -/
def remoteKey (va : Word) : Nat := 2 ^ 60 + va.toNat

/-- The key of a load's answer: an access of another kind to the same address has a key of its own. -/
def sizedKey (key n : Nat) : Nat := key + 2 ^ 70 * n

namespace State

/-- The state that every access at a boundary of a closing row sees is the one the row is taking, and a STEP that the close ends is over
(R97, R98, R100), once no accumulator is to be written back and the store buffer has drained (R235, R366). -/
def showClose (s : State) (th : Thread) : State :=
  match th.closing with
  | none => s
  | some b => if b = dataBits ∨ s.accsDirty th ∨ th.sb ≠ [] then s else
    let s := s.setWord0 th.row (b % 2 ^ 32)
    if b % 16 = 1 ∧ s.ctrlField th.row 7 13 1 = 1 then s.setCtrl th.row 7 13 1 0 else s

/-- Bytes with a pending store laid over them where it covers them (R72). -/
def layOver (a : Nat) (bs : List Byte) (b : Nat) (new : List Byte) : List Byte :=
  (List.range bs.length).map fun i =>
    if b ≤ a + i ∧ a + i < b + new.length then new.getD (a + i - b) 0 else bs.getD i 0

/-- The bytes that a thread reads over a base value: its queued writes and its store buffer are newer (R72). -/
def forward (th : Thread) (queued : List OQEntry) (a : Nat) (bs : List Byte) : List Byte :=
  let bs := queued.foldl (fun bs e => match e with
    | .write (some t) b new _ => if t = th.id then layOver a bs b new else bs
    | _ => bs) bs
  th.sb.foldl (fun bs e => match e.mark with
    | .plain | .startData _ _ => if e.remote.isNone then layOver a bs e.dp e.bytes else bs
    | .group _ => layOver a bs e.dp e.bytes
    | .outside _ _ _ | .hub _ => bs) bs

/-- A byte that the thread's queued writes and store buffer do not cover is in a P granule or an uncorrectable line (R72). -/
def uncoveredBad (s : State) (th : Thread) (queued : List OQEntry) (a n : Nat) : Bool :=
  let zeros := forward th queued a (List.replicate n 0)
  let ones := forward th queued a (List.replicate n 0xFF)
  s.poisoned a n && (List.range n).any fun i => zeros.getD i 0 != ones.getD i 0 && s.poisoned (a + i) 1

/-- A thread's view of every line of some bytes becomes M's newest version. -/
def viewAll (s : State) (id a n : Nat) : State := (linesOf a n).foldl (fun s l => s.viewNewest id l) s

/-- An access of a thread by its identifier is counted in its tenant's window (R369). -/
def countFor (s : State) (id a : Nat) (write : Bool) : State :=
  match s.thread? id with
  | none => s
  | some t => s.countWindow (s.tenantOf t.row) a write

/-- The messages that posts have left in granule 0 of a slot bring the faulted row's lines with them (R115). -/
def consumePost (s : State) (id a n : Nat) : State :=
  (granules a n).foldl (fun s g => match assoc s.posted g with
    | none => s
    | some vs =>
      let s := { s with posted := assocDel s.posted g }
      vs.foldl (fun s v => s.advanceView id v.1 v.2) s) s

/-- The bytes that a thread reads from another module, with its pending stores to that module laid over them (R72, R379). -/
def forwardRemote (th : Thread) (m a : Nat) (bs : List Byte) : List Byte :=
  th.sb.foldl (fun bs e => if e.remote = some m then layOver a bs e.va.toNat e.bytes else bs) bs

/-- The row stalls on a unit of its executor at the boundary where it found the unit busy (R165, R225). -/
def onUnit (th : Thread) : Bool :=
  match th.stall with
  | some w => (match w.cond with
    | .unitBusy _ => true
    | _ => false)
  | none => false

/-- An open row stands at a boundary where an outside access can take its move: it has issued since the last one (R99), no matrix instruction of
the row is outstanding (R255), and it does not stall on a busy unit (R165, R225). -/
def takesOutside (th : Thread) : Bool := ! th.appliedSince && th.matrix.isEmpty && ! onUnit th

/-- An access of a party outside the rows would come before others, or where none can take its move: an open row that it reaches holds
earlier ones, or is at no such boundary (R76, R99), or writes of the hub wait for the row (R261). -/
def outsideHeld (s : State) (a : Nat) : Bool :=
  ((s.openAt? a).any fun u => ! u.oq.isEmpty || ! takesOutside u) || s.hubWrites.any fun w => rowOf w.dp == rowOf a

/-- An access of a party outside the rows has taken its move at a boundary of the open row that holds an address (R99). -/
def outsideTaken (s : State) (a : Nat) : State :=
  match s.openAt? a with
  | some u => s.updThread u.id fun t => { t with appliedSince := true }
  | none => s

/-- A thread waits for the answer to an outside access under a key, in the instruction that asked for it. -/
def awaits (a : Asker) (key : Nat) (t : Thread) : Bool := t.asker == a && t.asked.contains key

/-- The answer to an outside access reaches the thread that waits for it; one that an abandoned instruction has left behind answers nobody. -/
def answer (s : State) (a : Asker) (key : Nat) (r : Reply) : State :=
  s.updThread a.id fun t => if awaits a key t then { t with replies := t.replies ++ [r] } else t

/-- An atomic on M's newest version (R83, R190): the state and the old value; none on a P granule. -/
def doAtomic (s : State) (src : Option Nat) (op : AtomOp) (a n v w : Nat) (mark : StoreMark := .plain) : Option (State × Nat) :=
  if s.poisoned a n then none else
    let old := leNat (s.newest a n)
    let s := match atomicNew op n old v w with
      | some x => s.landStore src a (leBytes n x) mark
      | none => s
    let s := match src with
      | some id => s.viewNewest id (lineOf a)
      | none => s
    some (s, old)

/-- Every granule covered is in a state. -/
def granAll (s : State) (a n : Nat) (p : Gran → Bool) : Bool := (granules a n).all fun g => p (s.granOfAddr g)

/-- A thread's view takes the lines that the counted elements of a counter have written (R188). -/
def importCounted (s : State) (id counter : Nat) : State :=
  s.counted.foldl (fun s c => if c.1 = counter then s.advanceView id c.2.1 c.2.2 else s) s

/-- An update of a table is issued (R301): its parts, under its number. -/
def addParts (s : State) (usn : Nat) (parts : List HashPart) : State :=
  { s with parts := s.parts ++ parts.map fun (p : HashPart) => { p with usn := usn } }

/-- The unit of H.REHASH that an update begins for its issuer (R304). -/
def beginSplit (s : State) (id usn i : Nat) : State :=
  s.updThread id fun t => { t.askAnew with split := some ⟨0, usn, i, [], false, none⟩ }

/-- The move of an update on the descriptor in an open row (R301, R304): the number, its parts, and for H.REHASH the unit of an issuer that
still waits for it. -/
def applyIssue (s : State) (src : Asker) (a : Nat) (parts : List HashPart) : State :=
  match s.doAtomic (some src.id) .add a 8 1 0 with
  | none => s.answer src a (.fault a .datapoison)
  | some (s, old) =>
    let u := (old + 1) % 2 ^ 64
    let s := (((s.countFor src.id a true).noteWrote src.id (lineOf a)).answer src a (.data a (leBytes 8 old))).addParts u parts
    match parts.findSome? (·.split) with
    | none => s
    | some i => if (s.thread? src.id).any (awaits src a) then s.beginSplit src.id u i else s

/-- One entry of an open row's outside queue is applied (R76, R176), but for an FSHIP, which runs a routine, and a part of a table's update: each is an
APPLY of its own. -/
def applyEntry (s : State) (th : Thread) (rest : List OQEntry) (e : OQEntry) : State :=
  match e with
  | .write src a bs mark =>
    let s := s.landStore src a bs mark
    match src with
    | some id => s.viewNewest id (lineOf a)
    | none => s
  | .read src key a n =>
    match s.thread? src.id with
    | none => s
    | some t =>
      if s.uncoveredBad t rest a n then s.answer src key (.fault key .datapoison) else
        ((s.countFor src.id a false).viewAll src.id a n).answer src key (.data key (forward t rest a (s.newest a n)))
  | .atomic src op a n v w =>
    match s.doAtomic (some src.id) op a n v.toNat w.toNat with
    | none => s.answer src a (.fault a .datapoison)
    | some (s, old) => ((s.countFor src.id a true).noteWrote src.id (lineOf a)).answer src a (.data a (leBytes n old))
  | .ldfe src a n clear =>
    if s.granAll a n (· != .empty) then
      if s.poisoned a n then s.answer src a (.fault a .datapoison) else
        let bs := s.newest a n
        let s := ((s.countFor src.id a clear).viewNewest src.id (lineOf a)).answer src a (.data a bs)
        if clear then (s.setGran a n .empty).consumePost src.id a n else s
    else s.answer src a (.notEnabled a)
  | .stfe src a bs =>
    let n := bs.length
    if s.granAll a n (· == .empty) then
      let s := ((s.countFor src.id a true).landStore (some src.id) a bs .plain).setGran a n .full
      ((s.viewNewest src.id (lineOf a)).noteWrote src.id (lineOf a)).answer src a (.done a)
    else if s.poisoned a n then s.answer src a (.fault a .datapoison)
    else s.answer src a (.notEnabled a)
  | .sete src a n full =>
    ((s.countFor src.id a true).setGran a n (if full then .full else .empty)).answer src a (.done a)
  | .ccrd src a need =>
    if s.poisoned a 8 then s.answer src a (.fault a .datapoison)
    else if field (s.word64 a) 0 63 < need then s.answer src a (.notEnabled a)
    else ((s.countFor src.id a false).importCounted src.id a).answer src a (.data a (s.mem.bytes a 8))
  | .count _ a add => s.counterMove a add []
  | .update src a parts => s.applyIssue src a parts
  | .fship _ _ _ _ _ _ | .part _ _ _ => s
  | .hostRead a n =>
    { s with hostData := s.hostData ++ [if s.poisoned a n then ([], true) else (s.newest a n, false)] }
  | .access x => s.engAccess x (.move (some th.id))

/-- The head of a row's outside queue is applied: a move of its own, whose lines take their versions apart from what came before (R76). -/
def applyHead (s : State) (id : Nat) : State :=
  match s.thread? id with
  | none => s
  | some th => match th.oq with
    | [] => s
    | e :: rest =>
      let s := (s.showClose th).doomGroups
      let s : State := { s with touched := [] }
      (s.updThread id fun t => { t with oq := rest, oqAt := t.oqAt.drop 1, appliedSince := true }).applyEntry th rest e

/-- The head of a row's outside queue is an FSHIP or a part of a table's update: a close waits for its APPLY. -/
def shipFirst (th : Thread) : Bool :=
  match th.oq with
  | .fship _ _ _ _ _ _ :: _ | .part _ _ _ :: _ => true
  | _ => false

/-- The first n entries of a row's outside queue are applied in arrival order (R77), up to an FSHIP or a part of an update. -/
def applyAll (s : State) (id : Nat) : Nat → State
  | 0 => s
  | n + 1 => if (s.thread? id).any shipFirst then s else applyAll (s.applyHead id) id n

/-- An SB entry appended (R72). -/
def pushSB (s : State) (id : Nat) (e : SBEntry) : State := s.updThread id fun t => { t with sb := t.sb ++ [e] }

/-- The stores of a write-back, each checked as a store of the owning thread (R235): none when a translation misses and the service
has not said that there is no mapping; a store that cannot be made is dropped. The base is ASAVE whole (DESIGN CHOICE, log
entry 103). -/
def writeBackParts (s : State) (th : Thread) (drop : Bool) : List (Nat × List Byte) → Option State
  | [] => some s
  | (o, bs) :: rest =>
    let base := (s.asave th.row).toNat + o
    let parts := lineParts base bs.length
    let misses := parts.any fun p => s.check th (.ofNat 64 p.1) .write == .miss && ! s.answeredNone th.id (.ofNat 64 p.1)
    if misses ∧ ¬ drop then none else
      let s := parts.foldl (fun s p =>
        let va : Word := .ofNat 64 p.1
        let piece := (bs.drop (p.1 - base)).take p.2
        match s.check th va .write with
        | .own dp => s.storeRow th (some th.id) dp piece
        | .ok dp => (((s.noteBankWindow th va.toNat dp).countWindow (s.tenantOf th.row) dp true).pushSB th.id
            ⟨dp, piece, va, s.asidOf th.row, .plain, none, none⟩).noteWrote th.id (lineOf dp)
        | .remote m => s.pushSB th.id ⟨0, piece, va, s.asidOf th.row, .plain, some m, none⟩
        | .violation w => s.violateBy th 1 w
        | _ => s) s
      writeBackParts s th drop rest

/-- The pages of the save area that a write-back would miss on are asked for (R235). -/
def postWriteBackMisses (s : State) (th : Thread) : State :=
  (s.writeBackStores th).foldl (fun s p =>
    (lineParts ((s.asave th.row).toNat + p.1) p.2.length).foldl (fun s q =>
      if s.check th (.ofNat 64 q.1) .write = .miss ∧ ! s.answeredNone th.id (.ofNat 64 q.1) then
        s.postMiss th (.ofNat 64 q.1) .write false else s) s) s

/-- The write-back of a thread's accumulators (R235): none while a page of the save area is awaited. -/
def writeBack (s : State) (th : Thread) (drop : Bool) : Option State :=
  if ¬ s.accsDirty th ∨ th.closing = some dataBits then some s else
    (s.writeBackParts th drop (s.writeBackStores th)).map fun s' => (s'.markSaved th).dropAnswers th.id

/-- A closing DRAM row is precharged (R109, R259). -/
def precharge (s : State) (th : Thread) : State :=
  if th.exec ≠ .bank then s else
    match s.locate th.row with
    | some l => if (s.subarray l.subId).buf = BufState.thread l.rown then s.setBuf l.subId .free else s
    | none => s

/-- These word-0 bits end a walk: its row is STOPPED, FAULTED or FREE (R251, R253). -/
def endsWalk (bits : Nat) : Bool := bits % 16 == 1 || bits % 16 == 5 || bits % 16 == 0

/-- A walker's row belongs to its tile again once its walk has ended (R251). -/
def homeExec (s : State) (th : Thread) (bits : Nat) : Thread :=
  if th.exec ≠ .walker ∨ ! endsWalk bits then th else
    match s.region th.row with
    | .tile k => { th with exec := .tile, place := k }
    | _ => { th with exec := .tile }

/-- The commands held during a walk are taken once it has ended (R253). -/
def releaseCommands (s : State) (th : Thread) (bits : Nat) : State :=
  if th.exec ≠ .walker ∨ ! endsWalk bits then s else
    let held := s.skinks.flatMap fun k => if k.cluster = th.place then k.heldCommands.filter (·.1 == th.row) else []
    let s := { s with skinks := s.skinks.map fun k =>
      if k.cluster = th.place then { k with heldCommands := k.heldCommands.filter (·.1 != th.row) } else k }
    held.foldl (fun s p => s.takeCommand th.id p.2) s

/-- The last steps of a close (R366, steps 6 to 8): holds, the buffer of a DRAM row, and STATE; a row that has become a DATA row has none of
its own (R98). -/
def finishClose (s : State) (th : Thread) (bits : Nat) : State :=
  if bits = dataBits then (s.precharge th).rowToData th else
  let s := (s.releaseHolds th false).precharge th
  let s := s.setWord0 th.row (bits % 2 ^ 32)
  let s := if bits % 16 = 1 && s.ctrlField th.row 7 13 1 == 1 then s.setCtrl th.row 7 13 1 0 else s
  let now := s.ticksOf (s.homeExec th bits)
  let s := s.updThread th.id fun t =>
    let t := s.homeExec t bits
    { t with closing := none, slot := none, closedAt := s.now, fbuf := [], reread := none, staged := [], readyAt := now, appliedSince := false,
                        issued := 0, oqAt := [], pairing := false, uses := none,
                        stall := if bits % 16 = 4 then t.stall else none }
  s.releaseCommands th bits

/-- A close goes on (R77, R235, R255, R366) as far as it can in one move: matrix work must have ended, the outside queue
is applied (an FSHIP or a part of an update in it by an APPLY of its own, which goes on with the close), accumulators are written back, and the row closes once the store buffer has drained. -/
def progressClose (s : State) (id : Nat) (drop : Bool) : State :=
  match s.thread? id with
  | none => s
  | some th => match th.closing with
    | none => s
    | some _ =>
      if th.matrix ≠ [] then s else
        let s := s.applyAll id th.oq.length
        match s.thread? id with
        | none => s
        | some th => if ! th.oq.isEmpty then s else match s.writeBack th drop with
          | none => s.postWriteBackMisses th
          | some s => match s.thread? id with
            | none => s
            | some th => match th.closing with
              | none => s
              | some bits => if th.sb ≠ [] then s else s.finishClose th bits

/-- The exchange of a domain is running for a member (R331): from T0 to the end of the last slot, in eighteenths of a nanosecond. -/
def inExchange (s : State) (th : Thread) : Bool :=
  s.domains.any fun d => d.members.contains th.id &&
    d.begun.any fun b => decide (b.2 ≤ 18 * s.now ∧ 18 * s.now < b.2 + 5 * d.width * d.slots)

/-- A member's row in its domain's exchange is closed by no quantum, priority or claim (R331); gating is none of these (R32). -/
def exchangeHolds (s : State) (th : Thread) : Bool := s.inExchange th && s.islandOn th.island

/-- A pre-emption (R366, R282): the row closes READY, and WAITING for the allocator's reply while its spawn request is pending, since TH.SPAWN has
issued (R104, R121); one that comes during a unit of H.REHASH waits for its move (c) (R305), and one during
in-memory work for a safe point. -/
def preempt (s : State) (th : Thread) : State :=
  if th.slot.isNone ∨ th.closing.isSome then s
  else if splitBusy th then s.updThread th.id fun t => { t with heldPreempt := true }
  else if th.exec = .bank ∧ s.inMem th.row then
    s.updThread th.id fun t => { t with deferred := some (t.deferred.getD (s.ticksOf th)) }
  else (s.setLogical th.id (if spawnPending th then waitBits 0xA 0 else 2)).progressClose th.id false

end State

end Sys2Proof.Machine
end

