-- ==== Sys2Proof/Machine/Exec.lean ====
section
/-!
DEFINITION. An ISSUE (R70): a thread's instruction runs as one step that completes, faults with no move (R71, R113), or stalls (R103);
the advance of the instruction address (R53), the loop test (R139), and the loads, stores, atomics and full/empty accesses of a
thread (R72, R167 to R176, R182, R190, R379).
-/
namespace Sys2Proof.Machine

/-- What a fault leaves beside itself: a violation record, a LOST hold entry that becomes NONE (R267), an accumulator that becomes LOST
(R236), the end of a walk that its requester has taken (R253), the end of a unit of H.REHASH (R305). -/
inductive Note where
  | violation (kind : Nat) (addr : Word)
  | holdNone (k : Nat)
  | accLost (k : Nat)
  | walkEnded
  | splitEnded
  deriving DecidableEq, Repr

/-- Why an instruction does not complete now: a fault, a stall that takes no move, or a stall that has asked for something: what it asks
for, and the state in which it has reached rows, of which only the row buffers and their regulators stand (R104, R259, R270). -/
inductive Stop where
  | fault (c : Cause) (data : Word) (notes : List Note)
  | stall (wkind warg : Nat) (cond : WaitCond)
  | hold (wkind warg : Nat) (cond : WaitCond) (asks : State → State) (reached : State)

/-- An instruction's body: it reads and writes the state, or stops. -/
abbrev Exec := StateT State (Except Stop)

/-- How control goes on after an instruction. -/
inductive Flow where
  /-- The next instruction in sequence. -/
  | next
  /-- A transfer, with the checks at the target and whether the fetch buffer is discarded (R132, R144). -/
  | jump (target : Word) (check : Option TargetCheck) (discard : Bool)
  /-- A LOOP that executed: it has set the loop word itself (R138, R139). -/
  | loopSet (target : Word) (check : Option TargetCheck) (discard : Bool)
  /-- A unit of an interruptible instruction, more to come (R101, R102). -/
  | again
  /-- The next instruction, and the row closes after this issue with these word-0 bits (R122 to R124). -/
  | close (bits : Nat)
  /-- The instruction has issued and waits for a reply that advances it (R120). -/
  | stay (wkind warg : Nat) (cond : WaitCond)

/-- Index (R53). -/
def pcIndex (pc : Word) : Nat := pc.toNat / 64 * 5 + pc.toNat % 8

/-- Address (R53). -/
def pcAddress (n : Nat) : Word := .ofNat 64 (n / 5 * 64 + n % 5)

/-- The address has the form of R52. -/
def pcWellFormed (pc : Word) : Bool := decide (field pc 0 3 < 5) && field pc 3 3 == 0 && field pc 56 8 == 0

/-- The next instruction address in sequence (R53). -/
def pcNext (pc : Word) : Word := pcAddress (pcIndex pc + 1)

namespace State

/-- What a fault's notes leave. -/
def applyNote (s : State) (th : Thread) : Note → State
  | .violation k a => s.violateBy th k a
  | .holdNone k => s.setHold th.row k 0 0
  | .accLost k => s.setAccStatus th.row k 2 (s.accInc th.row k)
  | .walkEnded => { s with skinks := s.skinks.map fun k => { k with ends := k.ends.filter (·.1 != th.id) } }
  | .splitEnded => s.updThread th.id fun t => { t with split := none }

/-- The loop test of R139 for an instruction that transferred: the loop word, when a loop is active. -/
def loopAfterJump (s : State) (row : Nat) (pc target : Word) : State :=
  let w := s.ctrl row 4
  if field w 32 1 = 0 then s else
    let le := pcIndex pc + field w 48 16
    let t := pcIndex target
    if le ≤ t + field w 33 15 ∧ t ≤ le then s.pokeWord (row + 0x20) (setField w 48 16 (le - t))
    else s.pokeWord (row + 0x20) (setField w 32 1 0)

/-- The loop test of R139 for an instruction that did not transfer: the state, the next address, and whether it is a back-edge. Where the loop is
longer than the index at its end, the back-edge goes to index 0 (DESIGN CHOICE, log entry 116). -/
def loopAfterNext (s : State) (row : Nat) (pc : Word) : State × Word × Bool :=
  let w := s.ctrl row 4
  if field w 32 1 = 0 then (s, pcNext pc, false)
  else if field w 48 16 = 0 then
    (if field w 0 32 ≤ 1 then (s.pokeWord (row + 0x20) (setField (setField w 0 32 0) 32 1 0), pcNext pc, false)
     else (s.pokeWord (row + 0x20) (setField (setField w 0 32 (field w 0 32 - 1)) 48 16 (field w 33 15)),
       pcAddress (pcIndex pc - field w 33 15), true))
  else (s.pokeWord (row + 0x20) (setField w 48 16 (field w 48 16 - 1)), pcNext pc, false)

/-- An issue writes the next address into the PC word and clears PCW (R92). -/
def writePc (s : State) (row : Nat) (pc : Word) : State :=
  let s := s.pokeWord (row + 8) pc
  if s.ctrlField row 7 12 1 = 1 then s.setCtrl row 7 12 1 0 else s

/-- The issue ends at the next address (R92), and the checks at the target wait for the next issue. -/
def setNext (s : State) (id row : Nat) (pc : Word) (check : Option TargetCheck) (discard : Bool) : State :=
  (s.writePc row pc).updThread id fun t =>
    { t.askAnew with ip := pc, check := check, stall := none, fbuf := if discard then [] else t.fbuf }

/-- A command that the thread's own store has posted is taken at the end of its issue, which is that of the second of a pair (R61). -/
def takeOwnCommand (s : State) (id : Nat) : State :=
  match s.thread? id with
  | none => s
  | some th => if th.ownCmd = 0 ∨ th.pairing then s else
      (s.updThread id fun t => { t with ownCmd := 0 }).command { th with ownCmd := 0 } (some id) th.ownCmd

/-- A STEP in progress ends at this boundary (R97). -/
def endStep (s : State) (id row : Nat) : State :=
  if s.ctrlField row 7 13 1 = 1 then s.beginClose id 1 else s

/-- The issues of a walk are counted (R253). -/
def countWalk (s : State) (th : Thread) : State :=
  if th.exec ≠ .walker then s else
    { s with skinks := s.skinks.map fun k => if k.cluster = th.place then { k with issues := k.issues + 1 } else k }

/-- The cycles that an executor's unit takes no further instruction (R165, R225). -/
def useUnit (s : State) (th : Thread) (kind cycles : Nat) : State :=
  let u : UnitBusy := ⟨kind, th.exec, th.place, s.ticksOf th + 1000 * cycles⟩
  { s with units := u :: s.units.filter fun b => ! (b.kind == kind && b.exec == th.exec && b.place == th.place) }

/-- A unit of a thread's executor takes no instruction yet (R165, R225). -/
def unitBusy (s : State) (th : Thread) (kind : Nat) : Bool :=
  s.units.any fun b => b.kind == kind && b.exec == th.exec && b.place == th.place && decide (s.ticksOf th < b.freeAt)

/-- An issue of a row is one between two entries of its outside queue (R75, R99), is one from its fetch-buffer line (R143), and takes the
unit it uses (R165, R225). -/
def noteIssue (s : State) (th : Thread) : State :=
  let s := match th.uses with
    | some (kind, cycles) => s.useUnit th kind cycles
    | none => s
  s.updThread th.id fun t =>
    { t with uses := none, appliedSince := false, issued := t.issued + 1
             fbuf := t.fbuf.map fun (f : FetchLine) => if f.va = lineOf th.ip.toNat then { f with issued := true } else f }

/-- The end of an issue that completed: a walk that it, or what stood in its place before, has asked for is of no more use (R251). The loop test of a TH.SPAWN
is made here, and its reply goes on where that leads (R120, R139). A back-edge of the loop test is checked at its target as a transfer is (R58), but for bytes 16 to 23 of the
message, which it leaves 0 (DESIGN CHOICE, log entry 95). -/
def finishIssue (s : State) (th : Thread) (flow : Flow) : State :=
  let s := ((s.countWalk th).dropWalk th.id).noteIssue th
  let id := th.id
  let row := th.row
  let pc := th.ip
  match flow with
  | .next =>
    let (s, n, back) := s.loopAfterNext row pc
    ((s.setNext id row n (if back then some ⟨true, none, none⟩ else none) false).endStep id row).takeOwnCommand id
  | .jump t c d =>
    (((s.loopAfterJump row pc t).setNext id row t c d).endStep id row).takeOwnCommand id
  | .loopSet t c d => ((s.setNext id row t c d).endStep id row).takeOwnCommand id
  | .again => ((s.setNext id row pc none false).endStep id row).takeOwnCommand id
  | .close bits =>
    let (s, n, back) := s.loopAfterNext row pc
    let stall := (s.thread? id).bind (·.stall)
    let s := s.setNext id row n (if back then some ⟨true, none, none⟩ else none) false
    let s := s.updThread id fun t => { t with stall := if bits % 16 = 4 then stall else none }
    if s.ctrlField row 7 13 1 = 1 ∧ bits ≠ 0 then
      (if bits % 16 = 4 then s.setCtrl row 0 32 32 0 else s).endStep id row
    else s.beginClose id bits
  | .stay wk wa c =>
    let (s, n, back) := s.loopAfterNext row pc
    let s := (s.writePc row pc).updThread id fun t => { t with spawn := t.spawn.map fun q => { q with next := n, back := back } }
    if s.ctrlField row 7 13 1 = 1 then s.endStep id row
    else s.updThread id fun t =>
      { t.askAnew with stall := some ⟨wk, wa, c⟩, stalledAt := s.ticksOf th }

/-- The instruction at issue does not complete: a STEP in progress ends with nothing done (R97), a unit of H.REHASH apart, which has
begun; and else it stalls (R103), and reads its resident batch again when it issues (R244). -/
def blockIssue (s : State) (th : Thread) (wk wa : Nat) (c : WaitCond) : State :=
  if s.ctrlField th.row 7 13 1 = 1 ∧ c ≠ .split ∧ ! splitBusy th then s.beginClose th.id 1
  else s.updThread th.id fun t =>
    { t with staged := [], stall := some ⟨wk, wa, c⟩, stalledAt := if t.stall.isSome then t.stalledAt else s.ticksOf th }

/-- A state in which only the row buffers, claims, regulators, page table and tracker are as an issue that did not complete left them. -/
def keepReached (s u : State) : State :=
  { s with subs := u.subs, stackRegs := u.stackRegs, dpit := u.dpit, pageUse := u.pageUse }

end State

/-- The outcome of an instruction's body at issue. -/
def runIssue (s : State) (th : Thread) (r : Except Stop (Flow × State)) : State :=
  match r with
  | .ok (flow, s') => (s'.finishIssue th flow).progressClose th.id false
  | .error (.fault c d notes) =>
    (((notes.foldl (fun s n => s.applyNote th n) s).takeFault th.id c d).takeOwnCommand th.id).progressClose th.id false
  | .error (.stall wk wa c) => (s.blockIssue th wk wa c).progressClose th.id false
  | .error (.hold wk wa c f u) => ((f (s.keepReached u)).blockIssue th wk wa c).progressClose th.id false

/-- The thread at issue runs an instruction's body. -/
def asInstr (body : Exec Flow) (s : State) : Host.Outcome State Fault Refusal :=
  match s.cur.bind s.thread? with
  | none => .fault .noThreadAtIssue
  | some th => .next (runIssue s th (body.run s))

namespace Exec

/-- The instruction faults (R113). -/
def fault {α : Type} (c : Cause) (data : Word := 0) : Exec α := throw (.fault c data [])

/-- The instruction faults, with a violation record (R171). -/
def faultLogged {α : Type} (c : Cause) (data : Word) (kind : Nat) (addr : Word) : Exec α :=
  throw (.fault c data [.violation kind addr])

/-- The instruction stalls and takes no move (R103). -/
def stall {α : Type} (wk wa : Nat) (c : WaitCond) : Exec α := throw (.stall wk wa c)

/-- The instruction stalls, and what it has asked for stands; nothing else that it has done does (R104). -/
def hold {α : Type} (wk wa : Nat) (c : WaitCond) (f : State → State) : Exec α := do
  let s ← get
  throw (.hold wk wa c f s)

/-- A part of an instruction whose faults take another form. -/
def mapFault {α : Type} (m : Exec α) (g : Cause → Word → List Note → Stop) : Exec α := fun s =>
  match m s with
  | .error (.fault c d notes) => .error (g c d notes)
  | r => r

/-- A part of an instruction whose faults are kept aside. -/
def caught {α : Type} (m : Exec α) : Exec (Except (Cause × Word × List Note) α) := fun s =>
  match m s with
  | .error (.fault c d notes) => .ok (.error (c, d, notes), s)
  | .error e => .error e
  | .ok (a, s) => .ok (.ok a, s)

/-- The instruction stops unless a condition holds. -/
def require (b : Bool) (c : Cause) (data : Word := 0) : Exec Unit := if b then pure () else fault c data

/-- The thread at issue. -/
def me : Exec Thread := do
  let s ← get
  match s.cur.bind s.thread? with
  | some th => pure th
  | none => pure default

/-- The row of the thread at issue. -/
def myRow : Exec Nat := do return (← me).row

/-- The thread's store buffer is empty, or the instruction stalls with WKIND 0xC (R83, R84, R103). -/
def sbEmpty : Exec Unit := do
  let th ← me
  if th.sb.isEmpty then pure () else stall 0xC 0 .sbEmpty

/-- A translation miss is posted and the row waits with WKIND 0x7 (R170). -/
def missAt {α : Type} (va : Word) (k : AccKind) : Exec α := do
  let s ← get
  let th ← me
  hold 7 0 (.translation (th.unit.getD 0) (s.asidOf th.row) va) fun s => s.postMiss th va k false

/-- The row of an address can be served (R259 to R261), or the access waits with WKIND 0xB (R103). -/
def reachRow (dp : Nat) (write : Bool) : Exec Unit := do
  let s ← get
  let th ← me
  match s.reach (th.id + 1) dp write with
  | .ok s => set s
  | .wait u sub => throw (.hold 0xB sub (.buffer (match u.locate dp with
      | some l => l.subId
      | none => 0) (rowOf dp)) id u)

/-- The answer to an outside access, when it has come. -/
def reply? (key : Nat) : Exec (Option Reply) := do
  let th ← me
  return th.replies.find? fun r => match r with
    | .data k _ | .done k | .notEnabled k | .fault k _ => k == key

/-- The answer to an access that was put into an outside queue, whether its row is still open or not; the row waits while there is none
(R76, R176). None where the access has not been asked for. -/
def answered (key : Nat) : Exec (Option Reply) := do
  match (← reply? key) with
  | some r => return some r
  | none =>
    let th ← me
    if th.asked.contains key then stall 0xC 0 .reply else return none

/-- An outside access is asked for once, and the row waits for its answer (R176, R379). -/
def ask {α : Type} (key : Nat) (f : State → State) : Exec α := do
  let th ← me
  if th.asked.contains key then stall 0xC 0 .reply
  else hold 0xC 0 .reply fun s => (f s).updThread th.id fun t => { t with asked := t.asked ++ [key] }

/-- The answers that an access has had are of no more use. -/
def forget (th : Thread) (s : State) : State := s.updThread th.id Thread.askAnew

/-- An entry of this thread joins the outside queue of an open row. -/
def queueOn (row : Nat) (e : OQEntry) (s : State) : State :=
  match s.openAt? row with
  | some u => s.enqueue u.id e
  | none => s

/-- An outside queue holds an entry of the thread for a line (R72). -/
def queuedFor (s : State) (id line : Nat) : Bool :=
  s.threads.any fun u => u.oq.any fun e => (State.entrySource e).any (·.1 == id) && (State.entryLines e).contains line

/-- A LOST hold entry names the row: HOLDLOST, and the entry becomes NONE (R267). -/
def checkHold (dp : Nat) (va : Word) : Exec Unit := do
  let s ← get
  let th ← me
  match s.lostHold? th dp with
  | some k => throw (.fault .holdlost va [.holdNone k])
  | none => pure ()

/-- The row that an address lies in is open and another thread's. -/
def openOther (s : State) (th : Thread) (dp : Nat) : Bool :=
  match s.openAt? dp with
  | some u => u.id != th.id
  | none => false

/-- The bytes of an access to M whose row can be served (R72, R175, R277). -/
def readHere (dp n : Nat) (va : Word) (nw : Bool) : Exec (List Byte) := do
  let th ← me
  modify fun s => s.countWindow (s.tenantOf th.row) dp false
  modify fun s => if nw then s.viewNewest th.id (lineOf dp) else s.boundView th (lineOf dp)
  let s ← get
  let th ← me
  if s.uncoveredBad th [] dp n then fault .datapoison va
  let base := match s.shadowBytes? th.id dp n with
    | some bs => bs
    | none => s.viewBytes th dp n
  return State.forward th [] dp base

/-- The bytes of an access to M that the checks have passed. -/
def readMemory (dp n : Nat) (va : Word) (nw : Bool) : Exec (List Byte) := do
  checkHold dp va
  reachRow dp false
  let th ← me
  modify fun s => s.noteBankWindow th va.toNat dp
  readHere dp n va nw

/-- A load through the outside queue of another thread's open row (R72, R76, R167, R176): one entry for the whole access, whose parts lie
in one row. None where the access takes no outside queue. -/
def queuedLoad (va : Word) (n : Nat) : Exec (Option (List Byte)) := do
  let s ← get
  let th ← me
  match s.check th va .read with
  | .ok dp =>
    if s.region dp = .control then return none
    match (← answered (sizedKey dp n)) with
    | some (.data _ bs) => return some bs
    | some (.fault _ c) => fault c va
    | _ =>
      if openOther s th dp then
        checkHold dp va
        let held := (linesOf dp n).filter fun l => queuedFor s th.id l
        if ! held.isEmpty then stall 0xC 0 (.queueClear held)
        else ask (sizedKey dp n) fun s => queueOn dp (.read th.asker (sizedKey dp n) dp n) (s.noteBankWindow th va.toNat dp)
      else return none
  | _ => return none

/-- A load within one line (R72, R169, R171, R379): the record kind is 0 for loads. -/
def loadLine (va : Word) (n : Nat) (nw : Bool) : Exec (List Byte) := do
  let s ← get
  let th ← me
  match s.check th va .read with
  | .own dp => if s.poisoned dp n then fault .datapoison va else return s.newest dp n
  | .fault c => fault c va
  | .miss => missAt va .read
  | .violation a => faultLogged .datapoison va 0 a
  | .remote m =>
    match (← reply? (sizedKey (remoteKey va) n)) with
    | some (.data _ bs) => return State.forwardRemote th m va.toNat bs
    | some (.fault _ c) => fault c va
    | _ => ask (sizedKey (remoteKey va) n) fun s => s.sendRemote m va (.load th.asker n) []
  | .ok dp =>
    match s.region dp with
    | .control => match s.controlBytes dp n with
      | some bs => return bs
      | none => faultLogged .datapoison va 0 (.ofNat 64 dp)
    | _ => readMemory dp n va nw

/-- An access that would span an aligned 2 KiB boundary faults with ALIGN (R167). -/
def inBlock (va : Word) (n : Nat) : Exec Unit :=
  require (decide (va.toNat % rowBytes + n ≤ rowBytes)) .align va

/-- The checks of every part of an access are made before any part takes a move (R167). -/
def precheck (va : Word) (n : Nat) (k : AccKind) : Exec Unit := do
  let s ← get
  let th ← me
  for p in lineParts va.toNat n do
    let a : Word := .ofNat 64 p.1
    match s.check th a k with
    | .fault c => fault c va
    | .miss => missAt a k
    | .violation w => if k = .read then faultLogged .datapoison va 0 w else pure ()
    | _ => pure ()

/-- A load of n bytes, line part by line part (R67, R167), or whole through an outside queue (R76). -/
def load (va : Word) (n : Nat) (nw : Bool := false) : Exec (List Byte) := do
  inBlock va n
  precheck va n .read
  match (← queuedLoad va n) with
  | some bs => return bs
  | none =>
    let bs ← (lineParts va.toNat n).mapM fun p => loadLine (.ofNat 64 p.1) p.2 nw
    return bs.flatten

/-- A range read as loads of its lines, each part its own access: matrix operands and the reads that other units make for a thread
(R241, R254). -/
def loadLines (va : Word) (n : Nat) : Exec (List Byte) := do
  let bs ← (lineParts va.toNat n).mapM fun p => load (.ofNat 64 p.1) p.2
  return bs.flatten

/-- A thread's own row or memory takes a store within one line (R72, R168, R171, R277, R379). A store whose own translation loads a bank window
register hits that register, and is a group store (DESIGN CHOICE, log entry 99). -/
def storeLine (va : Word) (bs : List Byte) (mark : StoreMark) (group : Bool := true) : Exec Unit := do
  let s ← get
  let th ← me
  let asid := s.asidOf th.row
  match s.check th va .write with
  | .own dp => modify fun s => s.storeRow th (some th.id) dp bs
  | .fault c => fault c va
  | .miss => missAt va .write
  | .violation a =>
    let isCmd := decide (8 ≤ bs.length) && va.toNat % rowBytes == 0 && decide (16 ≤ (bs.getD 0 0).toNat) &&
      s.inThreadRow a.toNat
    modify fun s => s.violateBy th (if isCmd then 9 else 1) a
  | .remote m => modify fun s => s.pushSB th.id ⟨0, bs, va, asid, mark, some m, none⟩
  | .ok dp =>
    checkHold dp va
    modify fun s => (s.noteBankWindow th va.toNat dp).countWindow (s.tenantOf th.row) dp true
    let s ← get
    let mark ← (if group && s.isGroupStore th va.toNat dp then
      match s.reserveShadow th (rowOf dp) with
      | some s => do set s; pure (StoreMark.group (rowOf dp))
      | none => fault .txlimit va
      else pure mark)
    modify fun s => (s.pushSB th.id ⟨dp, bs, va, asid, mark, none, none⟩).noteWrote th.id (lineOf dp)

/-- A store of bytes, line part by line part (R67, R167); one that R277 does not name is never a group store. -/
def store (va : Word) (bs : List Byte) (mark : StoreMark := .plain) (group : Bool := true) : Exec Unit := do
  inBlock va bs.length
  precheck va bs.length .write
  for p in lineParts va.toNat bs.length do
    storeLine (.ofNat 64 p.1) ((bs.drop (p.1 - va.toNat)).take p.2) mark group

/-- The address a checked access that must not be remote or in control space reaches, and whether it is the thread's own row (R171:
a violation faults with DATAPOISON under a record kind). -/
def plainAddr (va : Word) (k : AccKind) (kind : Nat) : Exec (Nat × Bool) := do
  let s ← get
  let th ← me
  match s.check th va k with
  | .own dp => return (dp, true)
  | .ok dp => (match s.region dp with
    | .control => fault .protect va
    | _ => return (dp, false))
  | .fault c => fault c va
  | .miss => missAt va k
  | .violation a => faultLogged .datapoison va kind a
  | .remote _ => fault .protect va

/-- An atomic (R83, R176, R190, R379): the old value, and whether it was performed in an outside queue, as the entry that is given. Alignment and
an empty store buffer come first. -/
def atomicAs (entry : Asker → Nat → OQEntry) (op : AtomOp) (va : Word) (n : Nat) (v w : Word) : Exec (Nat × Bool) := do
  require (va.toNat % n == 0) .align va
  sbEmpty
  let s ← get
  let th ← me
  match s.check th va .rmw with
  | .remote m =>
    (match (← reply? (remoteKey va)) with
     | some (.data _ bs) => return (leNat bs, false)
     | some (.fault _ c) => fault c va
     | _ => ask (remoteKey va) fun s => s.sendRemote m va (.atomic th.asker op n v w) [])
  | _ =>
    let (dp, own) ← plainAddr va .rmw 2
    match (← answered dp) with
    | some (.data _ bs) => return (leNat bs, true)
    | some (.fault _ c) => fault c va
    | _ =>
      if ! own then checkHold dp va
      if ! own && openOther s th dp then
        ask dp fun s => queueOn dp (entry th.asker dp) (s.noteBankWindow th va.toNat dp)
      else
        if ! own then do
          reachRow dp true
          modify fun s => (s.noteBankWindow th va.toNat dp).countWindow (s.tenantOf th.row) dp true
        let s ← get
        match s.doAtomic (some th.id) op dp n v.toNat w.toNat with
        | none => fault .datapoison va
        | some (s, old) => do
          set (s.noteWrote th.id (lineOf dp))
          return (old, false)

/-- An atomic: the old value (R83, R190). -/
def atomic (op : AtomOp) (va : Word) (n : Nat) (v w : Word) : Exec Nat := do
  let r ← atomicAs (fun a dp => .atomic a op dp n v w) op va n v w
  return r.1

/-- A full/empty access goes through the TLB (R395), and is counted in its window (R369). -/
def countFE (th : Thread) (va : Word) (dp : Nat) (write : Bool) (s : State) : State :=
  (s.noteBankWindow th va.toNat dp).countWindow (s.tenantOf th.row) dp write

/-- The address of a full/empty access (R169, R182, R183): tile memory, or PROTECT; a violating store takes no effect (R171). -/
def granAddr (va : Word) (k : AccKind) (isLoad : Bool) : Exec (Option (Nat × Bool)) := do
  let s ← get
  let th ← me
  match s.check th va k with
  | .violation a =>
    if isLoad then faultLogged .datapoison va 0 a
    else do
      modify fun s => s.violateBy th 1 a
      return none
  | _ =>
    let (dp, own) ← plainAddr va k 0
    if ! s.hasGran dp then fault .protect va
    return some (dp, own)

/-- LDFE on n bytes (R86, R182). -/
def loadFE (va : Word) (n : Nat) (clear : Bool) : Exec (List Byte) := do
  let th ← me
  match (← granAddr va (if clear then .rmw else .read) true) with
  | none => return []
  | some (dp, own) =>
    let s ← get
    match (← answered dp) with
    | some (.data _ bs) => return bs
    | some (.fault _ c) => fault c va
    | some (.notEnabled _) =>
      hold 2 0 (.granules dp n true) (forget th)
    | _ =>
      if ! own && openOther s th dp then
        ask dp fun s => queueOn dp (.ldfe th.asker dp n clear) (s.noteBankWindow th va.toNat dp)
      else
        if ! s.granAll dp n (· != .empty) then stall 2 0 (.granules dp n true)
        if s.poisoned dp n then fault .datapoison va
        if ! own then modify fun s => (countFE th va dp clear s).viewNewest th.id (lineOf dp)
        if clear then modify fun s => (s.setGran dp n .empty).consumePost th.id dp n
        return s.newest dp n

/-- STFE (R86, R182). -/
def storeFE (va : Word) (bs : List Byte) : Exec Unit := do
  sbEmpty
  let th ← me
  let n := bs.length
  match (← granAddr va .rmw false) with
  | none => pure ()
  | some (dp, own) =>
    let s ← get
    match (← answered dp) with
    | some (.fault _ c) => fault c va
    | some (.notEnabled _) =>
      hold 2 0 (.granules dp n false) (forget th)
    | some _ => pure ()
    | none =>
      if ! own && openOther s th dp then
        ask dp fun s => queueOn dp (.stfe th.asker dp bs) (s.noteBankWindow th va.toNat dp)
      else
        if s.poisoned dp n then fault .datapoison va
        if ! s.granAll dp n (· == .empty) then stall 2 0 (.granules dp n false)
        if ! own then modify fun s => countFE th va dp true s
        modify fun s =>
          (((s.landStore (some th.id) dp bs .plain).setGran dp n .full).viewNewest th.id (lineOf dp)).noteWrote th.id (lineOf dp)

/-- SETE (R182). -/
def setFE (va : Word) (n : Nat) (full : Bool) : Exec Unit := do
  sbEmpty
  let th ← me
  match (← granAddr va .rmw false) with
  | none => pure ()
  | some (dp, own) =>
    let s ← get
    match (← answered dp) with
    | some _ => pure ()
    | none =>
      if ! own && openOther s th dp then
        ask dp fun s => queueOn dp (.sete th.asker dp n full) (s.noteBankWindow th va.toNat dp)
      else
        if ! own then modify fun s => countFE th va dp true s
        modify fun s => s.setGran dp n (if full then .full else .empty)

/-- The counter of a one-sided operation (R184): 16-byte aligned, checked for writing; a violation faults with DATAPOISON, and
its record has kind 1, of which R370 names no such check (DESIGN CHOICE, log entry 108). -/
def counterAddr (va : Word) : Exec Nat := do
  require (va.toNat % 16 == 0) .align va
  let (dp, own) ← plainAddr va .write 1
  let th ← me
  if ! own then modify fun s => s.noteBankWindow th va.toNat dp
  return dp

end Exec

end Sys2Proof.Machine
end

