-- ==== Sys2Proof/Machine/Operands.lean ====
section
/-!
DEFINITION. Every operand form: scalar, queue and predicate operands (R152, R162, R335), vector operands with stream slots and
broadcast scalars (R177 to R179, R207), the address of format FM (R50), immediates (R150), branch targets (R53).
-/
namespace Sys2Proof.Machine

/-- The number of a scalar specifier. -/
def xnum : Specifier → Nat
  | .x n => n.val
  | _ => 0

/-- The number of a vector specifier. -/
def vnum : Specifier → Nat
  | .v n => n.val
  | _ => 0

/-- The number of an accumulator specifier. -/
def anum : Specifier → Nat
  | .a n => n.val
  | _ => 0

/-- The width of an integer operation (R149). -/
def intWidth (t : ElemType) : Nat := if t = .i32 then 32 else 64

/-- Sext48 (R149). -/
def sext48 (i : BitVec 48) : Int := i.toInt

/-- Target(pc, disp) (R53): none when the index is negative or the line address is 2^56 or above. -/
def branchTarget (pc : Word) (disp : Int) : Option Word :=
  let n := (pcIndex pc : Int) + disp
  if n < 0 ∨ 2 ^ 56 ≤ n.toNat / 5 * 64 then none else some (pcAddress n.toNat)

namespace State

/-- The port word of port q of a row (R335). -/
def qport (s : State) (row q : Nat) : Nat := field (s.word64 (row + 0x7D8)) (16 * q) 16

/-- A queue of a cluster (R335). -/
def queue? (s : State) (cluster num : Nat) : Option Queue := s.queues.find? fun q => q.cluster == cluster && q.num == num

/-- The state with a queue's elements replaced. -/
def setQueue (s : State) (q : Queue) (items : List Word) : State :=
  { s with queues := s.queues.map fun u => if u.cluster = q.cluster ∧ u.num = q.num then { u with items := items } else u }

/-- The stream slot's line of a row (R177). -/
def slotAddr (row n : Nat) : Nat := row + 0x380 + 64 * n

/-- Bits of a stream slot: k bits from bit b of the line. -/
def slotBits (s : State) (row n b k : Nat) : Nat := bitsAt (leNat (s.mem.bytes (slotAddr row n) 64)) b k

/-- DIMS as R177 takes it. -/
def slotDims (s : State) (row n : Nat) : Nat :=
  let d := s.slotBits row n (8 * 0x30) 3
  if d = 0 then 1 else min d 5

/-- E(k) as R177 takes it. -/
def slotExtent (s : State) (row n k : Nat) : Nat :=
  let e := s.slotBits row n (8 * (0x1C + 2 * k)) 16
  if e = 0 then 65536 else e

/-- CNTk (R177). -/
def slotCount (s : State) (row n k : Nat) : Nat := s.slotBits row n (8 * (0x26 + 2 * k)) 16

/-- DONE (R177). -/
def slotDone (s : State) (row n : Nat) : Bool := s.slotBits row n (8 * 0x30 + 10) 1 == 1

/-- WRAP (R177). -/
def slotWrap (s : State) (row n : Nat) : Bool := s.slotBits row n (8 * 0x30 + 3) 1 == 1

/-- Addr(s) (R178); bits 63..56 of the base word, which the strides do not reach, stand in the address, so that R169 refuses it (R177). -/
def slotNext (s : State) (row n : Nat) : Word :=
  let base : Int := s.slotBits row n 0 56
  let a : Word := wordOfInt ((List.range (s.slotDims row n)).foldl (fun (a : Int) k =>
    a + (min (s.slotCount row n k) (s.slotExtent row n k - 1) : Nat) * signed 32 (s.slotBits row n (8 * (0x08 + 4 * k)) 32)) base)
  let high := s.slotBits row n 56 8
  if high = 0 then a else setField a 56 8 high

/-- The counters written (R177). -/
def setCounts (s : State) (row n : Nat) (cs : List Nat) : State :=
  s.poke (slotAddr row n + 0x26) (cs.flatMap (leBytes 2))

/-- DONE written. -/
def setDone (s : State) (row n : Nat) (b : Bool) : State :=
  let a := slotAddr row n + 0x30
  s.pokeWord a (setField (s.word64 a) 10 1 b.toNat)

/-- POS written. -/
def setPos (s : State) (row n : Nat) (p : Word) : State := s.pokeWord (slotAddr row n + 0x38) p

/-- The counters after an advance from dimension k, with d dimensions, and whether every one wrapped (R178). -/
def countersNext (ext : Nat → Nat) (d : Nat) (cs : List Nat) : Nat → Nat → List Nat × Bool
  | 0, _ => (cs, true)
  | fuel + 1, k =>
    if d ≤ k then (cs, true)
    else if cs.getD k 0 + 1 < ext k then (setAt cs k (cs.getD k 0 + 1), false)
    else countersNext ext d (setAt cs k 0) fuel (k + 1)

/-- Advance(s) (R178). -/
def slotAdvance (s : State) (row n : Nat) : State :=
  let pos := s.word64 (slotAddr row n + 0x38)
  let (cs, wrapped) := countersNext (s.slotExtent row n) (s.slotDims row n) ((List.range 5).map (s.slotCount row n)) 5 0
  let s := (s.setPos row n (pos + 1)).setCounts row n cs
  if wrapped && ! s.slotWrap row n then s.setDone row n true else s

/-- The effective address of format FM (R50). -/
def ea (s : State) (row : Nat) (f : FM) : Word :=
  s.getX row (xnum f.base) + s.getX row (xnum f.idx) <<< f.sc.toNat + f.disp.signExtend 64

end State

namespace Exec

/-- The queue that a port names (R335). -/
def port (q : Nat) : Exec Queue := do
  let s ← get
  let th ← me
  let w := s.qport th.row q
  if w / 2 ^ 15 = 0 ∨ bitsAt w 8 7 ≠ 0 then fault .operand
  match s.queue? th.cluster (w % 2 ^ 8) with
  | none => fault .operand
  | some u => if u.tenant = s.tenantOf th.row then pure u else fault .protect

/-- The queue operands of an instruction are enabled, or the row waits with WKIND 0x5 (R162): a source position needs as many
elements as the positions that name its queue, and a destination a free entry. Every port is checked (R335) before any of them
is waited for, and WARG names the first that fails of the sources in their order, then the destination (DESIGN CHOICE, log entry
86). -/
def queuesReady (srcs : List Specifier) (dst : Specifier) : Exec Unit := do
  let qs ← srcs.filterMapM fun r => match r with
    | .q n => do
      let u ← port n.val
      pure (some (n.val, u))
    | _ => pure none
  let out ← (match dst with
    | .q n => do
      let u ← port n.val
      pure (some (n.val, u))
    | _ => pure none)
  for p in qs do
    let need := (qs.filter fun p' => p'.2.num == p.2.num).length
    if p.2.items.length < need then stall 5 p.1 (.queue p.2.cluster p.2.num need 0)
  match out with
  | some p => if p.2.cap ≤ p.2.items.length then stall 5 (p.1 + 4) (.queue p.2.cluster p.2.num 0 1) else pure ()
  | none => pure ()

/-- The head element of a port's queue is popped (R335). -/
def pop (q : Nat) : Exec Word := do
  let u ← port q
  match u.items with
  | w :: rest => do
    modify fun s => s.setQueue u rest
    return w
  | [] => return 0

/-- A value is pushed onto a port's queue (R335). -/
def push (q : Nat) (w : Word) : Exec Unit := do
  let u ← port q
  modify fun s => s.setQueue u (u.items ++ [w])

/-- A scalar register of the thread at issue. -/
def readX (n : Nat) : Exec Word := do return (← get).getX (← myRow) n

/-- A scalar register of the thread at issue written. -/
def writeX (n : Nat) (w : Word) : Exec Unit := do
  let row ← myRow
  modify fun s => s.setX row n w

/-- Src(x) (R152). -/
def src : Specifier → Exec Word
  | .x n => readX n.val
  | .q n => pop n.val
  | _ => pure 0

/-- Dst(d) (R152): x0 discards. -/
def dst : Specifier → Word → Exec Unit
  | .x n, w => writeX n.val w
  | .q n, w => push n.val w
  | _, _ => pure ()

/-- A predicate of the thread at issue. -/
def readP (n : Nat) : Exec Bool := do return (← get).getP (← myRow) n

/-- A predicate of the thread at issue written; p0 discards (R46). -/
def writeP (n : Nat) (b : Bool) : Exec Unit := do
  let row ← myRow
  modify fun s => s.setP row n b

/-- A vector register of the thread at issue. -/
def readV (n : Nat) : Exec Line := do return (← get).getV (← myRow) n

/-- A vector register of the thread at issue written. -/
def writeV (n : Nat) (v : Line) : Exec Unit := do
  let row ← myRow
  modify fun s => s.setV row n v

/-- The next vector of a stream slot (R179). -/
def slotRead (n : Nat) : Exec Line := do
  let row ← myRow
  let s ← get
  if s.slotDone row n then return 0
  let bs ← load (s.slotNext row n) 64
  modify fun s => s.slotAdvance row n
  return leLine bs

/-- The low w bits of a scalar in every lane (R204, R207). -/
def splat (w : Nat) (x : Word) : Line :=
  .ofNat 512 ((List.range (512 / w)).foldl (fun n i => n + x.toNat % 2 ^ w * 2 ^ (w * i)) 0)

/-- A vector operand (R207): a register, the next vector of a slot, or a scalar's low w bits in every lane. -/
def vsrc (r : Specifier) (w : Nat) : Exec Line :=
  match r with
  | .v n => readV n.val
  | .s n => slotRead n.val
  | .x n => do return splat w (← readX n.val)
  | _ => pure 0

/-- The effective address of an FM instruction (R50). -/
def ea (f : FM) : Exec Word := do return (← get).ea (← myRow) f

end Exec

/-- Lane i of width w of a vector (R197). -/
def lane (v : Line) (w i : Nat) : Nat := bitsAt v.toNat (w * i) w

/-- The vector of a list of lanes of width w (R197). -/
def ofLanes (w : Nat) (ls : List Nat) : Line :=
  .ofNat 512 ((List.range ls.length).foldl (fun n i => n + ls.getD i 0 % 2 ^ w * 2 ^ (w * i)) 0)

/-- The lanes of a vector. -/
def lanesOf (v : Line) (w : Nat) : List Nat := (List.range (512 / w)).map (lane v w)

/-- A vector with lane i replaced. -/
def setLane (v : Line) (w i x : Nat) : Line := .ofNat 512 (putBits v.toNat (w * i) w x)

end Sys2Proof.Machine
end

