-- ==== Sys2Proof/Machine/Flags.lean ====
section
/-!
DEFINITION. The condition computations. The part has no flags: a comparison writes a predicate (R130, R142, R154, R210), and
saturation is recorded nowhere (R153).
-/
namespace Sys2Proof.Machine

/-- The width-w value of an integer (R149, U). -/
def unsignedView (w : Nat) (v : Nat) : Nat := v % 2 ^ w

/-- The signed view (R149, S). -/
def signedView (w : Nat) (v : Nat) : Int := signed w v

/-- SatS (R149). -/
def satS (w : Nat) (v : Int) : Int := min (max v (-(2 ^ (w - 1) : Nat))) ((2 ^ (w - 1) : Nat) - 1)

/-- SatU (R149). -/
def satU (w : Nat) (v : Int) : Int := min (max v 0) ((2 ^ w : Nat) - 1)

/-- Ext (R149): the value written. -/
def extResult (w : Nat) (r : Int) : Word := wordOfInt (signed w (r % (2 ^ w : Nat)).toNat)

/-- The condition of a code (R130) on values of width w. -/
def condHolds (cc w a b : Nat) : Bool :=
  match cc with
  | 0 => unsignedView w a == unsignedView w b
  | 1 => unsignedView w a != unsignedView w b
  | 2 => decide (signedView w a < signedView w b)
  | 3 => decide (signedView w b ≤ signedView w a)
  | 4 => decide (unsignedView w a < unsignedView w b)
  | 5 => decide (unsignedView w b ≤ unsignedView w a)
  | _ => false

/-- The condition of VCMP on floating lanes (R210). -/
def floatCond (c : Nat) (x y : Rl) : Bool :=
  let un := x.isNan || y.isNan
  match c with
  | 0 => x.eq y
  | 1 => ! x.eq y
  | 2 => x.lt y
  | 3 => ! un && ! y.lt x
  | 4 => y.lt x
  | 5 => ! un && ! x.lt y
  | 6 => un
  | _ => ! un

/-- The condition of VCMP on integer lanes (R210). -/
def intCond (c : Nat) (x y : Int) : Bool :=
  match c with
  | 0 => x == y
  | 1 => x != y
  | 2 => decide (x < y)
  | 3 => decide (x ≤ y)
  | 4 => decide (y < x)
  | 5 => decide (y ≤ x)
  | 6 => false
  | _ => true

end Sys2Proof.Machine
end

