-- ==== Sys2Proof/Machine/Transcendental.lean ====
section
/-!
DEFINITION. The functions of VRCP, VRSQ, VEXP and VLOG (R209): the exact value, or where it is not a dyadic number one that rounds
as it does: enough bits, and a last bit that says that more follow (log entry 22).
-/
namespace Sys2Proof.Machine

/-- The integer square root, found bit by bit from bit k - 1 down. -/
def isqrt (n : Nat) : Nat → Nat → Nat
  | 0, r => r
  | k + 1, r => let c := r + 2 ^ k; isqrt n k (if c * c ≤ n then c else r)

/-- A quotient's bits with a last bit set when it is not exact. -/
def sticky (q : Nat) (inexact : Bool) : Nat := 2 * q + inexact.toNat

/-- 1/a (R209). -/
def rcp : Rl → Rl
  | .nan => .nan
  | .inf n => .fin n 0 0
  | .fin n m e =>
    if m = 0 then .inf n else
      let k := Nat.log2 m + 80
      .fin n (sticky (2 ^ k / m) (2 ^ k % m != 0)) (-(k : Int) - 1 - e)

/-- 1/√a (R209). -/
def rsq : Rl → Rl
  | .nan => .nan
  | .inf n => if n then .nan else .fin false 0 0
  | .fin n m e =>
    if m = 0 then .inf n else if n then .nan else
      let odd := e % 2 = 1
      let m := if odd then 2 * m else m
      let e := if odd then e - 1 else e
      let k := Nat.log2 m + 80
      let q := isqrt (2 ^ (2 * k) / m) (k + 1) 0
      .fin false (sticky q (q * q * m != 2 ^ (2 * k))) (-(k : Int) - 1 - e / 2)

/-- The fractional bits that 2^a is worked to. -/
def expBits : Nat := 256

/-- The natural logarithm of 2 in units of 2^-256. -/
def ln2Fixed : Nat := 80260960185991308862233904206310070533990667611589946606122867505419956976171

/-- The terms of the exponential series from term k on, in units of 2^-256. -/
def expTail (y : Nat) : Nat → Nat → Nat → Nat
  | 0, _, _ => 0
  | n + 1, k, t => t + expTail y n (k + 1) (t * y / 2 ^ expBits / (k + 1))

/-- 2^a (R209). -/
def exp2 : Rl → Rl
  | .nan => .nan
  | .inf n => if n then .fin false 0 0 else .inf false
  | .fin n m e =>
    if m = 0 then .fin false 1 0 else
      let big := e + (Nat.log2 m : Int)
      if big ≥ 10 then .fin false 1 (if n then -1000 else 1000)
      else if big < -200 then .fin false (sticky (2 ^ 100) true) (-101)
      else
        let z := Rl.scaled n m e (min e 0)
        let d : Nat := 2 ^ (-(min e 0)).toNat
        let whole := z / (d : Int)
        let frac := (z % (d : Int)).toNat
        if frac = 0 then .fin false 1 whole
        else
          let y := frac * ln2Fixed / d
          .fin false (sticky (expTail y 70 0 (2 ^ expBits)) true) (whole - (expBits : Int) - 1)

/-- The fractional bits of log2 of x, 1 ≤ x < 2 in units of 2^-400, n of them. -/
def log2Bits : Nat → Nat → Nat → Nat
  | 0, _, r => r
  | n + 1, x, r =>
    let y := x * x / 2 ^ 400
    if 2 ^ 401 ≤ y then log2Bits n (y / 2) (2 * r + 1) else log2Bits n y (2 * r)

/-- log2 a (R209). -/
def log2 : Rl → Rl
  | .nan => .nan
  | .inf n => if n then .nan else .inf false
  | .fin n m e =>
    if m = 0 then .inf true else if n then .nan else
      let k := Nat.log2 m
      let whole := e + (k : Int)
      if m = 2 ^ k then Rl.ofInt whole
      else
        let f := sticky (log2Bits 160 (m * 2 ^ 400 / 2 ^ k) 0) true
        let v := whole * (2 ^ 161 : Nat) + f
        .fin (decide (v < 0)) v.natAbs (-161)

end Sys2Proof.Machine
end

