-- ==== Sys2Proof/Machine/Bank.lean ====
section
/-!
DEFINITION. Class 0xA: ROW.OPEN, ROW.HOLD, ROW.REL (R264, R265), transactional groups (R276, R278), ATTN (R280, R281) and
SAFEPT (R282).
-/
namespace Sys2Proof.Machine

/-- Steps 4 and 5 of R264 over a device-physical address: where it lies, when its window and its executor admit it. A window that does
not grant the read (R369) is no window for it (log entry 13). -/
def nearPlace (dp : Nat) (va : Word) (rowOnly readable : Bool) : Exec BankLoc := do
  let s ← get
  let th ← Exec.me
  match s.windowOf (s.tenantOf th.row) dp with
  | none => Exec.faultLogged .window va 0 (.ofNat 64 dp)
  | some w =>
    if windowSealed w then Exec.fault .sealed va
    if ¬ windowGrants w .read then Exec.faultLogged .window va 0 (.ofNat 64 dp)
  match s.locate dp with
  | none => Exec.fault .protect va
  | some l =>
    let own := (s.locate th.row).any fun r => r.subId == l.subId
    if l.exec ≠ th.place ∨ (rowOnly ∧ (s.tagOf dp ≠ .data ∨ own)) ∨
        ¬ s.rowAdmits (s.tenantOf th.row) (s.privOf th.row) dp ∨ ¬ readable then Exec.fault .protect va
    return l

/-- A leaf admits a near-bank read at a privilege (R264, step 5). -/
def nearLeaf (leaf : Word) (privl : Nat) : Bool := leafPermits leaf .read && decide (field leaf 5 2 ≤ privl)

/-- The address of a near-bank instruction (R264): the device-physical address and where it lies. -/
def nearAddr (va : Word) (rowOnly : Bool) : Exec (Nat × BankLoc) := do
  Exec.require (field va 56 8 == 0) .pagefault va
  let s ← get
  let th ← Exec.me
  let a := va.toNat
  let asid := s.asidOf th.row
  let privl := s.privOf th.row
  match s.bankHit? th.place asid a with
  | some b =>
    let dp := b.ppage * pageBytes + a % pageBytes
    let l ← nearPlace dp va rowOnly (nearLeaf b.leaf privl)
    modify fun s => s.noteBankWindow th a dp
    return (dp, l)
  | none => match s.tlb? (th.unit.getD 0) asid a with
    | none => Exec.missAt va .read
    | some e =>
      let dp := leafAddr e.leaf e.size a
      let l ← (if leafRemote e.leaf then Exec.fault .protect va else nearPlace dp va rowOnly (nearLeaf e.leaf privl))
      modify fun s => s.noteBankWindow th a dp
      return (dp, l)

/-- The row that ROW.* names. -/
def namedRow (f : FM) : Exec (Nat × BankLoc × Word) := do
  let va ← Exec.ea f
  Exec.require (va.toNat % rowBytes == 0) .align va
  let (dp, l) ← nearAddr va true
  return (dp, l, va)

/-- An activate that the instruction waits for (R103, R270). -/
def activateRow (dp : Nat) (l : BankLoc) (dest : BufState) : Exec Unit := do
  let s ← get
  let th ← Exec.me
  match s.activateInTurn l dest (th.id + 1) with
  | .ok s => set s
  | .wait u sub => throw (.hold 0xB sub (.buffer l.subId (rowOf dp)) id u)

/-- A ROW.HOLD meets the DPIT entry of its page as a write does (R365): a move ends, and on a duplicated page the row waits. -/
def holdPage (dp : Nat) (l : BankLoc) : Exec Unit := do
  let s ← get
  let th ← Exec.me
  match s.dpitWrite (th.id + 1) (dp / pageBytes) with
  | (s, true) => set (s.leaveDpit (dp / pageBytes) (th.id + 1))
  | (u, false) => throw (.hold 0xB l.sub (.buffer l.subId (rowOf dp)) id u)

/-- ROW.OPEN (R265, R267). -/
def execRowOpen (f : FM) (s : State) : Host.Outcome State Fault Refusal := asInstr (do
  let (dp, l, va) ← namedRow f
  Exec.checkHold dp va
  let b := ((← get).subarray l.subId).buf
  if State.bufRow b = some l.rown then
    Exec.writeX (xnum f.t) 1
    return .next
  else match b with
    | .thread _ | .held _ _ =>
      Exec.writeX (xnum f.t) 2
      return .next
    | _ =>
      activateRow dp l (.opened l.rown)
      Exec.writeX (xnum f.t) 0
      return .next) s

/-- ROW.HOLD (R265): a claim while it is not enabled. Under either policy it replaces a LOST entry of its row and does not fault, although R267 lists
ROW.HOLD with the other policy's row among the faults (DESIGN CHOICE, log entry 98). -/
def execRowHold (f : FM) (s : State) : Host.Outcome State Fault Refusal := asInstr (do
  let (dp, l, _) ← namedRow f
  let s ← get
  let th ← Exec.me
  let policy := if f.ql = 1 then 2 else 1
  let hs := s.holdState th.row l.sub
  let bound := hs = 1 ∨ hs = 2
  let b := (s.subarray l.subId).buf
  let enabled := match b with
    | .free | .opened _ => true
    | .held _ t => t == th.id
    | .thread _ => false
  if ! enabled then Exec.hold 0xB l.sub (.buffer l.subId (rowOf dp)) fun s => s.claim l.subId (th.id + 1)
  if bound ∧ s.holdRow th.row l.sub = l.rown then
    set (s.setHold th.row l.sub policy l.rown)
    Exec.writeX (xnum f.t) 2
    return .next
  else
    holdPage dp l
    let s ← get
    let held : BufState := .held l.rown th.id
    if State.bufRow b = some l.rown then
      set ((s.setBuf l.subId held).unclaim l.subId (th.id + 1))
      Exec.writeX (xnum f.t) 1
    else
      activateRow dp l held
      Exec.writeX (xnum f.t) 0
    modify fun s => s.setHold th.row l.sub policy l.rown
    return .next) s

/-- ROW.REL (R265). -/
def execRowRel (f : FM) (s : State) : Host.Outcome State Fault Refusal := asInstr (do
  let (_, l, _) ← namedRow f
  let s ← get
  let th ← Exec.me
  let hs := s.holdState th.row l.sub
  if hs ≠ 0 ∧ s.holdRow th.row l.sub = l.rown then
    let s := if hs = 3 then s else s.setBuf l.subId (.opened l.rown)
    set (s.setHold th.row l.sub 0 0)
    Exec.writeX (xnum f.t) (.ofNat 64 hs)
    return .next
  else
    Exec.writeX (xnum f.t) 0
    return .next) s

/-- The shadow rows that every subarray can give, 4 bits each (R276). -/
def availWord (exec : Nat) : Nat := (List.range 8).foldl (fun n k => n + State.avail exec k * 2 ^ (4 * k)) 0

/-- TX.BEGIN (R276). -/
def execTxBegin (f : FS) (s : State) : Host.Outcome State Fault Refusal := asInstr (do
  let s ← get
  let th ← Exec.me
  if s.inGroup th.row then
    Exec.writeX (xnum f.d) 2
    return .next
  else if s.threads.any fun t => t.exec == .bank && t.place == th.place && t.id != th.id && s.inGroup t.row then
    Exec.writeX (xnum f.d) 1
    return .next
  else
    set (s.pokeWord (th.row + 0x7E0) (setField (setField (s.bstat th.row) 0 2 1) 8 16 0))
    Exec.writeX (xnum f.d) (.ofNat 64 (2 ^ 63 + availWord th.place))
    return .next) s

/-- A held buffer whose row is committed is activated again, which is charged (R272, R278): like a row that a refresh has closed, it waits for
REFRESH_REACTIVATE (DESIGN CHOICE, log entry 80). -/
def reopenCommitted (s : State) (th : Thread) : State :=
  s.shadows.foldl (fun s h =>
    match s.locate h.row with
    | some l => (match (s.subarray l.subId).buf with
      | .held r _ => if h.thread = th.id ∧ r = l.rown then s.setSub { s.subarray l.subId with refreshing := true } else s
      | _ => s)
    | none => s) s

/-- TX.COMMIT (R278). -/
def execTxCommit (f : FS) (s : State) : Host.Outcome State Fault Refusal := asInstr (do
  Exec.sbEmpty
  let s ← get
  let th ← Exec.me
  if ! s.inGroup th.row then
    Exec.writeX (xnum f.d) 0
    return .next
  else if field (s.bstat th.row) 1 1 = 1 then
    set (s.clearGroup th)
    Exec.writeX (xnum f.d) 0
    return .next
  else
    set (((reopenCommitted s th).commitGroup th).clearGroup th)
    Exec.writeX (xnum f.d) 1
    return .next) s

/-- TX.ABORT (R278). -/
def execTxAbort (_ : FS) (s : State) : Host.Outcome State Fault Refusal := asInstr (do
  let th ← Exec.me
  modify fun s => s.abortGroup th
  return .next) s

/-- The running values of the attention sequence (R281): m, l and the codes of o. -/
structure AttnState where
  m : Nat
  l : Nat
  o : List Nat
  deriving DecidableEq, Repr, Inhabited

/-- RoundRNE to FP32 (R198). -/
def rnd (x : Rl) : Nat := x.rne .f32

/-- A difference of two FP32 values. -/
def f32Sub (a b : Nat) : Rl := (f32 a).add (f32 b).negate

/-- The correction of R281: 1 when the values are equal, else the rounded power of two. -/
def attnFactor (a m2 : Nat) : Nat := if (f32 a).eq (f32 m2) then 0x3F800000 else rnd (exp2 (f32Sub a m2))

/-- The dot product of a query and a key (R240, R281). -/
def attnDot (h : Nat) (q k : List Rl) : Nat :=
  (List.range (h / 32)).foldl (fun dot c =>
    rnd ((f32 dot).add (f32 (rnd (Rl.sum ((List.range 32).map fun i =>
      (q.getD (32 * c + i) .nan).mul (k.getD (32 * c + i) .nan))))))) 0

/-- One token (R281). -/
def attnToken (h scale : Nat) (q k v : List Rl) (st : AttnState) : AttnState :=
  let s := rnd ((f32 (attnDot h q k)).mul (f32 scale))
  let m2 := rnd ((f32 st.m).max (f32 s))
  let cf := attnFactor st.m m2
  let p := attnFactor s m2
  { m := m2
    l := rnd (((f32 st.l).mul (f32 cf)).add (f32 p))
    o := (List.range h).map fun i => rnd (((f32 (st.o.getD i 0)).mul (f32 cf)).add ((f32 p).mul (v.getD i .nan))) }

/-- The state before the first page with init (R281). -/
def attnInit (h : Nat) : AttnState := ⟨0xFF800000, 0, List.replicate h 0⟩

/-- The BF16 values of bytes. -/
def bf16s (n : Nat) (bs : List Byte) : List Rl := (List.range n).map fun i => elemValue .bf16 (leNat ((bs.drop (2 * i)).take 2))

/-- The state block read from the thread's own row (R280). -/
def State.attnRead (s : State) (a h : Nat) : AttnState :=
  ⟨leNat (s.mem.bytes a 4), leNat (s.mem.bytes (a + 4) 4), (List.range h).map fun i => leNat (s.mem.bytes (a + 64 + 4 * i) 4)⟩

/-- The state block written to the thread's own row, direct (R69). -/
def State.attnWrite (s : State) (a : Nat) (st : AttnState) : State :=
  (s.poke a (leBytes 4 st.m ++ leBytes 4 st.l)).pokeAll (a + 64) (st.o.flatMap (leBytes 4))

/-- The registers or entries that hold a page for an ASID grant a near-bank read (R264, step 5); a page that none of them holds is
admitted (DESIGN CHOICE, log entry 29). -/
def pageReadable (s : State) (th : Thread) (dp : Nat) : Bool :=
  let asid := s.asidOf th.row
  let privl := s.privOf th.row
  s.bankWins.all (fun b => b.bank != th.place || b.asid != asid || b.ppage != dp / pageBytes || nearLeaf b.leaf privl) &&
    s.tlbs.all fun e => some e.unit != th.unit || e.asid != asid ||
      leafAddr e.leaf e.size 0 / pageSize e.size != dp / pageSize e.size || nearLeaf e.leaf privl

/-- Bytes of a page of ATTN, whose row has been reached, read as loads of the thread (R72, R167, R280): through the outside queue of another
thread's open row as one entry. -/
def attnBytes (dp n : Nat) (va : Word) : Exec (List Byte) := do
  let s ← get
  let th ← Exec.me
  if rowOf dp = th.row then (if s.poisoned dp n then Exec.fault .datapoison va else return s.newest dp n)
  else match (← Exec.answered (sizedKey dp n)) with
    | some (.data _ bs) => return bs
    | some (.fault _ c) => Exec.fault c va
    | _ =>
      if Exec.openOther s th dp then
        let held := (linesOf dp n).filter fun l => Exec.queuedFor s th.id l
        if ! held.isEmpty then Exec.stall 0xC 0 (.queueClear held)
        else Exec.ask (sizedKey dp n) (Exec.queueOn dp (.read th.asker (sizedKey dp n) dp n))
      else
        let ls ← (lineParts dp n).mapM fun p => Exec.readHere p.1 p.2 va false
        return ls.flatten

/-- A page's row is brought to its buffer, once for the page (R267, R272). -/
def attnReach (dp : Nat) (va : Word) : Exec Unit := do
  let s ← get
  let th ← Exec.me
  if rowOf dp = th.row then pure ()
  else do
    Exec.checkHold dp va
    if Exec.openOther s th dp then pure () else Exec.reachRow dp false

/-- The page that a block-table entry names (R280): its device-physical address. An entry that names a row which no page maps faults WINDOW, with no log
record (DESIGN CHOICE, log entry 122). -/
def attnPage (bt : Word) (g : Nat) : Exec (Nat × Word) := do
  let va := wordAdd bt (4 * g)
  Exec.require (va.toNat % 4 == 0) .align va
  let _ ← nearAddr va false
  let e := leNat (← Exec.load va 4)
  Exec.require (e / 2 ^ 15 == 0) .protect va
  let s ← get
  let th ← Exec.me
  let bank := th.place / 16
  let l := bank % 1024 / 16 + bank % 16 * 2 ^ 6 + bitsAt e 11 4 * 2 ^ 10 + bitsAt e 8 3 * 2 ^ 14 + bitsAt e 0 8 * 2 ^ 17
  match s.rowAtLoc (th.place / 16384) l with
  | none => Exec.fault .window va
  | some dp =>
    let _ ← nearPlace dp va false (pageReadable s th dp)
    attnReach dp va
    return (dp, va)

/-- An operand of ATTN in the issuer's own row (R280): its address in the row. -/
def attnOwn (va : Word) (n : Nat) : Exec Nat := do
  let s ← get
  let th ← Exec.me
  let own := (s.rowVa th).toNat
  let a := va.toNat
  Exec.require (decide (own + 0x180 ≤ a ∧ a + n ≤ own + 0x7D0)) .protect va
  return th.row + (a - own)

/-- ATTN (R280, R281): one page a move. Its checks are made in the order ALIGN, ILLEGAL, PROTECT (DESIGN CHOICE, log entry 101). -/
def execAttn (f : FA) (s : State) : Host.Outcome State Fault Refusal := asInstr (do
  let d := lineToBytes (← Exec.readV (vnum f.a))
  let qv ← Exec.readX (xnum f.b)
  let sv ← Exec.readX (xnum f.c)
  Exec.require (qv.toNat % 64 == 0) .align qv
  Exec.require (sv.toNat % 64 == 0) .align sv
  let lh := (d.getD 12 0).toNat
  Exec.require (decide (5 ≤ lh ∧ lh ≤ 7)) .illegal
  let h := 2 ^ lh
  let qa ← attnOwn qv (2 * h)
  let sa ← attnOwn sv (64 + 4 * h)
  let bt := leWord (d.take 8)
  let n := leNat ((d.drop 8).take 4)
  let scale := leNat ((d.drop 16).take 4)
  let perPage := 512 / h
  let pages := (n + perPage - 1) / perPage
  let row ← Exec.myRow
  let s ← get
  let g := s.prog row
  let init := f.md = 1 ∧ g = 0
  if pages ≤ g then
    if init then modify fun s => s.attnWrite sa (attnInit h)
    Exec.writeX (xnum f.d) (.ofNat 64 n)
    modify fun s => s.setCtrl row 0 32 32 0
    return .next
  else
    let q := bf16s h (s.mem.bytes qa (2 * h))
    let (page, va) ← attnPage bt g
    let toks := min perPage (n - g * perPage)
    let ks ← attnBytes page (2 * h * toks) va
    let vs ← attnBytes (page + 1024) (2 * h * toks) va
    let kvs := (List.range toks).map fun t => (bf16s h (ks.drop (2 * h * t)), bf16s h (vs.drop (2 * h * t)))
    let s ← get
    let start := if init then attnInit h else s.attnRead sa h
    let fin := kvs.foldl (fun st kv => attnToken h scale q kv.1 kv.2 st) start
    modify fun s => s.attnWrite sa fin
    if g + 1 < pages then
      modify fun s => s.setCtrl row 0 32 32 (g + 1)
      return .again
    else
      Exec.writeX (xnum f.d) (.ofNat 64 n)
      modify fun s => s.setCtrl row 0 32 32 0
      return .next) s

/-- INMEM of the thread's row. -/
def setInMem (s : State) (row : Nat) (b : Bool) : State :=
  s.pokeWord (row + 0x7E0) (setField (s.bstat row) 24 1 b.toNat)

/-- A safe point (R282): a pre-emption that was deferred takes effect, but none of the scheduler's in the exchange of a member's domain (R331). -/
def safePoint : Exec Flow := do
  let s ← get
  let th ← Exec.me
  if th.deferred.isSome && ! s.exchangeHolds th then return .close 2 else return .next

/-- SAFEPT (R282). -/
def execSafeptPoint (_ : FS) (s : State) : Host.Outcome State Fault Refusal := asInstr safePoint s

/-- SAFEPT.begin (R282). -/
def execSafeptBegin (_ : FS) (s : State) : Host.Outcome State Fault Refusal := asInstr (do
  let row ← Exec.myRow
  modify fun s => setInMem s row true
  return .next) s

/-- SAFEPT.end (R282): nothing is deferred by in-memory work any longer; a close that an exchange holds off (R331) the
scheduler decides again after it (DESIGN CHOICE, log entry 102). -/
def execSafeptEnd (_ : FS) (s : State) : Host.Outcome State Fault Refusal := asInstr (do
  let th ← Exec.me
  modify fun s => setInMem s th.row false
  let flow ← safePoint
  modify fun s => s.updThread th.id fun t => { t with deferred := none }
  return flow) s

end Sys2Proof.Machine
end

