-- ==== Sys2Proof/Machine/Sched.lean ====
section
/-!
DEFINITION. The row scheduler's quantities (R103 to R108, R261, R283): the clock of an executor, effective priority, slots, which READY row
is opened next, and which open row must close before it issues again.
-/
namespace Sys2Proof.Machine

namespace State

/-- Two rows belong to one executor (R105). -/
def sameExecutor (a b : Thread) : Bool := a.exec == b.exec && a.place == b.place

/-- EP of a row (R105). -/
def effective (s : State) (th : Thread) : Nat := min 255 (s.prio th.row + s.cyclesSince th th.readyAt / 4096)

/-- A closed row is READY and its spawn request, if any, does not hold it. -/
def isReady (s : State) (th : Thread) : Bool := s.code th.row == 2 && th.slot.isNone

/-- The open rows of an executor. -/
def openRows (s : State) (th : Thread) : List Thread := s.threads.filter fun u => sameExecutor u th && u.slot.isSome

/-- The slot a row would take: the lowest free one of 8 (R105), for a B-executor the subarray of the row (R106), for a walker its one. -/
def freeSlot (s : State) (th : Thread) : Option Nat :=
  match th.exec with
  | .bank => match s.locate th.row with
    | some l => if (s.openRows th).any (fun u => u.slot == some l.sub) then none else some l.sub
    | none => none
  | .walker => if (s.openRows th).isEmpty then some 0 else none
  | _ => (List.range 8).find? fun k => ! (s.openRows th).any fun u => u.slot == some k

/-- A READY row of an executor waits for a slot. -/
def waitingRows (s : State) (th : Thread) : List Thread :=
  s.threads.filter fun u => sameExecutor u th && u.id != th.id && s.isReady u

/-- A READY row goes before another: higher EP, or READY longer (R105). -/
def strictlyBefore (s : State) (a b : Thread) : Bool :=
  decide (s.effective b < s.effective a) || (s.effective a == s.effective b && decide (a.readyAt < b.readyAt))

/-- A thread's cluster is halted (R361). -/
def halted (s : State) (th : Thread) : Bool := s.clhalt.contains th.cluster

/-- A row is one that the scheduler watches (R106, R361): it is open, no close of it has begun or waits for a safe point or for the end of a unit of
H.REHASH, and no walk runs in it. -/
def scheduled (s : State) (th : Thread) : Bool :=
  th.slot.isSome && th.closing.isNone && th.deferred.isNone && ! th.heldPreempt && ! s.halted th && th.exec != .walker

/-- The scheduler may close a row for quantum, priority or a claim (R331). -/
def mayPreempt (s : State) (th : Thread) : Bool := s.scheduled th && ! s.inExchange th

/-- A READY row of a row's executor waits for a slot (R103). -/
def slotWanted (s : State) (th : Thread) : Bool := ! (s.waitingRows th).isEmpty

/-- The cycles for which an instruction of a row may stall (R103). -/
def spinWindow (s : State) (th : Thread) : Nat := if s.slotWanted th then 32 else 256

/-- The instruction of an open row stalls (R103). -/
def stalled (s : State) (th : Thread) : Bool := th.stall.isSome && th.slot.isSome && th.closing.isNone && s.code th.row == 3

/-- A stall has reached the end of its spin window: the row closes (R103). -/
def stallOver (s : State) (th : Thread) : Bool := s.stalled th && decide (s.spinWindow th ≤ s.cyclesSince th th.stalledAt)

/-- A row has come to the 4,096-cycle mark of its quantum (R106), where it closes or the quantum renews. -/
def quantumOver (s : State) (th : Thread) : Bool := s.scheduled th && decide (4096 ≤ s.cyclesSince th th.openedAt)

/-- The READY rows for which R106 closes a row for priority: their EP exceeds its base priority by 16, no slot is free for them, and no row
has been closed for them since they became READY (DEDUCED, log entry 51). -/
def claimants (s : State) (th : Thread) : List Thread :=
  (s.waitingRows th).filter fun u => decide (s.prio th.row + 16 ≤ s.effective u) && (s.freeSlot u).isNone && u.servedAt != some u.readyAt

/-- The claimant that goes before the others. -/
def firstClaimant (s : State) (th : Thread) : Option Thread :=
  let c := s.claimants th
  c.find? fun u => c.all fun v => ! s.strictlyBefore v u

/-- An open row is the one of lowest base priority that R106 closes: of those that stay open, and in the lowest slot where several share it. -/
def lowestOpen (s : State) (th : Thread) : Bool :=
  let p := s.prio th.row
  (s.openRows th).all fun u => u.closing.isSome || u.deferred.isSome || u.heldPreempt || u.id == th.id || decide (p < s.prio u.row) ||
    (s.prio u.row == p && decide (th.slot.getD 0 < u.slot.getD 0))

/-- A row closes for priority (R106). -/
def priorityDue (s : State) (th : Thread) : Bool := s.mayPreempt th && s.lowestOpen th && (s.firstClaimant th).isSome

/-- The claims that would close a row (R261): when each, the first of its subarray, was placed. -/
def claimsOn (s : State) (th : Thread) : List Nat :=
  if th.exec ≠ .bank ∨ ! s.mayPreempt th then [] else
    s.subs.filterMap fun b => if s.occupant? b.sub = some th.id then b.claims.head?.map (·.2) else none

/-- A claim on a row's subarray has waited 2,048 cycles (R261). -/
def claimDue (s : State) (th : Thread) : Bool := (s.claimsOn th).any fun t => decide (2048 ≤ s.cyclesSince th t)

/-- The limits of Encke for a thread (R283). -/
def enckeLimits (s : State) (th : Thread) : Nat × Nat :=
  match s.stackRegs[th.place / 16384]? with
  | some r => (r.lim1, r.lim2)
  | none => (0, 0)

/-- When the pre-emption of an open row was deferred (R282). -/
def deferredAt (th : Thread) : Option Nat := if th.slot.isSome && th.closing.isNone then th.deferred else none

/-- A pre-emption has been deferred for LIM1 cycles (R283). -/
def enckeDue (s : State) (th : Thread) : Bool := (deferredAt th).any fun t => decide ((s.enckeLimits th).1 ≤ s.cyclesSince th t)

/-- An open row closes at the boundary where it stands, and issues no more before (R103, R106, R261, R283); where its quantum is over, it closes or
renews it. -/
def closeDue (s : State) (th : Thread) : Bool :=
  s.stallOver th || s.quantumOver th || s.priorityDue th || s.claimDue th || s.enckeDue th

end State

end Sys2Proof.Machine
end

