-- ==== Sys2Proof/Machine/Issue.lean ====
section
/-!
DEFINITION. From the schedule to an instruction: the fetch (R57, R88, R143), the checks at a transfer's target (R58, R132), the decode
checks in the order of R65, the guard (R46), and what follows every move: groups that a new version dooms (R277) and the watched
words of TH.WAIT (R123).
-/
namespace Sys2Proof.Machine

/-- What a fill of a fetch line comes to: the line is buffered, the row waits, or the move is only a read. -/
inductive Filled where
  | line (s : State) (f : FetchLine)
  | wait (s : State) (wk wa : Nat) (c : WaitCond)
  | none (s : State)

namespace State

/-- A line joins a thread's fetch buffer, which holds two (R143). -/
def bufferLine (s : State) (id : Nat) (f : FetchLine) : State :=
  s.updThread id fun t => { t with fbuf := (f :: t.fbuf.filter (·.va != f.va)).take 2, reread := none }

/-- A line that has been read is checked (R57): poison, then the CRC, which a second read may mend. -/
def acceptLine (s : State) (th : Thread) (va : Nat) (l : Line) (poison : Bool) : Filled :=
  if poison then
    let f : FetchLine := ⟨va, l, some .datapoison, false⟩
    .line (s.bufferLine th.id f) f
  else
    let good := crc16 ((lineToBytes l).take 60) == lineCrc (lineWord l)
    if good then
      let s := if th.reread = some va then s.logRec .fetchReread [.ofNat 64 va] else s
      let f : FetchLine := ⟨va, l, none, false⟩
      .line (s.bufferLine th.id f) f
    else if th.reread = some va then
      let f : FetchLine := ⟨va, l, some .illegal, false⟩
      .line (s.bufferLine th.id f) f
    else .none (s.updThread th.id fun t => { t with reread := some va })

/-- A fill of one fetch-buffer line (R57, R88, R143): the demand fill of the next issue, or a read ahead. -/
def fillLine (s : State) (th : Thread) (va : Nat) (ahead : Bool) : Filled :=
  let a : Word := .ofNat 64 va
  let bad (s : State) (c : Cause) : Filled :=
    let f : FetchLine := ⟨va, 0, some c, false⟩
    .line (s.bufferLine th.id f) f
  let memory (s : State) (dp : Nat) : Filled := s.acceptLine th va (leLine (s.newest dp lineBytes)) (s.poisoned dp lineBytes)
  match s.check th a .exec with
  | .own dp => memory s dp
  | .ok dp => (match s.region dp with
    | .control => match s.controlBytes dp lineBytes with
      | some bs => s.acceptLine th va (leLine bs) false
      | none => bad (s.violateBy th 3 (.ofNat 64 dp)) .datapoison
    | _ => match s.reach (th.id + 1) dp false with
      | .wait s sub => if ahead then .none s else .wait s 0xB sub (.buffer (match s.locate dp with
          | some l => l.subId
          | none => 0) (rowOf dp))
      | .ok s => memory ((s.noteBankWindow th va dp).countWindow (s.tenantOf th.row) dp false) dp)
  | .miss =>
    let s := s.postMiss th a .exec ahead
    if ahead then .none s else .wait s 7 0 (.translation (th.unit.getD 0) (s.asidOf th.row) a)
  | .violation w => bad (s.violateBy th 3 w) .datapoison
  | .remote _ => bad s .protect
  | .fault c => bad s c

/-- A refresh has closed a thread's own row, and it waits to be activated again (R268). -/
def refreshed (s : State) (th : Thread) : Bool :=
  th.exec == .bank && (match s.locate th.row with
    | some l => (s.subarray l.subId).refreshing
    | none => false)

/-- The head of an outside queue must be applied before the row issues again: with one APPLY at each boundary from the next on, some entry would
otherwise be applied after the row has issued 64 instructions since it came (R75). The issue that stands between two entries is made (R99), so of a
burst of more than 64 entries the later ones outlast 64 issues (DESIGN CHOICE, log entry 107). While the row's divide stalls no entry is applied
(R165), so a queue that has become due by then holds the divide until a close has applied it (DESIGN CHOICE, log entry 117). -/
def queueDue (th : Thread) : Bool :=
  ! th.appliedSince && th.oqAt.zipIdx.any fun p => decide (p.1 + 63 ≤ th.issued + p.2)

/-- A thread can issue: its row is open and RUNNING, no close has begun, its island is clocked and its cluster not halted, its outside
queue is not due, it does not wait for the allocator, a walk has issues left, and the scheduler owes it no close (R32, R69, R70, R75, R103, R106,
R120, R253, R361). -/
def canIssue (s : State) (th : Thread) : Bool :=
  th.slot.isSome && th.closing.isNone && s.code th.row == 3 && s.clocked th.island && ! s.halted th && ! s.refreshed th && ! queueDue th &&
    (match th.stall with
     | some w => w.cond != .spawn
     | none => true) &&
    (th.exec != .walker || s.skinks.all fun k => k.cluster != th.place || decide (k.issues < 1536)) && ! s.closeDue th

end State

/-- What an issue comes to: nothing but a state, or an instruction to run in one. -/
inductive Issued where
  | done (s : State)
  | run (i : Instr) (s : State)

namespace State

/-- A fault before the instruction runs, and the close that follows. -/
def issueFault (s : State) (th : Thread) (c : Cause) (data : Word) : Issued :=
  .done ((s.takeFault th.id c data).progressClose th.id false)

/-- The unit that an instruction takes and for how many cycles it accepts no further one (R164, R165, R225): the divider, or the vector unit, which
a T-executor's takes one in every cycle but for VRCP, VRSQ, VEXP and VLOG. -/
def unitUse (kind : ExecKind) (w : IWord) : Option (Nat × Nat) :=
  let cls := bitsAt w.toNat 92 4
  let bank := kind == .bank
  if cls = 3 ∧ 3 ≤ bitsAt w.toNat 86 6 ∧ bitsAt w.toNat 86 6 ≤ 6 then
    let wide := ElemType.ofCode (bitsAt w.toNat 54 4) != .i32
    some (0, (if bank then 2 else 1) * (if wide then 32 else 16) + 2)
  else if cls = 6 ∨ cls = 7 then
    if cls = 6 ∧ 8 ≤ bitsAt w.toNat 86 6 ∧ bitsAt w.toNat 86 6 ≤ 0xB then some (1, if bank then 8 else 4)
    else some (1, if bank then 2 else 0)
  else none

/-- A divide waits for its queues, or faults on their ports, before it finds the divider busy (R162, R165). -/
def divQueues (s : State) (i : Instr) : Bool :=
  match i with
  | .div f | .divu f | .rem f | .remu f => (match (Exec.queuesReady [f.a, f.b] f.d).run s with
    | .ok _ => true
    | .error _ => false)
  | _ => true

/-- The word at issue passes the checks of R132 and R65, and its guard decides (R46). -/
def issueWord (s : State) (th : Thread) (f : FetchLine) : Issued :=
  let source := ((th.check.bind (·.source))).getD 0
  match f.bad with
  | some c => s.issueFault th c source
  | none =>
    let slot := th.ip.toNat % 8
    let w := slotWord f.data slot
    let lw := lineWord f.data
    let masked := (th.check.map (·.tmask)).getD false && bitsAt (tmask lw) slot 1 == 0
    let op := bitsAt w.toNat 86 10
    let landed := match th.check.bind (·.lpad) with
      | some tag => op == 0x45 && bitsAt w.toNat 58 8 == tag.toNat
      | none => true
    if masked then s.issueFault th .badtarget source
    else if ! landed then s.issueFault th .lpadmiss source
    else if w = 0 ∨ w = BitVec.allOnes 96 then s.issueFault th .zeroword source
    else if ! lineWordOk lw then s.issueFault th .illegal source
    else match decodeFor (some th.exec) w with
      | .error c => s.issueFault th c source
      | .ok (g, i) =>
        let use := if s.getP th.row g.pred.val != g.neg then unitUse th.exec w else none
        let s := s.updThread th.id fun t => { t with check := none, uses := use }
        if (match use with
            | some (kind, _) => s.unitBusy th kind && s.divQueues i
            | none => false) then
          .done ((s.blockIssue th 0xC 0 (.unitBusy ((use.map (·.1)).getD 0))).progressClose th.id false)
        else if s.getP th.row g.pred.val != g.neg then .run i s
        else .done ((s.finishIssue { th with uses := none } .next).progressClose th.id false)

/-- The issue of a thread (R70): its line is in the buffer or is filled first. -/
def prepareIssue (s : State) (id : Nat) : Issued :=
  match s.thread? id with
  | none => .done s
  | some th =>
    if ! s.canIssue th then .done s else
      let s := { s with cur := some id }
      if ! pcWellFormed th.ip then s.issueFault th .badtarget ((th.check.bind (·.source)).getD 0) else
        let va := lineOf th.ip.toNat
        match th.fbuf.find? (·.va == va) with
        | some f => s.issueWord th f
        | none => match s.fillLine th va false with
          | .line s f => s.issueWord th f
          | .none s => .done s
          | .wait s wk wa c => .done ((s.blockIssue th wk wa c).progressClose id false)

/-- The condition of a waiting TH.WAIT on a watched word (R123). -/
def watchHolds (s : State) (th : Thread) : Bool :=
  let warg := match th.closing with
    | some b => b / 2 ^ 20 % 2 ^ 12
    | none => s.ctrlField th.row 0 20 12
  let line := bitsAt warg 0 5
  line != 0 && leWord (s.newest (th.row + 64 * line) 8) != s.getX th.row (bitsAt warg 5 5)

/-- A TH.WAIT ends (R123): xd and PROG are written in the move that makes the row READY. -/
def endWatch (s : State) (th : Thread) (dest : Nat) (value : Word) : State :=
  (((s.setX th.row dest value).setCtrl th.row 0 32 32 0).updThread th.id fun t => { t with stall := none }).setLogical th.id 2

/-- A thread waits at a TH.WAIT: the register its result goes to. -/
def watching? (s : State) (th : Thread) : Option Nat :=
  match th.stall with
  | some w => (match w.cond with
    | .watch d => if s.logical th = 4 then some d else none
    | _ => none)
  | none => none

/-- Waiting rows whose watched word has come to differ become READY (R123). -/
def wakeWatchers (s : State) : State :=
  s.threads.foldl (fun s u =>
    match s.thread? u.id with
    | none => s
    | some th => match s.watching? th with
      | some d => if s.watchHolds th then s.endWatch th d 1 else s
      | none => s) s

/-- The hub's writes that wait are tried again after a move (R261): each takes versions of its own. -/
def retryHub (s : State) : State :=
  if s.hubWrites.isEmpty && s.ringWrites.isEmpty then s else ((({ s with touched := [] } : State).flushHub).flushRings).doomGroups

/-- What follows a move: groups that it has doomed (R277), the hub's writes, and watched words (R123). -/
def settle (s : State) : State := s.doomGroups.retryHub.wakeWatchers

/-- The next move: the head of the schedule, or a free one (log entry 1). -/
def takeMove (s : State) : Move × State :=
  match s.agenda with
  | m :: rest => (m, { s with agenda := rest })
  | [] => (Config.freeMove s.fresh, { s with fresh := s.fresh + 1 })

end State

/-- An outcome with what follows a move. -/
def settleOutcome : Host.Outcome State Fault Refusal → Host.Outcome State Fault Refusal
  | .next s => .next s.settle
  | .fault f => .fault f
  | .refused r => .refused r

/-- The instruction line that holds one word in slot 0, with every slot a target and its CRC (R54 to R56). -/
def lineWith (w : Nat) : List Byte :=
  let body := leBytes 60 (w % 2 ^ 96)
  body ++ leBytes 4 (31 + crc16 body * 2 ^ 16)

/-- The executor kind that runs a word's class (R63). -/
def kindFor (w : Nat) : ExecKind :=
  let cls := bitsAt w 92 4
  if cls = 9 then .walker else if cls = 0xA then .bank else .tile

/-- The row of a placed instruction: row 0 of tile 0, or row 0 of the first bank. -/
def placedRow (w : Nat) : Nat := if kindFor w = .bank then 0 else tileRow 0 0

/-- The thread that runs a placed instruction: its row RUNNING, its address the code line in its own row. -/
def placedThread (s : State) (w : Nat) : Thread :=
  { (default : Thread) with id := s.nextId, row := placedRow w, va := .ofNat 64 (placedRow w), exec := kindFor w,
                            ip := .ofNat 64 (placedRow w + 0x480), slot := some 0 }

/-- A state with one instruction placed for its next step: a FIXED thread row holding its line, open and RUNNING, and the schedule's
next move its issue (log entry 3). -/
def State.placeWord (s : State) (w : Nat) : State :=
  let row := placedRow w
  let th := placedThread s w
  let s := { s with threads := th :: s.threads.filter (·.row != row), nextId := s.nextId + 1
                    agenda := [⟨0, .issue s.nextId, []⟩]
                    islands := (List.range s.islands.length).map fun n =>
                      let i := s.islands.getD n (Island.reset n)
                      if n = th.island then { i with req := 0, st := 0 } else i }
  let s := s.setTag row .fixed
  { s with mem := ((s.mem.setBytes row (leBytes 8 3)).setBytes (row + 8) (leBytes 8 (row + 0x480))).setBytes (row + 0x480) (lineWith w) }

end Sys2Proof.Machine
end

