-- ==== Sys2Proof/Machine/Links.lean ====
section
/-!
DEFINITION. The counter move of one-sided operations (R85, R186), and what becomes of a message to another module: the answers it gets
and the loss of its link (R187, R376, R379).
-/
namespace Sys2Proof.Machine

namespace State

/-- The counter move itself: the granules that a lost link leaves P, the count, the lines its elements wrote, and the end of the operation. -/
def endOneSided (s : State) (o : OneSided) : State :=
  let s := o.failed.foldl (fun s f => if f.2 = 0x40 then s.poisonElement o f.1 else s) s
  let s := (s.counterMove o.counter o.n o.failed).outsideTaken o.counter
  { s with counted := s.counted ++ o.wrote.map fun l => (o.counter, l.1, l.2)
           oneSided := s.oneSided.filter (·.id != o.id) }

/-- The counter move of a one-sided operation (R85, R186): every element has been taken. -/
def counterStep (s : State) (op : Nat) : State :=
  match s.oneSided.find? (·.id == op) with
  | none => s
  | some o =>
    if (List.range o.n).any fun i => ! o.taken.contains i then s else
      if s.outsideHeld o.counter then s else
        match s.reachAll (opParty o.id) false ((o.failed.filter (·.2 == 0x40)).flatMap fun f => s.poisonReads o f.1) with
        | .wait s _ => s
        | .ok s => match s.reach (opParty o.id) o.counter true with
          | .wait s _ => s
          | .ok s => s.endOneSided o

/-- A message to another module is answered or lost: it is no longer in flight. -/
def dropRemote (s : State) (tag : Nat) : State := { s with remotes := s.remotes.filter (·.tag != tag) }

/-- A remote store that the other module did not take is dropped (R379): a violation of kind 1 that names its virtual address, which has
no device-physical one here (R370). -/
def dropStore (s : State) (id : Nat) (va : Word) : State :=
  match s.thread? id with
  | none => s
  | some th =>
    let tn := s.tenantOf th.row
    let s := s.updThread id fun t => { t with sb := t.sb.drop 1 }
    let s := s.violate tn 1 (va ||| .ofNat 64 (2 ^ 63)) (s.rowVa th) tn (s.modid.toNat % 4096) false
    (s.raise tn 0).progressClose id false

/-- Every element of an operation that has not been taken fails with a code. -/
def failRest (s : State) (op ecode : Nat) : State :=
  match s.oneSided.find? (·.id == op) with
  | none => s
  | some o => (List.range o.n).foldl (fun s i =>
      match s.oneSided.find? (·.id == op) with
      | none => s
      | some o => if o.taken.contains i ∨ o.failed.any (·.1 == i) then s else s.failElement o i ecode) s

/-- A message in flight on a lost link fails (R187, R376, R379). -/
def loseMessage (s : State) (r : Remote) : State :=
  let s := s.dropRemote r.tag
  match r.kind with
  | .load id n => s.answer id (sizedKey (remoteKey r.va) n) (.fault (sizedKey (remoteKey r.va) n) .datapoison)
  | .atomic id _ _ _ _ => s.answer id (remoteKey r.va) (.fault (remoteKey r.va) .datapoison)
  | .store id => s.dropStore id r.va
  | .command k _ =>
    (match (s.ctx k).cq with
     | [] => s
     | c :: _ => if (s.ctx k).halt then s else s.handBack k c 0x15 r.va)
  | .element op _ | .index op _ => s.failRest op 0x40

/-- The module that a part of an element's address leads to, by the TLB or the page table (R169, R185). -/
def leadsTo? (s : State) (o : Owner) (k : AccKind) (p : Word × Nat) : Option Nat :=
  (lineParts p.1.toNat p.2).findSome? fun q =>
    match s.xlate o.unit o.asid o.tenant o.privl (.ofNat 64 q.1) k with
    | .remote m => some m
    | .miss => (match s.walk o.tenant o.asid q.1 with
      | some (leaf, size) => (match s.checkLeaf o.tenant o.privl leaf (leafAddr leaf size q.1) k with
        | .remote m => some m
        | _ => none)
      | none => none)
    | _ => none

/-- A GET or PUT is in flight on a link (R187): an element that it has still to take leads to a module that its port serves. -/
def onLink (s : State) (o : OneSided) (port : Nat) : Bool :=
  let own := o.owner s
  let serves (k : AccKind) (p : Word × Nat) : Bool := (s.leadsTo? own k p).any fun m => s.routePort m == some port
  (List.range o.n).any fun i => ! o.taken.contains i && (match o.kind, s.elementIdx o i with
    | .probe _ _ _, _ => false
    | _, .error (.remote m _) => s.routePort m == some port
    | _, .error _ => false
    | _, .ok j =>
      let x := o.xfer i j
      x.src.any (serves .read) || x.dst.any (serves .write))

/-- The rows that are read to learn which modules the elements that an operation has still to take lead to: of indices, and of table entries
where the TLB has none. -/
def onLinkReads (s : State) (o : OneSided) : List Nat :=
  let own := o.owner s
  ((List.range o.n).filter fun i => ! o.taken.contains i).flatMap fun i =>
    (((s.indexParts o i).toOption.getD []).map (·.1)) ++ (match o.kind, s.elementIdx o i with
      | .probe _ _ _, _ | _, .error _ => []
      | _, .ok j =>
        let x := o.xfer i j
        (x.src.flatMap fun p => s.missReads own p.1 p.2 .read) ++ x.dst.toList.flatMap fun p => s.missReads own p.1 p.2 .write)

/-- The rows that say which operations are in flight on a link are reached (R259, R272). A LINK_LOST waits for them; a link that is lost with its
island is lost at once, and reads what it can reach (DESIGN CHOICE, log entry 104). -/
def linkRows (s : State) : Reach := s.reachAll (hubParty (2 ^ 61)) false (s.oneSided.flatMap s.onLinkReads)

/-- A port's link is lost (R187, R376): its buffers empty, every message and every GET and PUT in flight on it fails, and it trains anew from
SEQ 0. -/
def linkLost (s : State) (port : Nat) : State :=
  match s.ports[port]? with
  | none => s
  | some p =>
    let s := match s.linkRows with
      | .ok s => s
      | .wait s _ => s
    let lost := (s.oneSided.filter fun o => s.onLink o port).map (·.id)
    let s := { s with ports := setAt s.ports port { Port.reset port with crcErrors := p.crcErrors } }
    let s := (s.remotes.filter (·.port == port)).foldl (fun s r => if s.remotes.any (·.tag == r.tag) then s.loseMessage r else s) s
    lost.foldl (fun s op => s.failRest op 0x40) s

/-- A thread's accesses go through a unit's TLB under one of some ASIDs. -/
def usesUnit (s : State) (u : Nat) (asids : List Nat) (th : Thread) : Bool :=
  th.unit == some u && asids.contains (s.asidOf th.row)

/-- A device-physical address lies in the frames of an invalidation. -/
def inFrames (iv : Invalidation) (dp : Nat) : Bool := iv.frames.any fun f => decide (f.1 ≤ dp ∧ dp < f.1 + f.2)

/-- Bytes at a virtual address of an ASID of a unit lie in the range of an invalidation, or in the page of an entry that it has removed whole
(R359, R360). -/
def covers (iv : Invalidation) (u asid lo n : Nat) : Bool :=
  rangesMeet iv.start iv.len lo n || iv.entries.any fun e => e.unit == u && e.asid == asid && rangesMeet e.page (pageSize e.size) lo n

/-- A virtual page of an ASID of a unit is one that an invalidation covers. -/
def inRange (iv : Invalidation) (u asid va : Nat) : Bool := covers iv u asid (va / pageBytes * pageBytes) pageBytes

/-- The ASID of a thread by its identifier; none of the 1,024 for a thread that is gone. -/
def asidOfId (s : State) (id : Nat) : Nat := ((s.thread? id).map fun t => s.asidOf t.row).getD 1024

/-- A translated access of a command or element meets an invalidation in a unit. -/
def flightMeets (iv : Invalidation) (u : Nat) (f : Flight) : Bool :=
  f.unit == u && iv.asids.contains f.asid && f.ranges.any fun r => covers iv u f.asid r.1 r.2

/-- An update part has an access in flight through pages of an invalidation (R296, R360). -/
def partInFlight (s : State) (iv : Invalidation) (u : Nat) (p : HashPart) : Bool :=
  (match s.thread? p.thread with
   | some th => s.usesUnit u iv.asids th
   | none => true) && p.hash.pages.any fun g => inRange iv u (s.asidOfId p.thread) (g.1 * pageBytes)

/-- A unit has an access in flight that a removed entry translated (R360); an entry of an outside queue whose thread is gone counts for every
unit. -/
def inFlight (s : State) (iv : Invalidation) (u : Nat) : Bool :=
  let user (id : Nat) : Bool := match s.thread? id with
    | some th => s.usesUnit u iv.asids th
    | none => true
  s.threads.any (fun th => s.usesUnit u iv.asids th && th.sb.any fun e => inRange iv u (s.asidOf th.row) e.va.toNat) ||
    s.threads.any (fun th => th.oq.any fun e => match entrySource e with
      | some (t, dp) => user t && inFrames iv dp
      | none => false) ||
    s.remotes.any (fun r => match r.kind with
      | .load a _ | .atomic a _ _ _ _ => user a.id && inRange iv u (s.asidOfId a.id) r.va.toNat
      | .store t => user t && inRange iv u (s.asidOfId t) r.va.toNat
      | .element op _ | .index op _ =>
        s.oneSided.any fun o => o.id == op && o.unit == u && iv.asids.contains o.asid && inRange iv u o.asid r.va.toNat
      | .command k _ => (s.ctx k).cq.any fun c => c.unit == u && iv.asids.contains c.asid && inRange iv u c.asid r.va.toNat) ||
    s.flights.any (flightMeets iv u) ||
    s.oneSided.any (fun o => o.unit == u && iv.asids.contains o.asid && (match o.kind with
      | .probe h _ _ => h.pages.any fun g => inRange iv u o.asid (g.1 * pageBytes)
      | _ => false) && (List.range o.n).any fun i => ! o.taken.contains i) ||
    s.parts.any (s.partInFlight iv u)

/-- Every page of every ASID, for what a unit has in flight of any. -/
def everyPage : Invalidation :=
  { id := 0, tenant := 0, asids := List.range 1024, start := 0, len := 2 ^ 64, counter := 0, waiting := [], frames := [(0, 2 ^ 64)], entries := [], sent := 0 }

/-- A cluster of a die has an access in flight that its TLB has translated (R33). -/
def dieInFlight (s : State) (d : Nat) : Bool := (List.range 80).any fun c => s.inFlight everyPage (80 * d + c)

end State

/-- COUNTER_MOVE (R85, R186). -/
def execCounterMove (s : State) : Host.Outcome State Fault Refusal :=
  .next (match s.inp with
    | .unit op => s.counterStep op
    | _ => s)

end Sys2Proof.Machine
end

