-- ==== Sys2Proof/Machine/Control.lean ====
section
/-!
DEFINITION. The control registers of the hub and the stacks as stores reach them (R4, R5, R19): islands and their gating (R29 to R34),
package power and throttling (R30, R35 to R40), FARB and FARS (R363), Encke limits (R283), the address hash (R274, R275).
-/
namespace Sys2Proof.Machine

/-- The nominal clock of an island in MHz (R14); 0 for a fixed one. -/
def islandNominal (n : Nat) : Nat := if n < 16 then 3600 else if n < 24 then 1200 else if n < 30 then 0 else 2000

/-- The clock step of an island in MHz (R14). -/
def islandStep (n : Nat) : Nat := if 16 ≤ n ∧ n < 24 then 50 else 100

/-- The islands of a die that can reach its thermal limit (R14, R38): A-dies 0 to 7, stack groups 8 to 15, base-die halves 16 and 17. -/
def dieIslands (d : Nat) : List Nat :=
  if d < 8 then [2 * d, 2 * d + 1] else if d < 16 then [8 + d] else if d < 18 then [14 + d] else []

/-- The running frequency of a clocked island (R30, R38). -/
def runningClock (n : Nat) (i : Island) (hot : Bool) : Nat :=
  if 24 ≤ n ∧ n < 30 then (if n = 28 then Config.hubClock.toNat else (Config.fixedClock n).toNat)
  else
    let cap := if i.fcap = 0 then islandNominal n else min (islandNominal n) i.fcap
    let f := min cap i.limit / islandStep n * islandStep n
    if hot then islandFloor n else max f (islandFloor n)

namespace State

/-- The state with an island changed, its frequency following (R29, R30). -/
def updIsland (s : State) (n : Nat) (f : Island → Island) : State :=
  match s.islands[n]? with
  | none => s
  | some i =>
    let i := f i
    let hot := s.power.hotDies.any fun d => (dieIslands d).contains n
    let runs := i.st = 0 ∨ (i.st = 3 ∧ i.req ≠ 0)
    { s with islands := setAt s.islands n { i with fnow := if runs then runningClock n i hot else 0 } }

/-- Every island's frequency is taken anew. -/
def reclock (s : State) : State := (List.range 32).foldl (fun s n => s.updIsland n id) s

/-- The open rows that a gating request closes (R32): those of the island's executors, and for a tile island the tile rows in which its die's
walkers run; a matrix island keeps its walkers as they are. -/
def islandRows (s : State) (n : Nat) : List Thread :=
  s.threads.filter fun t => t.slot.isSome && (if t.exec = .walker then 2 * t.die else t.island) == n

/-- The rows of an island that is being gated are closed as in pre-emption (R32). -/
def drainIsland (s : State) (n : Nat) : State :=
  if n < 16 ∧ n % 2 = 1 then s
  else (s.islandRows n).foldl (fun s t => match s.thread? t.id with
    | some th => s.preempt th
    | none => s) s

/-- An island that cannot be gated (R31). -/
def ungateable (n : Nat) : Bool := decide (28 ≤ n)

/-- A request code written to REQ of an island (R29, R31, R32): refused, without effect, or the start of a transition, for a tile island of
its matrix island with it. A refused request leaves REQ as it was, and one for what REQ asks already does nothing (DESIGN CHOICE, log
entry 82). -/
def islandRequest (s : State) (n req : Nat) : State :=
  match s.islands[n]? with
  | none => s
  | some i =>
    if req = 3 then s.updIsland n fun i => { i with refuse := 3 }
    else if req ≠ 0 ∧ ungateable n then s.updIsland n fun i => { i with refuse := 1 }
    else if req = 0 ∧ n < 16 ∧ n % 2 = 1 ∧ ! s.islandOn (n - 1) then s.updIsland n fun i => { i with refuse := 2 }
    else if i.req = req ∧ (i.st = req ∨ i.st = 3) then s
    else
      let go (i : Island) : Island := { i with req := req, st := 3 }
      let s := s.updIsland n go
      let s := if req ≠ 0 ∧ n < 16 ∧ n % 2 = 0 then
          s.updIsland (n + 1) go
        else s
      if req = 0 then s
      else if 24 ≤ n ∧ n < 28 then (List.range 32).foldl (fun s k => s.linkLost (32 * (n - 24) + k)) s
      else s.drainIsland n

/-- A store to an ISLCTL register (R4, R29): its fields as far as the store covers them; after a thermal trip none is taken (R38). -/
def islandWrite (s : State) (n : Nat) (req fcap : Option Nat) (clearDone : Bool) : State :=
  if s.boot.thermTrip then s
  else if s.boot.stage ≠ 6 then s.updIsland n fun i => { i with refuse := 5 }
  else
    let s := s.updIsland n fun i => { i with done := i.done && ! clearDone, fcap := fcap.getD i.fcap }
    match req with
    | some r => s.islandRequest n r
    | none => s

/-- PLIM written: 1200 to 4800 (R35). -/
def writePlim (s : State) (w : Nat) : State := { s with power := { s.power with plim := max 1200 (min 4800 w) } }

/-- FARB or FARS written (R363): ignored and logged while a tenant is live. -/
def writeFar (s : State) (size : Bool) (v : Word) : State :=
  if s.tenants.any (·.num != 0) then s.logRec .farTier [v]
  else if size then { s with fars := v } else { s with farb := v }

/-- APPLY of a stack's address hash (R275): refused, or the staged masks become active and the stack is cleared. -/
def hashApply (s : State) (stack : Nat) : State :=
  match s.stackRegs[stack]? with
  | none => s
  | some r =>
    if ! s.quiesced stack then s.updStack stack fun r => { r with refuse := 1 }
    else if (inverseMasks r.staged).isNone then s.updStack stack fun r => { r with refuse := 2 }
    else
      let s := s.updStack stack fun r => { r with active := r.staged, applying := true, appliedAt := s.now }
      { s with bankWins := s.bankWins.filter fun b => b.bank / 16384 != stack }

/-- A value under a mask laid over an old one. -/
def overlayBits (old v mask : Word) : Word := (old &&& ~~~mask) ||| (v &&& mask)

/-- Reserved bits stored as ones are discarded and logged (R5). -/
def noteReserved (s : State) (v mask reserved : Word) : State :=
  if v &&& mask &&& reserved = 0 then s else s.logRec .reservedWrite [v &&& mask]

/-- The reserved bits from lo on, k of them. -/
def resv (lo k : Nat) : Word := .ofNat 64 ((2 ^ k - 1) * 2 ^ lo)

/-- A store to the register at an 8-byte aligned control-space address, its bytes given by a mask (R4 to R6, R19): none where there is no
register. -/
def writeControl (s : State) (a : Nat) (v mask : Word) : Option State :=
  let covers (lo : Nat) : Bool := mask.toNat.testBit lo
  if a = ctlBoot then some (s.noteReserved v mask (resv 4 4 ||| resv 17 15 ||| resv 48 16))
  else if a = ctlPower then
    let s := s.noteReserved v mask (resv 56 8)
    some (if covers 32 ∨ covers 40 then
      s.writePlim (field (overlayBits (.ofNat 64 (s.power.plim * 2 ^ 32)) v mask) 32 16) else s)
  else if a = ctlFarb then some (s.writeFar false (overlayBits s.farb v mask))
  else if a = ctlFars then some (s.writeFar true (overlayBits s.fars v mask))
  else match regIndex a ctlIsl 0x40 32 with
  | some (i, 0) => (s.islands[i]?).map fun isl =>
      let s := s.noteReserved v mask (resv 5 3 ||| resv 48 16)
      s.islandWrite i (if covers 0 then some (field v 0 2) else none)
        (if covers 16 ∨ covers 24 then some (field (overlayBits (.ofNat 64 (isl.fcap * 2 ^ 16)) v mask) 16 16) else none)
        (covers 4 && field v 4 1 == 1)
  | some _ => none
  | none => match regIndex a ctlTel 0x10 32 with
    | some (_, 0) => some (s.noteReserved v mask (resv 56 8))
    | some _ => none
    | none => match regIndex a ctlAct 0x40 24 with
      | some (_, 0) => some (s.noteReserved v mask (resv 53 11))
      | some _ => none
      | none => match regIndex a ctlEncke 0x40 24 with
        | some (i, 0) => (s.stackRegs[i]?).map fun r =>
            let w := overlayBits (.ofNat 64 (r.lim1 + r.lim2 * 2 ^ 24)) v mask
            s.updStack i fun r => { r with lim1 := field w 0 24, lim2 := field w 24 24 }
        | some _ => none
        | none => match regIndex a ctlHash 0x1000 24 with
          | some (i, o) => match s.stackRegs[i]? with
            | none => none
            | some r =>
              if o < 0xC8 then
                let s := s.noteReserved v mask (resv 25 39)
                some (s.updStack i fun r => { r with
                  staged := setAt r.staged (o / 8) (field (overlayBits (.ofNat 64 (r.staged.getD (o / 8) 0)) v mask) 0 25) })
              else if 0x100 ≤ o ∧ o < 0x1C8 then some (s.noteReserved v mask (resv 25 39))
              else if o = 0x200 then
                let s := s.noteReserved v mask (resv 2 6 ||| resv 17 47)
                let s := if covers 16 ∧ field v 16 1 = 1 ∧ r.done then s.updStack i fun r => { r with done := false } else s
                some (if covers 0 ∧ field v 0 1 = 1 then s.hashApply i else s)
              else none
          | none => none

/-- A store of bytes within one line of control space, word by word; a byte of no register is dropped and logged (R19). -/
def storeControl (s : State) (th : Thread) (a : Nat) (bs : List Byte) : State :=
  let words := (List.range ((a + bs.length - 1) / 8 - a / 8 + 1)).map fun i => a / 8 + i
  words.foldl (fun s w =>
    let put (f : Byte → Byte) : Word := leWord ((List.range 8).map fun j =>
      if a ≤ 8 * w + j ∧ 8 * w + j < a + bs.length then f (bs.getD (8 * w + j - a) 0) else 0)
    match s.writeControl (8 * w) (put id) (put fun _ => 0xFF) with
    | some s => s
    | none => s.violateBy th 1 (.ofNat 64 (8 * w))) s

/-- The accumulators of a thread of a power-gated die are written back and their tiles released (R32, R235); none while a page is
awaited. -/
def releaseTiles (s : State) (th : Thread) : Option State :=
  (s.writeBack th false).map fun s => s.updThread th.id fun t =>
    { t with accs := t.accs.map Acc.unbind }

/-- The T-threads of a die. -/
def dieThreads (s : State) (d : Nat) : List Thread := s.threads.filter fun t => (t.exec == .tile || t.exec == .walker) && t.die == d

/-- What a matrix island does before it is gated (R32): the state when it is done, or what it has asked for. -/
def gateMatrix (s : State) (d req : Nat) : State × Bool :=
  if req = 1 then (s, true)
  else if (s.dieThreads d).any fun t => ! t.matrix.isEmpty then (s, false)
  else (s.dieThreads d).foldl (fun (p : State × Bool) t =>
    match p.1.thread? t.id with
    | none => p
    | some th => match p.1.releaseTiles th with
      | some s => (s, p.2)
      | none => (p.1.postWriteBackMisses th, false)) (s, true)

/-- The contexts of a die have completed their commands, a handed-back head apart (R32). -/
def enginesIdle (s : State) (d : Nat) : Bool :=
  s.ctxs.all fun c => c.1 / 64 != d || c.2.cq.isEmpty || c.2.halt

/-- A tile island has emptied itself (R32, R33): no access that its TLBs have translated is in flight, and they are cleared when it is
power-gated. -/
def gateTiles (s : State) (d req : Nat) : State × Bool :=
  let s := s.drainIsland (2 * d)
  if ! (s.islandRows (2 * d)).isEmpty ∨ s.dieInFlight d then (s, false)
  else if req = 1 then (s, true)
  else if ! s.enginesIdle d then (s, false)
  else
    let s := { s with tlbs := s.tlbs.filter fun e => ! decide (80 * d ≤ e.unit ∧ e.unit < 80 * d + 80) }
    ({ s with gates := (⟨d, []⟩ : Gate) :: s.gates.filter (·.die != d) }, true)

/-- A transition ends (R29, R34). -/
def endTransition (s : State) (n : Nat) : State :=
  s.updIsland n fun i => if i.st = 3 then { i with st := i.req, done := true } else i

/-- ISLAND_TRANSITION_DONE (R32 to R34): the work before it is done, and STATE reaches REQ; a tile island ends together with its matrix island,
which may have been asked for another state. A gate image stands until the tile island is ON, through a request for CGATED too (DESIGN CHOICE,
log entry 92). -/
def transitionDone (s : State) (n : Nat) : State :=
  match s.islands[n]? with
  | none => s
  | some i =>
    if i.st ≠ 3 then s
    else if i.req = 0 then
      let s := s.endTransition n
      if n < 16 ∧ n % 2 = 0 then { s with gates := s.gates.filter (·.die != n / 2) } else s
    else if n < 16 ∧ n % 2 = 0 then
      let (s, a) := s.gateTiles (n / 2) i.req
      let (s, b) := s.gateMatrix (n / 2) (((s.islands[n + 1]?).map (·.req)).getD i.req)
      if a && b then (s.endTransition n).endTransition (n + 1) else s
    else if n < 16 then
      (match s.islands[n - 1]? with
       | some t => if t.st = 3 ∧ t.req ≠ 0 then s else
           let (s, b) := s.gateMatrix (n / 2) i.req
           if b then s.endTransition n else s
       | none => s)
    else if n < 24 then
      let s := s.drainIsland n
      if (s.islandRows n).isEmpty then s.endTransition n else s
    else s.endTransition n

/-- LIM of a stack from its STEP and FAST (R271). -/
def stackLim (r : StackRegs) : StackRegs :=
  { r with lim := if r.fast then 0x600 else 0x1800 * (16 - r.step) / 16 }

/-- FAST ends at the next power interval, with STEP at its greatest (R271). -/
def settleFast (r : StackRegs) : StackRegs := if r.fast then stackLim { r with fast := false, step := 12 } else r

/-- The islands of a list that are ON. -/
def onIslands (s : State) (ns : List Nat) : List Nat := ns.filter s.islandOn

/-- A limit moved by one step for islands (R36). -/
def moveLimits (s : State) (ns : List Nat) (f : Nat → Island → Nat) : State :=
  ns.foldl (fun s n => s.updIsland n fun i => { i with limit := f n i }) s

/-- The limit of an island. -/
def limitOf (s : State) (n : Nat) : Nat := ((s.islands[n]?).map (·.limit)).getD 0

/-- The matrix, tile and stack-logic islands (R14). -/
def matrixIslands : List Nat := (List.range 8).map fun d => 2 * d + 1
/-- The tile islands (R14). -/
def tileIslands : List Nat := (List.range 8).map fun d => 2 * d
/-- The stack-logic islands (R14). -/
def stackIslands : List Nat := (List.range 8).map fun g => 16 + g

/-- One step down in the fixed order of R36. -/
def throttleDown (s : State) : State :=
  let above (ns : List Nat) : Bool := (s.onIslands ns).any fun n => decide (islandFloor n < s.limitOf n)
  let down (ns : List Nat) : State := s.moveLimits (s.onIslands ns) fun n i => max (islandFloor n) (i.limit - islandStep n)
  if above matrixIslands then down matrixIslands
  else if above tileIslands then down tileIslands
  else if s.stackRegs.any fun r => decide (r.step < 12) then
    { s with stackRegs := s.stackRegs.map fun r => stackLim { r with step := min 12 (r.step + 1) } }
  else s.moveLimits stackIslands fun n i => max (islandFloor n) (i.limit - islandStep n)

/-- One step up in the reverse order (R36). -/
def throttleUp (s : State) : State :=
  let below (ns : List Nat) : Bool := (s.onIslands ns).any fun n => decide (s.limitOf n < islandNominal n)
  let up (ns : List Nat) : State := s.moveLimits (s.onIslands ns) fun n i => min (islandNominal n) (i.limit + islandStep n)
  if stackIslands.any fun n => decide (s.limitOf n < islandNominal n) then
    s.moveLimits stackIslands fun n i => min (islandNominal n) (i.limit + islandStep n)
  else if s.stackRegs.any fun r => decide (0 < r.step) then
    { s with stackRegs := s.stackRegs.map fun r => stackLim { r with step := r.step - 1 } }
  else if below tileIslands then up tileIslands
  else up matrixIslands

/-- The controller holds something below its nominal value. -/
def throttled (s : State) : Bool :=
  (List.range 24).any (fun n => decide (s.limitOf n < islandNominal n)) || s.stackRegs.any (fun r : StackRegs => decide (0 < r.step) || r.fast)

/-- The THR bits of an island's telemetry (R39, R271). Which of bits 0 and 1 shows while a limit climbs back is the model's choice: bit 1 alone
for an A-die island while the fast guard's effect lasts, and bit 0 for every other limit; so is that bit 3 shows for any FCAP below nominal,
be it the least limit or not (DESIGN CHOICE, log entry 83). -/
def islandThr (s : State) (n : Nat) (i : Island) : Nat :=
  let below := decide (n < 24) && decide (i.limit < islandNominal n)
  let fast := s.power.thr / 2 % 2 == 1
  let hot := s.power.hotDies.any fun d => (dieIslands d).contains n
  let capped := ! decide (24 ≤ n ∧ n < 30) && i.fcap != 0 && decide (i.fcap < islandNominal n)
  let rate := decide (16 ≤ n ∧ n < 24) && (List.range 3).any fun j => match s.stackRegs[3 * (n - 16) + j]? with
    | some r => decide (0 < r.step) || r.fast
    | none => false
  let guarded := fast && decide (n < 16)
  (below && ! guarded).toNat + (below && guarded).toNat * 2 + hot.toNat * 4 + capped.toNat * 8 + rate.toNat * 16

/-- A power interval (R35, R36, R39, R271): the readings, one step of the controller, and the telemetry. PKGPWR.THR bit 0 shows while any limit
is below nominal, and bit 1 from the fast guard on until none is (DESIGN CHOICE, log entry 83). -/
def powerInterval (s : State) (r : PowerReading) : State :=
  let p := s.power
  let low := r.pnow.toNat * 100 < p.plim * 1000 * 95
  let n := if low then p.lowIntervals + 1 else 0
  let s := { s with power := { p with pnow := r.pnow.toNat, lowIntervals := n }
                    stackRegs := s.stackRegs.map settleFast }
  let s := if p.plim * 1000 < r.pnow.toNat then s.throttleDown else if 20 ≤ n then s.throttleUp else s
  let s := { s with power := { s.power with
    thr := s.throttled.toNat + (if s.throttled then p.thr / 2 % 2 * 2 else 0) + (! p.hotDies.isEmpty).toNat * 4 + p.thr / 8 % 2 * 8 } }
  let tel (k : Nat) : Island :=
    let i := s.islands.getD k (Island.reset k)
    { i with pavg := (r.islandPower.getD k 0).toNat, temp := r.islandTemp.getD k 0, thr := s.islandThr k i }
  { s with islands := (List.range s.islands.length).map tel }

/-- The fast guard fires (R37, R271). -/
def fastGuard (s : State) : State :=
  let s := s.moveLimits (List.range 16) fun n _ => islandFloor n
  { s with stackRegs := s.stackRegs.map fun r : StackRegs => stackLim { r with fast := true }
           power := { s.power with thr := s.power.thr % 2 + 2 + s.power.thr / 4 * 4 } }

/-- A die enters or leaves its thermal limit (R38). -/
def setHot (s : State) (d : Nat) (hot : Bool) : State :=
  let ds := s.power.hotDies.filter (· != d)
  let ds := if hot then d :: ds else ds
  let thr := s.power.thr % 4 + (! ds.isEmpty).toNat * 4 + s.power.thr / 8 * 8
  ({ s with power := { s.power with hotDies := ds, thr := thr } }).reclock

/-- A thermal trip (R38): THERMTRIP#, every island but 28 loses its power, with it every port its link, and the host link drops; only a power
cycle ends this. The cores of the hub run on. -/
def thermalTrip (s : State) : State :=
  let s := (List.range 128).foldl (fun s k => s.linkLost k) s
  { s with boot := { s.boot with thermTrip := true, memoryActive := false }
           power := { s.power with thr := s.power.thr % 8 + 8 }
           islands := (List.range s.islands.length).map fun k =>
             let i := s.islands.getD k (Island.reset k)
             if k = 28 then i else { i with st := 2, fnow := 0 }
           threads := s.threads.map fun t => if t.island = 28 then t else { t with slot := none, closing := none } }

end State

/-- ISLCTL stores by their REQ field (R29). -/
def islandEvent (s : State) (req : Nat) : State :=
  match s.inp with
  | .island w => s.islandWrite w.island (some req) (some w.fcap.toNat) w.clearDone
  | _ => s

/-- ISLCTL with REQ ON (R29). -/
def execIslctlReqOn (s : State) : Host.Outcome State Fault Refusal := .next (islandEvent s 0)

/-- ISLCTL with REQ CGATED (R32). -/
def execIslctlReqCgated (s : State) : Host.Outcome State Fault Refusal := .next (islandEvent s 1)

/-- ISLCTL with REQ PGATED (R32). -/
def execIslctlReqPgated (s : State) : Host.Outcome State Fault Refusal := .next (islandEvent s 2)

/-- ISLCTL with REQ 11b (R29). -/
def execIslctlReqReserved (s : State) : Host.Outcome State Fault Refusal := .next (islandEvent s 3)

/-- ISLAND_TRANSITION_DONE (R34). -/
def execIslandTransitionDone (s : State) : Host.Outcome State Fault Refusal :=
  .next (match s.inp with
    | .unit n => s.transitionDone n
    | _ => s)

/-- A management read of the sideband (R21): boot status, an island's telemetry or package power, after stage 0. -/
def sidebandRead (s : State) (a : Nat) : State :=
  let known := a == ctlBoot || a == ctlPower || (match State.regIndex a ctlTel 0x10 32 with
    | some (_, 0) => true
    | _ => false)
  match (if known then s.controlBytes a 8 else none) with
  | some bs => { s with sideband := s.sideband ++ [leWord bs] }
  | none => s

/-- PLIM_WRITE (R21, R35): what the SMBus sideband does after stage 0, a write of the limit or a management read. -/
def execPlimWrite (s : State) : Host.Outcome State Fault Refusal :=
  .next (match s.inp with
    | .watts w => if s.boot.powered && s.boot.stage != 0 then s.writePlim w.toNat else s
    | .sideband a => if s.boot.powered && s.boot.stage != 0 then sidebandRead s a else s
    | _ => s)

/-- The runs of bytes that a mask covers: where each begins, and how many there are. -/
def byteRuns (mask : Word) : List (Nat × Nat) :=
  (List.range 8).foldl (fun (rs : List (Nat × Nat)) i =>
    if bitsAt mask.toNat (8 * i) 8 = 0 then rs
    else match rs with
      | (b, n) :: rest => if b + n = i then (b, n + 1) :: rest else (i, 1) :: rs
      | [] => [(i, 1)]) [] |>.reverse

/-- A store of the host through CXL.io reaches a register, or the row of a handle slot (R19, R363); where there is neither it is dropped, with no
record (DESIGN CHOICE, log entry 90). -/
def hostStore (s : State) (a : Nat) (v mask : Word) : State :=
  if ! s.hostLink then s else
    match s.handleSlot? a with
    | some dp => (byteRuns mask).foldl (fun s r =>
        s.outsidePart (dp + r.1) (((wordBytes v).drop r.1).take r.2) (.outside 0 (s.modid.toNat % 4096) true)) s
    | none => (s.writeControl a v mask).getD s

/-- CONTROL_REGISTER_WRITE (R4, R5, R19, R363): a store of the host through CXL.io. -/
def execControlRegisterWrite (s : State) : Host.Outcome State Fault Refusal :=
  .next (match s.inp with
    | .register a v mask => hostStore s a v mask
    | _ => s)

/-- FAR_TIER_REGISTER_WRITE (R363). -/
def execFarTierRegisterWrite (s : State) : Host.Outcome State Fault Refusal :=
  .next (match s.inp with
    | .farTier size v => if s.hostLink then s.writeFar size v else s
    | _ => s)

/-- ROWHCTL_APPLY (R275): a store of the host through CXL.io. -/
def execRowhctlApply (s : State) : Host.Outcome State Fault Refusal :=
  .next (match s.inp with
    | .unit k => if s.hostLink then s.hashApply k else s
    | _ => s)

/-- ROWHASH_APPLY_DONE (R275): 40 ms after the APPLY. -/
def execRowhashApplyDone (s : State) : Host.Outcome State Fault Refusal :=
  .next (match s.inp with
    | .unit k => s.updStack k fun r => if r.applying ∧ r.appliedAt + 40000000 ≤ s.now then { r with applying := false, done := true } else r
    | _ => s)

/-- POWER_INTERVAL (R36). -/
def execPowerInterval (s : State) : Host.Outcome State Fault Refusal :=
  .next (match s.inp with
    | .power r => s.powerInterval r
    | _ => s)

/-- FAST_GUARD (R37). -/
def execFastGuard (s : State) : Host.Outcome State Fault Refusal := .next s.fastGuard

/-- THERMAL_LIMIT (R38). -/
def execThermalLimit (s : State) : Host.Outcome State Fault Refusal :=
  .next (match s.inp with
    | .unit d => s.setHot d true
    | _ => s)

/-- THERMAL_RELEASE (R38). -/
def execThermalRelease (s : State) : Host.Outcome State Fault Refusal :=
  .next (match s.inp with
    | .unit d => s.setHot d false
    | _ => s)

/-- THERMAL_TRIP (R38). -/
def execThermalTrip (s : State) : Host.Outcome State Fault Refusal := .next s.thermalTrip

end Sys2Proof.Machine
end

