-- ==== Sys2Proof/Machine/ControlFlow.lean ====
section
/-!
DEFINITION. Class 0x1: branches, calls and the return-address store, hardware loops, predicates, FSYNC (R128 to R145).
-/
namespace Sys2Proof.Machine

/-- A transfer with the checks of R58 and, for an indirect one, the landing pad of R133. -/
def transferTo (t : Word) (lpad : Option Byte) : Exec Flow := do
  let th ← Exec.me
  return .jump t (some ⟨true, lpad, some th.ip⟩) true

/-- A transfer by a displacement (R131): BADTARGET where R53 rejects it. -/
def branchBy (disp : BitVec 40) : Exec Flow := do
  let th ← Exec.me
  match branchTarget th.ip disp.toInt with
  | some t => transferTo t none
  | none => Exec.fault .badtarget

/-- An indirect transfer (R133). -/
def branchIndirect (x : Word) (tag : BitVec 8) : Exec Flow := do
  Exec.require (pcWellFormed x) .badtarget x
  transferTo x (some tag)

/-- NOP (R131). -/
def execNop (_ : FB) (s : State) : Host.Outcome State Fault Refusal := asInstr (pure .next) s

/-- BR (R131). -/
def execBr (f : FB) (s : State) : Host.Outcome State Fault Refusal := asInstr (branchBy f.disp) s

/-- BCMP (R130, R131). -/
def execBcmp (f : FB) (s : State) : Host.Outcome State Fault Refusal := asInstr (do
  let a ← Exec.readX (xnum f.a)
  let b ← Exec.readX (xnum f.b)
  if condHolds f.cc.toNat 64 a.toNat b.toNat then branchBy f.disp else return .next) s

/-- BRI (R133). -/
def execBri (f : FB) (s : State) : Host.Outcome State Fault Refusal := asInstr (do
  branchIndirect (← Exec.readX (xnum f.a)) f.md) s

/-- The address of entry i of JT's table (R134), which is exact (R7): one that no 64-bit address names is read at the highest address, which no
translation admits (DESIGN CHOICE, log entry 79). -/
def tableEntry (t i : Nat) : Word := .ofNat 64 (min (t + 8 + 8 * i) (2 ^ 64 - 8))

/-- JT (R134). -/
def execJt (f : FB) (s : State) : Host.Outcome State Fault Refusal := asInstr (do
  let t ← Exec.readX (xnum f.b)
  Exec.require (t.toNat % 8 == 0) .align t
  let n ← Exec.load t 8
  let i ← Exec.readX (xnum f.a)
  Exec.require (decide (i.toNat < leNat n)) .jtbound
  let e ← Exec.load (tableEntry t.toNat i.toNat) 8
  Exec.require (pcWellFormed (leWord e)) .badtarget (leWord e)
  transferTo (leWord e) none) s

/-- LPAD (R131). -/
def execLpad (_ : FB) (s : State) : Host.Outcome State Fault Refusal := asInstr (do return .next) s

/-- RSP of a row (R91). -/
def State.rsp (s : State) (row : Nat) : Nat := s.ctrlField row 7 8 4

/-- SPILL of a row (R91, R135). -/
def State.spill (s : State) (row : Nat) : Nat := s.ctrlField row 7 14 50

/-- RSP and SPILL written. -/
def State.setReturns (s : State) (row rsp spill : Nat) : State :=
  s.pokeWord (row + 56) (setField (setField (s.ctrl row 7) 8 4 rsp) 14 50 spill)

/-- Push (R136). -/
def pushReturn (v : Word) : Exec Unit := do
  let row ← Exec.myRow
  let s ← get
  let rsp := s.rsp row
  let spill := s.spill row
  Exec.require (decide (rsp ≤ 8)) .spillfault
  if rsp = 8 then
    Exec.require (spill != 0 && spill % 32 != 31) .spillfault
    Exec.store (.ofNat 64 (spill * 64)) (s.mem.bytes (row + 0x40) 64)
    modify fun s => (s.pokeWord (row + 0x40) v).setReturns row 1 (spill + 1)
  else modify fun s => (s.pokeWord (row + 0x40 + 8 * rsp) v).setReturns row (rsp + 1) spill

/-- Pop (R136). -/
def popReturn : Exec Word := do
  let row ← Exec.myRow
  let s ← get
  let rsp := s.rsp row
  let spill := s.spill row
  Exec.require (decide (rsp ≤ 8)) .spillfault
  if rsp = 0 then
    Exec.require (spill != 0 && spill % 32 != 0) .rsempty
    let line ← Exec.load (.ofNat 64 ((spill - 1) * 64)) 64
    modify fun s => (s.poke (row + 0x40) line).setReturns row 7 (spill - 1)
    return leWord (line.drop 56)
  else
    modify fun s => s.setReturns row (rsp - 1) spill
    return s.word64 (row + 0x40 + 8 * (rsp - 1))

/-- The return address of the instruction at issue (R136). -/
def returnAddress : Exec Word := do return pcNext (← Exec.me).ip

/-- CALL (R136). -/
def execCall (f : FB) (s : State) : Host.Outcome State Fault Refusal := asInstr (do
  pushReturn (← returnAddress)
  branchBy f.disp) s

/-- CALLI (R133, R136): X(a) is read before the push (DESIGN CHOICE, log entry 79). -/
def execCalli (f : FB) (s : State) : Host.Outcome State Fault Refusal := asInstr (do
  let x ← Exec.readX (xnum f.a)
  pushReturn (← returnAddress)
  branchIndirect x f.md) s

/-- RET (R136): the transfer is not checked (R58); a fault at its target carries its address (R132). A popped value that breaks R52 stands in the
fault message (DESIGN CHOICE, log entry 79). -/
def execRet (_ : FB) (s : State) : Host.Outcome State Fault Refusal := asInstr (do
  let v ← popReturn
  Exec.require (pcWellFormed v) .badtarget v
  return .jump v (some ⟨false, none, some (← Exec.me).ip⟩) true) s

/-- The loop word (R91, R138). -/
def loopWord (lc : Nat) (lact : Bool) (llen ldist : Nat) : Word :=
  .ofNat 64 (lc % 2 ^ 32 + lact.toNat * 2 ^ 32 + llen % 2 ^ 15 * 2 ^ 33 + ldist % 2 ^ 16 * 2 ^ 48)

/-- LOOP (R138); a fault at the target of its skip carries its address (R132). -/
def execLoop (f : FB) (s : State) : Host.Outcome State Fault Refusal := asInstr (do
  let th ← Exec.me
  let row := th.row
  let s ← get
  let stored := f.md.toNat % 2 = 1
  let target := branchTarget th.ip f.disp.toInt
  if ¬ stored ∧ target.isNone then Exec.fault .badtarget
  let ls := if stored then s.ctrl row 5 else pcNext th.ip
  let le := if stored then s.ctrl row 6 else target.getD 0
  Exec.require (pcWellFormed ls && pcWellFormed le && decide (pcIndex ls ≤ pcIndex le) &&
    decide (pcIndex le - pcIndex ls ≤ 32767)) .badtarget
  if ¬ stored then modify fun s => (s.pokeWord (row + 0x28) ls).pokeWord (row + 0x30) le
  let w := s.ctrl row 4
  let lc := if f.a = .x 0 then field w 0 32 else (s.getX row (xnum f.a)).toNat % 2 ^ 32
  if lc = 0 then
    modify fun s => s.pokeWord (row + 0x20) (loopWord 0 false (field w 33 15) (field w 48 16))
    return .loopSet (pcAddress (pcIndex le + 1)) (some ⟨false, none, some th.ip⟩) true
  else
    let n := pcIndex le - pcIndex ls
    modify fun s => s.pokeWord (row + 0x20) (loopWord lc true n n)
    if ls = pcNext th.ip then return .loopSet ls none false
    else return .loopSet ls (some ⟨true, none, some th.ip⟩) true) s

/-- FSYNC (R145). -/
def execFsync (_ : FB) (s : State) : Host.Outcome State Fault Refusal := asInstr (do
  Exec.sbEmpty
  let th ← Exec.me
  modify fun s => s.updThread th.id fun t => { t with fbuf := [], reread := none }
  return .next) s

/-- The predicate operations on two sources (R142): md bits 0 and 1 negate them. -/
def predOp (f : FA) (op : Bool → Bool → Bool) : Exec Flow := do
  let a ← Exec.readP (xnum f.a)
  let b ← Exec.readP (xnum f.b)
  Exec.writeP (xnum f.d) (op (a != (f.md.toNat % 2 == 1)) (b != (f.md.toNat / 2 % 2 == 1)))
  return .next

/-- PAND (R142). -/
def execPand (f : FA) (s : State) : Host.Outcome State Fault Refusal := asInstr (predOp f (· && ·)) s

/-- POR (R142). -/
def execPor (f : FA) (s : State) : Host.Outcome State Fault Refusal := asInstr (predOp f (· || ·)) s

/-- PXOR (R142). -/
def execPxor (f : FA) (s : State) : Host.Outcome State Fault Refusal := asInstr (predOp f (· != ·)) s

/-- PNOT (R142). -/
def execPnot (f : FA) (s : State) : Host.Outcome State Fault Refusal := asInstr (do
  let a ← Exec.readP (xnum f.a)
  Exec.writeP (xnum f.d) (! a)
  return .next) s

end Sys2Proof.Machine
end

