-- ==== Sys2Proof/Machine/Sync.lean ====
section
/-!
DEFINITION. Class 0xC: sync objects (R79 to R82, R314, R315), barrier domains and supersteps (R327 to R334, R396), queues
(R335, R336). The timelines of engine contexts are in Engines.
-/
namespace Sys2Proof.Machine

namespace State

/-- The allotment word of a tenant (R353). -/
def allotOf (s : State) (tenant : Nat) : Word := ((s.tenant? tenant).map (·.allot)).getD 0

/-- A sync object of a tenant (R314). -/
def syncObj (s : State) (tenant o : Nat) : SyncObj :=
  ((s.syncs.find? fun p => p.1 == (tenant, o)).map (·.2)).getD .fresh

/-- The state with a sync object set. -/
def setSync (s : State) (tenant o : Nat) (x : SyncObj) : State :=
  { s with syncs := ((tenant, o), x) :: s.syncs.filter (·.1 != (tenant, o)) }

/-- The cluster that a thread is open in: a TSC is in its own cluster (R11, DESIGN CHOICE, log entry 85). -/
def scopeCluster (th : Thread) : Option Nat :=
  match th.exec with
  | .tile => some (clusterOfTile th.place)
  | .walker => some th.place
  | .service => if th.place < 640 then some th.place else none
  | .bank => none

/-- The cluster of an object's home (R79). -/
def homeCluster (x : SyncObj) : Option Nat :=
  if x.homeKind = 0 then some (clusterOfTile x.home) else if x.homeKind = 3 ∧ x.home < 640 then some x.home else none

/-- The A-die of an object's home: a stack s gives die s / 3 (R82). -/
def homeDie (x : SyncObj) : Nat :=
  if x.homeKind = 0 then dieOfTile x.home else if x.homeKind = 1 then x.home / 3 else coreDie x.home

/-- A thread is of the service core that bound an object. -/
def homeCore (th : Thread) (x : SyncObj) : Bool := x.homeKind == 3 && th.exec == .service && th.place == x.home

/-- A thread lies inside an object's scope (R82). -/
def inScope (th : Thread) (x : SyncObj) : Bool :=
  match x.scope with
  | 0 => (th.exec == .tile && x.homeKind == 0 && th.place == x.home) || homeCore th x
  | 1 => (scopeCluster th).any (fun c => homeCluster x == some c) || homeCore th x
  | 2 => x.homeKind != 2 && th.die == homeDie x
  | _ => true

/-- The kind of the home that a thread's bind sets (R79). -/
def homeKindOf : ExecKind → Nat
  | .bank => 1
  | .service => 3
  | _ => 0

/-- No entry of a thread's stores is left in its store buffer or in an outside queue (R80, R317). -/
def storesDone (s : State) (th : Thread) : Bool :=
  th.sb.isEmpty && s.threads.all fun u => u.oq.all fun e => match e with
    | .write (some t) _ _ _ => t != th.id
    | _ => true

/-- No such entry is left for a line of a set (R80). -/
def linesDone (s : State) (th : Thread) (lines : List Nat) : Bool :=
  th.sb.all (fun e => e.remote.isSome || ! lines.contains (lineOf e.dp)) &&
    s.threads.all fun u => u.oq.all fun e => match e with
      | .write (some t) dp _ _ => t != th.id || ! lines.contains (lineOf dp)
      | _ => true

/-- The lines that a thread has written: through its store buffer, and the lines of its own row (R317, R330). -/
def writtenLines (th : Thread) : List Nat := th.wrote ++ (List.range 32).map fun i => th.row + 64 * i

end State

/-- The object that X(a) names (R314). -/
def syncName (a : Word) : Exec Nat := do
  let s ← get
  let row ← Exec.myRow
  let o := a.toNat % 2 ^ 16
  Exec.require (decide (o < field (s.allotOf (s.tenantOf row)) 0 16)) .protect
  return o

/-- A range of SYN.BIND's descriptor: its base and length in bytes (R314). -/
def bindRange (va : Word) : Exec (Word × Nat) := do
  let bs ← Exec.load va 16
  let base := leWord (bs.take 8)
  let len := leNat (bs.drop 8)
  Exec.require (base.toNat % 64 == 0) .align base
  Exec.require (decide (64 ≤ len ∧ len ≤ 2 ^ 32) && len % 64 == 0) .align base
  return (base, len)

/-- A line of a bound range (R314). -/
def bindLine (va : Word) : Exec Nat := do
  let (dp, _) ← Exec.plainAddr va .read 0
  return lineOf dp

/-- SYN.BIND (R79, R82, R314). The home of an object that a service core's row binds is the core (DESIGN CHOICE, log
entry 85). -/
def execSynBind (f : FS) (s : State) : Host.Outcome State Fault Refusal := asInstr (do
  let a ← Exec.readX (xnum f.a)
  let b ← Exec.readX (xnum f.b)
  let scope := f.sel.toNat % 8
  Exec.require (b.toNat % 16 == 0) .align b
  let o ← syncName a
  let th ← Exec.me
  Exec.require (! (th.exec == .bank && decide (scope < 2))) .scopemiss
  let ranges ← (List.range (f.sel.toNat / 8 + 1)).mapM fun i => bindRange (wordAdd b (16 * i))
  let lines ← (ranges.flatMap fun r => (List.range (r.2 / 64)).map fun i => wordAdd r.1 (64 * i)).mapM bindLine
  let s ← get
  let bnd := lines.eraseDups
  let x : SyncObj :=
    { seq := 0, bnd := bnd, pub := bnd.map fun l => (l, s.verOf l), scope := scope
      homeKind := State.homeKindOf th.exec, home := if th.exec = .bank then th.place / 16384 else th.place }
  set (s.setSync (s.tenantOf th.row) o x)
  return .next) s

/-- SYN.ACQ (R81, R82, R315). -/
def execSynAcq (f : FA) (s : State) : Host.Outcome State Fault Refusal := asInstr (do
  let a ← Exec.readX (xnum f.a)
  let n ← Exec.readX (xnum f.b)
  let o ← syncName a
  let s ← get
  let th ← Exec.me
  let x := s.syncObj (s.tenantOf th.row) o
  Exec.require (State.inScope th x) .scopemiss
  if x.seq.toNat < n.toNat then Exec.stall 4 0 (.seq o n)
  set (x.pub.foldl (fun s p => s.advanceView th.id p.1 p.2) s)
  Exec.writeX (xnum f.d) x.seq
  return .next) s

/-- SYN.REL (R80, R82, R315). -/
def execSynRel (f : FA) (s : State) : Host.Outcome State Fault Refusal := asInstr (do
  let a ← Exec.readX (xnum f.a)
  let o ← syncName a
  let s ← get
  let th ← Exec.me
  let x := s.syncObj (s.tenantOf th.row) o
  Exec.require (State.inScope th x) .scopemiss
  if ! s.linesDone th x.bnd then Exec.stall 0xC 0 (.sbClear x.bnd)
  set (s.setSync (s.tenantOf th.row) o { x with seq := x.seq + 1, pub := x.bnd.map fun l => (l, s.verOf l) })
  Exec.writeX (xnum f.d) (x.seq + 1)
  return .next) s

/-- The level of a domain's name: 0 cluster, 1 die, 2 package (R327). -/
def domLevel (name : Nat) : Nat := bitsAt name 6 2

/-- The cluster or die of a domain's name (R327). -/
def domUnit (name : Nat) : Nat := bitsAt name 8 10

/-- A name is that of a domain (R327). -/
def domNameOk (name : Nat) : Bool :=
  match domLevel name with
  | 0 => decide (domUnit name < 640)
  | 1 => decide (domUnit name < 8) && decide (bitsAt name 0 6 < 16)
  | 2 => domUnit name == 0 && decide (bitsAt name 0 6 < 16)
  | _ => false

/-- The index of DOMA that holds a domain's allotment (R353). -/
def domIndex (name : Nat) : Nat :=
  match domLevel name with
  | 0 => domUnit name
  | 1 => 640 + domUnit name
  | _ => 648

namespace State

/-- A domain is allotted to a tenant (R327, R353). -/
def domAllotted (s : State) (tenant name : Nat) : Bool :=
  match s.tenant? tenant with
  | none => false
  | some t => ((assoc t.doma (domIndex name)).getD 0).toNat.testBit (bitsAt name 0 6)

/-- A bound domain. -/
def domain? (s : State) (name : Nat) : Option Domain := s.domains.find? (·.name == name)

/-- The state with a bound domain replaced. -/
def setDomain (s : State) (d : Domain) : State := { s with domains := s.domains.map fun e => if e.name = d.name then d else e }

/-- A row lies at a domain's location (R327). -/
def atDomain (s : State) (th : Thread) (name : Nat) : Bool :=
  match domLevel name with
  | 0 => (match s.region th.row with
    | .tile t => clusterOfTile t == domUnit name
    | _ => false)
  | 1 => (match s.region th.row with
    | .tile t => dieOfTile t == domUnit name
    | .dram => (match s.locate th.row with
      | some l => l.stack / 3 == domUnit name
      | none => false)
    | _ => false)
  | _ => true

/-- The entries of a cluster's queue pool that are taken (R335, R396). -/
def poolUsed (s : State) (cluster : Nat) : Nat :=
  ((s.queues.filter (·.cluster == cluster)).map (·.cap)).sum +
    ((s.domains.filter (·.pool == cluster)).map fun d => 16 * d.slots).sum

/-- The store that holds a domain's exchange lines (R396): a cluster, or 640 the hub; none when none can hold them. -/
def domPool (s : State) (name slots : Nat) : Option Nat :=
  let fits (c : Nat) : Bool := decide (s.poolUsed c + 16 * slots ≤ 8192)
  match domLevel name with
  | 0 => if fits (domUnit name) then some (domUnit name) else none
  | 1 => (List.range 80).findSome? fun i => if fits (80 * domUnit name + i) then some (80 * domUnit name + i) else none
  | _ =>
    let used := ((s.domains.filter (·.pool == 640)).map fun d => 2 * d.slots).sum
    if used + 2 * slots ≤ 4096 then some 640 else none

/-- A member's index in a domain. -/
def memberIndex? (d : Domain) (th : Thread) : Option Nat := d.members.findIdx? (· == th.id)

end State

/-- The name of a domain in X(a), allotted to the issuer's tenant (R327). -/
def domName (a : Word) : Exec Nat := do
  let s ← get
  let row ← Exec.myRow
  let name := a.toNat % 2 ^ 18
  Exec.require (domNameOk name && s.domAllotted (s.tenantOf row) name) .protect
  return name

/-- A bound domain of the issuer's tenant (R327). -/
def boundDomain (a : Word) : Exec Domain := do
  let name ← domName a
  match (← get).domain? name with
  | none => Exec.fault .protect
  | some d => return d

/-- The issuer's index in a domain at whose location it lies (R330, R333). -/
def memberOf (d : Domain) : Exec Nat := do
  let s ← get
  let th ← Exec.me
  match State.memberIndex? d th with
  | none => Exec.fault .protect
  | some m => if s.atDomain th d.name then return m else Exec.fault .protect

/-- The member row that an address of a table names (R329): none refuses the bind. -/
def domMember (name : Nat) (va : Word) : Exec (Option Nat) := do
  let s ← get
  let th ← Exec.me
  let named (dp : Nat) : Option Nat :=
    match s.threadAt? dp with
    | none => none
    | some u => if s.inThreadRow dp ∧ s.tenantOf dp = s.tenantOf th.row ∧ s.atDomain u name then some u.id else none
  if va.toNat % rowBytes ≠ 0 then return none
  match s.check th va .read (gated := false) with
  | .own dp | .ok dp => return named dp
  | .violation w =>
    set (s.violateBy th 0 w)
    return none
  | _ => return none

/-- The translations of the member addresses are awaited before any member is looked at (R170, R329). -/
def awaitMembers (rows : List Word) : Exec Unit := do
  let s ← get
  let th ← Exec.me
  match rows.find? fun va => va.toNat % rowBytes == 0 && s.check th va .read (gated := false) == .miss && ! s.answeredNone th.id va with
  | some va => Exec.hold 7 0 (.member (th.unit.getD 0) (s.asidOf th.row) va) fun s => s.postMiss th va .read false
  | none => pure ()

/-- The fields of a descriptor keep R328. -/
def domFieldsOk (level : Nat) (w : List Word) : Bool :=
  let shape := w.getD 0 0
  let least := match level with
    | 0 => 64
    | 1 => 300
    | _ => 900
  decide (field shape 10 9 ≤ 256) && field shape 21 11 == 0 && field shape 48 16 == 0 && decide (least ≤ field shape 32 16) &&
    field (w.getD 1 0) 56 8 == 0 && (w.getD 1 0).toNat % 8 == 0 && field (w.getD 2 0) 56 8 == 0 && (w.getD 2 0).toNat % 8 == 0 &&
    (w.drop 3).all (· == 0)

/-- The words of a table of 8-byte entries. -/
def wordTable (base : Word) (n : Nat) : Exec (List Word) :=
  (List.range n).mapM fun i => do return leWord (← Exec.load (wordAdd base (8 * i)) 8)

/-- The schedule keeps R328 and R329 for a number of members, slots and patterns. -/
def scheduleOk (members slots patterns : Nat) (es : List Word) : Bool :=
  es.all (fun e => field e 20 44 == 0 && decide (field e 0 10 < members) && decide (field e 10 10 < members)) &&
    (List.range patterns).all fun p =>
      let ds := ((es.drop (p * slots)).take slots).map fun e => field e 10 10
      ds.all fun d => decide ((ds.filter (· == d)).length ≤ 32)

/-- An exchange in a domain's earlier binding is no exchange of the new one (R332). -/
def dropExchanges (s : State) (name : Nat) : State :=
  { s with threads := s.threads.map fun t =>
      if (t.exchange.map (·.1)) = some name then { t with exchange := none } else t }

/-- SYN.DOM with bind (R328, R329, R396). -/
def execSynDomBind (f : FS) (s : State) : Host.Outcome State Fault Refusal := asInstr (do
  let a ← Exec.readX (xnum f.a)
  let b ← Exec.readX (xnum f.b)
  let name ← domName a
  let s ← get
  let th ← Exec.me
  Exec.require (s.atDomain th name) .protect
  Exec.require (b.toNat % 64 == 0) .align b
  let bs ← Exec.load b 64
  let w := (List.range 8).map fun k => leWord ((bs.drop (8 * k)).take 8)
  let answer (c : Word) : Exec Flow := do
    modify fun s => s.dropAnswers th.id
    Exec.writeX (xnum f.d) c
    return .next
  if (s.domain? name).isSome then answer 1
  else if ! domFieldsOk (domLevel name) w then answer 2
  else
    let shape := w.getD 0 0
    let p := if field shape 0 10 = 0 then 1024 else field shape 0 10
    let slots := field shape 10 9
    let patterns := field shape 19 2 + 1
    let rows ← wordTable (w.getD 1 0) p
    let sched ← wordTable (w.getD 2 0) (patterns * slots)
    awaitMembers rows
    let found ← rows.mapM fun r => domMember name r
    let ids := found.filterMap id
    if ids.length ≠ p ∨ ids.eraseDups.length ≠ p ∨ ! scheduleOk p slots patterns sched then answer 2
    else match (← get).domPool name slots with
      | none => answer 3
      | some pool =>
        modify fun s =>
          let d : Domain :=
            { name := name, tenant := s.tenantOf th.row, members := ids, slots := slots, patterns := patterns
              width := field shape 32 16, sched := sched.map fun e => (field e 0 10, field e 10 10)
              counters := List.replicate p 1, registered := List.replicate p false, votes := List.replicate p none
              sealed := List.replicate p none, pattern := 0, patternOf := [], abort := false, begun := [], regLines := []
              buffers := [], pool := if slots = 0 then 641 else pool }
          dropExchanges { s with domains := s.domains ++ [d] } name
        answer 0) s

/-- SYN.DOM with unbind (R329). -/
def execSynDomUnbind (f : FS) (s : State) : Host.Outcome State Fault Refusal := asInstr (do
  let a ← Exec.readX (xnum f.a)
  let d ← boundDomain a
  let s ← get
  let th ← Exec.me
  Exec.require (s.atDomain th d.name) .protect
  set (dropExchanges { s with domains := s.domains.filter (·.name != d.name) } d.name)
  Exec.writeX (xnum f.d) 0
  return .next) s

/-- All members have registered at a step (R330). -/
def Domain.allAt (d : Domain) (k : Nat) : Bool :=
  (List.range d.members.length).all fun j =>
    decide (k < d.counters.getD j 0) || (d.counters.getD j 0 == k && d.registered.getD j false)

/-- The pattern that the sealed votes choose (R333): the most votes, the lowest among equals; the last one without a vote. -/
def Domain.choose (d : Domain) : Nat :=
  let vs := d.sealed.filterMap id
  if vs.isEmpty then d.pattern else
    let count (p : Nat) : Nat := (vs.filter (· == p)).length
    (List.range d.patterns).foldl (fun b p => if count b < count p then p else b) 0

/-- Member m registers at step k (R330, R333): its vote is sealed, the lines it has written are noted, and the last registration
fixes the pattern and begins the exchange 64 reference cycles later (R331), in eighteenths of a nanosecond. -/
def Domain.register (d : Domain) (m k now : Nat) (lines : List Nat) : Domain :=
  let d := { d with registered := setAt d.registered m true, sealed := setAt d.sealed m (d.votes.getD m none)
                    votes := setAt d.votes m none, regLines := d.regLines ++ lines.map fun l => (k, l) }
  if d.allAt k then
    let p := d.choose
    { d with pattern := p, patternOf := assocSet d.patternOf k p, sealed := List.replicate d.members.length none
             begun := assocSet d.begun k (18 * now + 320) }
  else d

/-- SYN.STEP (R330). -/
def execSynStep (f : FS) (s : State) : Host.Outcome State Fault Refusal := asInstr (do
  let a ← Exec.readX (xnum f.a)
  let d ← boundDomain a
  let m ← memberOf d
  let s ← get
  let th ← Exec.me
  if ! s.storesDone th then Exec.stall 0xC 0 .sbAndQueues
  Exec.require (! d.abort) .aborted
  let k := d.counters.getD m 0
  let d := if d.registered.getD m false then d else d.register m k s.now (State.writtenLines th)
  if ! d.allAt k then Exec.hold 9 (d.name % 64) (.domain d.name) fun s => s.setDomain d
  let p := (assoc d.patternOf k).getD d.pattern
  let s := d.regLines.foldl (fun s l => if l.1 = k then s.viewNewest th.id l.2 else s) s
  let d := { d with counters := setAt d.counters m (k + 1), registered := setAt d.registered m false
                    buffers := d.buffers.filter fun b => ! (b.1.1 == m && b.1.2.1 + 1 == k) }
  set ((s.setDomain d).updThread th.id fun t => { t with exchange := some (d.name, k, p) })
  Exec.writeX (xnum f.d) (.ofNat 64 (k + p * 2 ^ 56))
  return .next) s

/-- The exchange of the issuer, its member index, and the schedule entry of a slot (R332). -/
def slotEntry (i : Nat) : Exec (Domain × Nat × Nat × Nat × Nat) := do
  let s ← get
  let th ← Exec.me
  match th.exchange with
  | none => Exec.fault .slotmiss
  | some (name, k, p) => match s.domain? name with
    | none => Exec.fault .slotmiss
    | some d => match State.memberIndex? d th with
      | none => Exec.fault .slotmiss
      | some m =>
        if d.slots ≤ i then Exec.fault .slotmiss
        let (owner, dest) := d.sched.getD (p * d.slots + i) (0, 0)
        return (d, m, k, owner, dest)

/-- Slot i of exchange k has begun (R331). -/
def Domain.slotBegun (d : Domain) (k i now : Nat) : Bool :=
  match assoc d.begun k with
  | some t0 => decide (t0 + 5 * d.width * i ≤ 18 * now)
  | none => false

/-- Slot i of exchange k has ended (R331). -/
def Domain.slotEnded (d : Domain) (k i now : Nat) : Bool := d.slotBegun k (i + 1) now

/-- SYN.SEND (R332). -/
def execSynSend (f : FI) (s : State) : Host.Outcome State Fault Refusal := asInstr (do
  let i := f.imm.toNat % 256
  let v ← Exec.readV (vnum f.a)
  let (d, m, k, owner, dest) ← slotEntry i
  let now := (← get).now
  Exec.require (owner == m) .slotowner
  Exec.require (! d.slotEnded k i now) .slotmiss
  if ! d.slotBegun k i now then Exec.stall 9 (d.name % 64) (.slot d.name k i false)
  modify fun s => s.setDomain { d with buffers := ((dest, k, i), v) :: d.buffers.filter (·.1 != (dest, k, i)) }
  return .next) s

/-- SYN.RECV (R332). -/
def execSynRecv (f : FI) (s : State) : Host.Outcome State Fault Refusal := asInstr (do
  let i := f.imm.toNat % 256
  let (d, m, k, _, dest) ← slotEntry i
  let now := (← get).now
  Exec.require (dest == m) .slotowner
  if ! d.slotEnded k i now then Exec.stall 9 (d.name % 64) (.slot d.name k i true)
  match d.buffers.find? (·.1 == (m, k, i)) with
  | none => Exec.fault .datapoison
  | some b =>
    modify fun s => s.setDomain { d with buffers := d.buffers.filter (·.1 != (m, k, i)) }
    Exec.writeV (vnum f.d) b.2
    return .next) s

/-- SYN.VOTE (R333). -/
def execSynVote (f : FA) (s : State) : Host.Outcome State Fault Refusal := asInstr (do
  let a ← Exec.readX (xnum f.a)
  let b ← Exec.readX (xnum f.b)
  let d ← boundDomain a
  let m ← memberOf d
  modify fun s => s.setDomain { d with votes := setAt d.votes m (some (b.toNat % d.patterns)) }
  return .next) s

/-- SYN.POLLAB (R334). -/
def execSynPollab (f : FA) (s : State) : Host.Outcome State Fault Refusal := asInstr (do
  let a ← Exec.readX (xnum f.a)
  let d ← boundDomain a
  Exec.require (! d.abort) .aborted
  return .next) s

/-- SYN.ABORT (R334). -/
def execSynAbort (f : FA) (s : State) : Host.Outcome State Fault Refusal := asInstr (do
  let a ← Exec.readX (xnum f.a)
  let d ← boundDomain a
  modify fun s => s.setDomain { d with abort := f.md != 1 }
  return .next) s

/-- The cluster and number of the queue that X(a) names (R336). -/
def queueName (a : Word) : Exec (Nat × Nat) := do
  let c := field a 8 10
  Exec.require (decide (c < 640)) .protect
  return (c, field a 0 8)

/-- SYN.QCFG with create (R336). -/
def execSynQcfgCreate (f : FS) (s : State) : Host.Outcome State Fault Refusal := asInstr (do
  let a ← Exec.readX (xnum f.a)
  let b ← Exec.readX (xnum f.b)
  let (c, n) ← queueName a
  let s ← get
  let row ← Exec.myRow
  let cap := b.toNat
  if (s.queue? c n).isSome then Exec.writeX (xnum f.d) 1
  else if cap % 16 ≠ 0 ∨ cap < 16 ∨ 1024 < cap then Exec.writeX (xnum f.d) 2
  else if 8192 < s.poolUsed c + cap then Exec.writeX (xnum f.d) 3
  else
    set { s with queues := s.queues ++ [(⟨c, n, s.tenantOf row, cap, []⟩ : Queue)] }
    Exec.writeX (xnum f.d) 0
  return .next) s

/-- SYN.QCFG with destroy (R336). -/
def execSynQcfgDel (f : FS) (s : State) : Host.Outcome State Fault Refusal := asInstr (do
  let a ← Exec.readX (xnum f.a)
  let (c, n) ← queueName a
  let s ← get
  let row ← Exec.myRow
  match s.queue? c n with
  | none => Exec.writeX (xnum f.d) 1
  | some q =>
    if q.tenant ≠ s.tenantOf row then Exec.writeX (xnum f.d) 1
    else
      set { s with queues := s.queues.filter fun u => ! (u.cluster == c && u.num == n) }
      Exec.writeX (xnum f.d) 0
  return .next) s

end Sys2Proof.Machine
end

