-- ==== Sys2Proof/Machine/Engines.lean ====
section
/-!
DEFINITION. Class 0xD and the timelines of class 0xC: markers and waits (R84, R316 to R318), copy-engine commands (R319 to R324), the
decoder (R325), and COMPLETE.
-/
namespace Sys2Proof.Machine

/-- The context that a word names, allotted to the issuer's tenant (R316). -/
def context (w : Word) : Exec Nat := do
  let s ← get
  let row ← Exec.myRow
  let k := field w 0 9
  let a := s.allotOf (s.tenantOf row)
  Exec.require (decide (field a 16 9 ≤ k ∧ k < field a 16 9 + field a 25 10)) .protect
  return k

/-- The flags word of context k (R316). -/
def EngCtx.flags (x : EngCtx) (k : Nat) : Word :=
  .ofNat 64 (x.err.toNat + x.halt.toNat * 2 + x.cq.length % 256 * 2 ^ 8 + k % 512 * 2 ^ 16)

/-- The ring word of a context (R316). -/
def EngCtx.ring (x : EngCtx) : Word := .ofNat 64 (x.rsz % 16 + x.rbase / 64 % 2 ^ 50 * 64)

/-- The entries of a context's queue that are taken or reserved by other threads (R320). -/
def State.queueLoad (s : State) (k id : Nat) : Nat :=
  (s.ctx k).cq.length + (s.threads.filter fun t => t.id != id && (t.reserved.map (·.1)) == some k).length

/-- The tile island of a context's die is PGATED, or has been and is not ON yet (R32). -/
def State.contextGated (s : State) (k : Nat) : Bool :=
  match s.islands[2 * (k / 64)]? with
  | some i => i.st == 2 || (i.st != 0 && s.gates.any (·.die == k / 64))
  | none => false

/-- The island of a context's die is not power-gated (R32). -/
def contextUp (k : Nat) : Exec Unit := do
  let s ← get
  if s.contextGated k then Exec.stall 3 k (.queueRoom k) else pure ()

/-- The context has room for a command (R317, R319), and its island is not power-gated (R32). -/
def contextRoom (k : Nat) : Exec Unit := do
  contextUp k
  let s ← get
  let th ← Exec.me
  if 64 ≤ s.queueLoad k th.id then Exec.stall 3 k (.queueRoom k) else pure ()

/-- A command is appended (R84, R319): its number. -/
def appendCommand (k : Nat) (c : EngCmd) (wrote : List (Nat × Nat)) : Exec Nat := do
  let s ← get
  let th ← Exec.me
  let x := s.ctx k
  let n := (x.sub + 1) % 2 ^ 64
  let c := { c with num := n, asid := s.asidOf th.row, tenant := s.tenantOf th.row, privl := s.privOf th.row
                    unit := th.ownerUnit, row := s.rowVa th }
  set ((s.setCtx k { x with sub := n, cq := x.cq ++ [c], wrote := x.wrote ++ wrote.map fun l => (n, l.1, l.2) }).dropNoMapping c.owner)
  return n

/-- A command with its kind and operands. -/
def bareCommand (kind : EngKind) (src dst : Word) (n : Nat) : EngCmd :=
  { (default : EngCmd) with kind := kind, src := src, dst := dst, n := n }

/-- CE.COPY, CE.FILL and DEC.STRM (R319). -/
def submitLines (f : FA) (kind : EngKind) (alignSrc : Bool) : Exec Flow := do
  let a ← Exec.readX (xnum f.a)
  let b ← Exec.readX (xnum f.b)
  let c ← Exec.readX (xnum f.c)
  Exec.require (b.toNat % 64 == 0) .align b
  Exec.require (! alignSrc || a.toNat % 64 == 0) .align a
  let k ← context c
  Exec.sbEmpty
  contextRoom k
  let n ← appendCommand k (bareCommand kind a b (field c 16 32)) []
  Exec.writeX (xnum f.d) (.ofNat 64 n)
  return .next

/-- CE.COPY (R319). -/
def execCeCopy (f : FA) (s : State) : Host.Outcome State Fault Refusal := asInstr (submitLines f .copy true) s

/-- CE.FILL (R319). -/
def execCeFill (f : FA) (s : State) : Host.Outcome State Fault Refusal := asInstr (submitLines f .fill false) s

/-- DEC.STRM (R319, R325). -/
def execDecStrm (f : FA) (s : State) : Host.Outcome State Fault Refusal := asInstr (submitLines f .decStrm true) s

/-- A gather or scatter descriptor keeps R320. -/
def gatherOk (d : List Byte) : Bool :=
  let m := leNat ((d.drop 24).take 4)
  decide (1 ≤ m ∧ m ≤ 65536) && decide ((d.getD 28 0).toNat < 4) && (d.drop 29).all (· == 0)

/-- The element size of a code (R173). -/
def elemBytes (c : Nat) : Nat :=
  match c with
  | 0 => 8
  | 1 => 16
  | 2 => 64
  | _ => 256

/-- The descriptor and the index lines that the thread has taken in earlier units of a gather or scatter (R320). -/
def Thread.keptLines (th : Thread) (k prog : Nat) : Option (List Line) :=
  match th.reserved with
  | some (k', ls) => if prog ≠ 0 ∧ k' = k ∧ ls.length = prog + 1 then some ls else none
  | none => none

/-- The checks of a gather or scatter descriptor (R320). -/
def gatherChecks (d : List Byte) : Exec Unit := do
  Exec.require (gatherOk d) .illegal
  let es := elemBytes (d.getD 28 0).toNat
  let src := leWord (d.take 8)
  let dst := leWord ((d.drop 8).take 8)
  let list := leWord ((d.drop 16).take 8)
  Exec.require (src.toNat % es == 0) .align src
  Exec.require (dst.toNat % es == 0) .align dst
  Exec.require (list.toNat % 64 == 0) .align list

/-- One unit of a gather or scatter (R320): a line of the index list is taken, and the command is appended with the last. -/
def gatherUnit (f : FA) (kind : EngKind) (k : Nat) (ls : List Line) : Exec Flow := do
  let d := lineToBytes (ls.headD 0)
  let m := leNat ((d.drop 24).take 4)
  let n := ls.length
  let line ← Exec.load (wordAdd (leWord ((d.drop 16).take 8)) (64 * (n - 1))) 64
  let ls := ls ++ [leLine line]
  let th ← Exec.me
  if n < (4 * m + 63) / 64 then
    modify fun s => (s.updThread th.id fun t => { t with reserved := some (k, ls) }).setCtrl th.row 0 32 32 n
    return .again
  else
    let idx := (List.range m).map fun i => lane (ls.getD (i / 16 + 1) 0) 32 (i % 16)
    let c := bareCommand kind (leWord (d.take 8)) (leWord ((d.drop 8).take 8)) m
    let n ← appendCommand k { c with es := elemBytes (d.getD 28 0).toNat, idx := idx } []
    modify fun s => (s.updThread th.id fun t => { t with reserved := none }).setCtrl th.row 0 32 32 0
    Exec.writeX (xnum f.d) (.ofNat 64 n)
    return .next

/-- CE.GATH and CE.SCAT (R320): the first unit reads the descriptor and takes a place in the context's queue. -/
def submitGather (f : FA) (kind : EngKind) : Exec Flow := do
  let a ← Exec.readX (xnum f.a)
  let b ← Exec.readX (xnum f.b)
  Exec.require (a.toNat % 64 == 0) .align a
  let k ← context b
  Exec.sbEmpty
  let th ← Exec.me
  let s ← get
  match th.keptLines k (s.prog th.row) with
  | some ls =>
    gatherChecks (lineToBytes (ls.headD 0))
    contextUp k
    gatherUnit f kind k ls
  | none =>
    let bs ← Exec.load a 64
    gatherChecks bs
    contextRoom k
    gatherUnit f kind k [leLine bs]

/-- CE.GATH (R320). -/
def execCeGath (f : FA) (s : State) : Host.Outcome State Fault Refusal := asInstr (submitGather f .gath) s

/-- CE.SCAT (R320). -/
def execCeScat (f : FA) (s : State) : Host.Outcome State Fault Refusal := asInstr (submitGather f .scat) s

/-- CE.CTX with no suffix (R323). -/
def execCeCtxRead (f : FS) (s : State) : Host.Outcome State Fault Refusal := asInstr (do
  let k ← context (← Exec.readX (xnum f.a))
  Exec.writeX (xnum f.d) ((← get).ctx k).ring
  return .next) s

/-- CE.CTX.ring (R323, R394). -/
def execCeCtxRing (f : FS) (s : State) : Host.Outcome State Fault Refusal := asInstr (do
  let a ← Exec.readX (xnum f.a)
  let b ← Exec.readX (xnum f.b)
  let k ← context a
  Exec.require (b.toNat % 64 == 0) .align b
  let (dp, _) ← Exec.plainAddr b .read 0
  let s ← get
  Exec.require (s.inTile dp) .protect b
  let x := { s.ctx k with rbase := b.toNat, rsz := f.imm.toNat, handbacks := 0 }
  set (s.setCtx k x)
  Exec.writeX (xnum f.d) x.ring
  return .next) s

/-- CE.CTX.retry (R323): the head command runs again from index f onward, and answers to its earlier misses are of no use. -/
def execCeCtxRetry (f : FS) (s : State) : Host.Outcome State Fault Refusal := asInstr (do
  let k ← context (← Exec.readX (xnum f.a))
  let s ← get
  let x := s.ctx k
  let x := if ! x.halt then x else
    { x with halt := false, haltAt := 0
             cq := match x.cq with
               | [] => []
               | c :: r => { c with taken := c.taken.filter fun i => decide (i < x.haltAt)
                                    loaded := c.loaded.filter fun l => decide (l.1 < x.haltAt) } :: r }
  set (match x.cq.head? with
    | some c => (s.setCtx k x).dropNoMapping c.owner
    | none => s.setCtx k x)
  Exec.writeX (xnum f.d) (x.flags k)
  return .next) s

/-- CE.CTX.clr (R323). -/
def execCeCtxClr (f : FS) (s : State) : Host.Outcome State Fault Refusal := asInstr (do
  let k ← context (← Exec.readX (xnum f.a))
  let s ← get
  let x := { s.ctx k with err := false }
  set (s.setCtx k x)
  Exec.writeX (xnum f.d) (x.flags k)
  return .next) s

/-- A cancel through command number t (R324). -/
def EngCtx.cancel (x : EngCtx) (t : Nat) : EngCtx :=
  if t ≤ x.tl then x else
    let gone := x.cq.filter fun c => decide (c.num ≤ t)
    let head := (x.cq.head?.map fun c => decide (c.num ≤ t)).getD false
    let x := { x with cq := x.cq.filter fun c => decide (t < c.num), tl := x.tl + gone.length
                      err := x.err || ! gone.isEmpty, halt := x.halt && ! head }
    if x.sub < t then { x with sub := t, err := x.err || decide (x.tl < t), tl := max x.tl t } else x

/-- CE.CANCEL (R324): accesses of a head that is removed take no move, and what its misses were answered goes with it. -/
def execCeCancel (f : FS) (s : State) : Host.Outcome State Fault Refusal := asInstr (do
  let a ← Exec.readX (xnum f.a)
  let t ← Exec.readX (xnum f.b)
  let k ← context a
  let s ← get
  let head := (s.ctx k).cq.head?
  let x := (s.ctx k).cancel t.toNat
  let s := s.setCtx k x
  set (match head with
    | some c => if x.cq.head?.map EngCmd.num = some c.num then s
        else (s.dropAccesses (State.ofContext k) (ctxParty k)).dropNoMapping c.owner
    | none => s)
  Exec.writeX (xnum f.d) (.ofNat 64 x.tl)
  return .next) s

/-- DEC.LOAD (R325). -/
def execDecLoad (f : FA) (s : State) : Host.Outcome State Fault Refusal := asInstr (do
  let a ← Exec.readX (xnum f.a)
  let b ← Exec.readX (xnum f.b)
  Exec.require (a.toNat % 64 == 0) .align a
  let k ← context b
  Exec.sbEmpty
  contextRoom k
  let n ← appendCommand k { bareCommand .decLoad a 0 0 with w := 2 ^ (f.md.toNat % 4), k := 2 ^ (f.md.toNat / 4 % 4 + 1) } []
  Exec.writeX (xnum f.d) (.ofNat 64 n)
  return .next) s

/-- SYN.TL (R317): TL. -/
def execSynTlTl (f : FA) (s : State) : Host.Outcome State Fault Refusal := asInstr (do
  let k ← context (← Exec.readX (xnum f.a))
  Exec.writeX (xnum f.d) (.ofNat 64 ((← get).ctx k).tl)
  return .next) s

/-- SYN.TL.sub (R317): SUB. -/
def execSynTlSub (f : FA) (s : State) : Host.Outcome State Fault Refusal := asInstr (do
  let k ← context (← Exec.readX (xnum f.a))
  Exec.writeX (xnum f.d) (.ofNat 64 ((← get).ctx k).sub)
  return .next) s

/-- SYN.TL.fl (R317): the flags word. -/
def execSynTlFl (f : FA) (s : State) : Host.Outcome State Fault Refusal := asInstr (do
  let k ← context (← Exec.readX (xnum f.a))
  Exec.writeX (xnum f.d) (((← get).ctx k).flags k)
  return .next) s

/-- SYN.TL.mark (R317). -/
def execSynTlMark (f : FA) (s : State) : Host.Outcome State Fault Refusal := asInstr (do
  let k ← context (← Exec.readX (xnum f.a))
  let s ← get
  let th ← Exec.me
  if ! s.storesDone th then Exec.stall 0xC 0 .sbAndQueues
  contextRoom k
  let n ← appendCommand k (bareCommand .marker 0 0 0) ((State.writtenLines th).map fun l => (l, s.verOf l))
  Exec.writeX (xnum f.d) (.ofNat 64 n)
  return .next) s

/-- The import of a timeline wait (R84). -/
def importWrote (s : State) (id : Nat) (x : EngCtx) (n : Nat) : State :=
  x.wrote.foldl (fun s w => if w.1 ≤ n then s.advanceView id w.2.1 w.2.2 else s) s

/-- SYN.WTL (R84, R318). -/
def execSynWtl (f : FA) (s : State) : Host.Outcome State Fault Refusal := asInstr (do
  let a ← Exec.readX (xnum f.a)
  let n ← Exec.readX (xnum f.b)
  let k ← context a
  let s ← get
  let th ← Exec.me
  let x := s.ctx k
  let hb := f.md == 1
  if n.toNat ≤ x.tl then
    set (importWrote s th.id x n.toNat)
    Exec.writeX (xnum f.d) (.ofNat 64 x.tl)
    return .next
  else if hb && x.halt then
    Exec.writeX (xnum f.d) 0
    return .next
  else Exec.stall 3 k (.timeline k n hb)) s

/-- The decode table that a DEC.LOAD has read (R325). -/
def EngCmd.decoded (c : EngCmd) : List Nat :=
  let n := leNat ((List.range c.accesses).flatMap fun i => lineToBytes ((assoc c.loaded i).getD 0))
  (List.range (2 ^ c.k)).map fun j => bitsAt n (8 * c.w * j) (8 * c.w)

/-- COMPLETE (R70, R84, R325): the head command of a context whose accesses are all taken, while the copy engine runs (R32). -/
def execComplete (s : State) : Host.Outcome State Fault Refusal :=
  .next (match s.inp with
    | .unit k =>
      let x := s.ctx k
      (match x.cq with
       | [] => s
       | c :: rest =>
         if x.halt ∨ ! s.engineRuns k ∨ (List.range c.accesses).any (fun i => ! c.taken.contains i) then s else
           let x := { x with tl := x.tl + 1, cq := rest }
           s.setCtx k (if c.kind = .decLoad then { x with table := c.decoded, k := c.k, w := c.w } else x))
    | _ => s)

/-- ENGACC (R70, R84, R85): the next access of a command or element, or its translation ahead of its move (R360). -/
def execEngacc (s : State) : Host.Outcome State Fault Refusal :=
  .next (match s.inp with
    | .access a => s.engAccess a (.move none)
    | .translate a => s.engAccess a .translate
    | _ => s)

end Sys2Proof.Machine
end

