-- ==== Sys2Proof/Machine/Integer.lean ====
section
/-!
DEFINITION. Classes 0x2 and 0x3: integer arithmetic, compare, select, moves, multiply and divide, shifts, bit fields, and the two
address instructions (R147 to R163).
-/
namespace Sys2Proof.Machine

/-- The operand of an FI form (R150). -/
def immOperand (w : Nat) (i : BitVec 48) : Nat := (sext48 i % (2 ^ w : Nat)).toNat

/-- An operation on two sources (R152): both are read, popping in order, and Ext of the result is written. -/
def aluFA (f : FA) (op : Nat → Nat → Nat → Int) : Exec Flow := do
  let w := intWidth f.ty
  Exec.queuesReady [f.a, f.b] f.d
  let a ← Exec.src f.a
  let b ← Exec.src f.b
  Exec.dst f.d (extResult w (op w (unsignedView w a.toNat) (unsignedView w b.toNat)))
  return .next

/-- An operation on one source, which reads no b operand (R152). -/
def aluUnary (f : FA) (op : Nat → Nat → Int) : Exec Flow := do
  let w := intWidth f.ty
  Exec.queuesReady [f.a] f.d
  let a ← Exec.src f.a
  Exec.dst f.d (extResult w (op w (unsignedView w a.toNat)))
  return .next

/-- An operation on a source and an operand decoded from the immediate (R150, R152). -/
def aluFI (f : FI) (operand : Nat) (op : Nat → Nat → Nat → Int) : Exec Flow := do
  let w := intWidth f.ty
  Exec.queuesReady [f.a] f.d
  let a ← Exec.src f.a
  Exec.dst f.d (extResult w (op w (unsignedView w a.toNat) operand))
  return .next

/-- ADD (R153). -/
def intAdd (_ a b : Nat) : Int := a + b
/-- SUB (R153). -/
def intSub (_ a b : Nat) : Int := (a : Int) - b
/-- AND (R153). -/
def intAnd (_ a b : Nat) : Int := Nat.land a b
/-- OR (R153). -/
def intOr (_ a b : Nat) : Int := Nat.lor a b
/-- XOR (R153). -/
def intXor (_ a b : Nat) : Int := Nat.xor a b
/-- ANDN (R153). -/
def intAndn (w a b : Nat) : Int := Nat.land a (2 ^ w - 1 - b)
/-- MIN (R153). -/
def intMin (w a b : Nat) : Int := min (signedView w a) (signedView w b)
/-- MAX (R153). -/
def intMax (w a b : Nat) : Int := max (signedView w a) (signedView w b)
/-- MINU (R153). -/
def intMinu (_ a b : Nat) : Int := (min a b : Nat)
/-- MAXU (R153). -/
def intMaxu (_ a b : Nat) : Int := (max a b : Nat)
/-- ADDS (R153). -/
def intAdds (u : Bool) (w a b : Nat) : Int :=
  if u then satU w (a + b) else satS w (signedView w a + signedView w b)
/-- SUBS (R153). -/
def intSubs (u : Bool) (w a b : Nat) : Int :=
  if u then satU w ((a : Int) - b) else satS w (signedView w a - signedView w b)
/-- MUL (R156). -/
def intMul (_ a b : Nat) : Int := (a * b : Nat)
/-- MULH (R156). -/
def intMulh (w a b : Nat) : Int := signedView w a * signedView w b / (2 ^ w : Nat)
/-- MULHU (R156). -/
def intMulhu (w a b : Nat) : Int := (a * b / 2 ^ w : Nat)
/-- MULS (R156). -/
def intMuls (u : Bool) (w a b : Nat) : Int :=
  if u then satU w (a * b : Nat) else satS w (signedView w a * signedView w b)
/-- DIV (R156): the quotient rounded toward zero; all ones on a divisor of 0. -/
def intDiv (w a b : Nat) : Int := if signedView w b = 0 then -1 else (signedView w a).tdiv (signedView w b)
/-- DIVU (R156). -/
def intDivu (w a b : Nat) : Int := if b = 0 then (2 ^ w : Nat) - 1 else (a / b : Nat)
/-- REM (R156): the remainder takes the sign of the dividend; the dividend on a divisor of 0. -/
def intRem (w a b : Nat) : Int := if signedView w b = 0 then signedView w a else (signedView w a).tmod (signedView w b)
/-- REMU (R156). -/
def intRemu (_ a b : Nat) : Int := if b = 0 then a else (a % b : Nat)
/-- SHL (R157). -/
def intShl (w a b : Nat) : Int := (a * 2 ^ (b % w) : Nat)
/-- SHR (R157). -/
def intShr (w a b : Nat) : Int := (a / 2 ^ (b % w) : Nat)
/-- SRA (R157). -/
def intSra (w a b : Nat) : Int := signedView w a / (2 ^ (b % w) : Nat)
/-- ROL (R157). -/
def intRol (w a b : Nat) : Int := ((a * 2 ^ (b % w) + a / 2 ^ (w - b % w)) % 2 ^ w : Nat)
/-- ROR (R157). -/
def intRor (w a b : Nat) : Int := ((a / 2 ^ (b % w) + a * 2 ^ (w - b % w)) % 2 ^ w : Nat)

/-- BEXT (R158): p holds the position, the length and the sign bit in the bit places of the FI immediate. -/
def intBext (_ a p : Nat) : Int :=
  let len := min (bitsAt p 8 7) 64
  let f := a / 2 ^ bitsAt p 0 6 % 2 ^ len
  if bitsAt p 15 1 = 1 ∧ 1 ≤ len ∧ bitsAt f (len - 1) 1 = 1 then (f : Int) - (2 ^ len : Nat) else f

/-- BINS (R158) into the old value d. -/
def intBins (w d a p : Nat) : Int :=
  let pos := bitsAt p 0 6
  let m := (2 ^ min (bitsAt p 8 7) 64 - 1) * 2 ^ pos % 2 ^ w
  Nat.lor (Nat.land d (2 ^ w - 1 - m)) (Nat.land (a * 2 ^ pos % 2 ^ w) m)

/-- POPC (R159). -/
def intPopc (w a : Nat) : Int := ((List.range w).filter fun i => a.testBit i).length
/-- CLZ (R159). -/
def intClz (w a : Nat) : Int := if a = 0 then w else (w - 1 - Nat.log2 a : Nat)
/-- CTZ (R159). -/
def intCtz (w a : Nat) : Int := (((List.range w).find? fun i => a.testBit i).getD w : Nat)

/-- ADD (R153). -/
def execAddFa (f : FA) (s : State) : Host.Outcome State Fault Refusal := asInstr (aluFA f intAdd) s

/-- ADD with an immediate (R150, R153). -/
def execAddFi (f : FI) (s : State) : Host.Outcome State Fault Refusal := asInstr (aluFI f (immOperand (intWidth f.ty) f.imm) intAdd) s

/-- SUB (R153). -/
def execSub (f : FA) (s : State) : Host.Outcome State Fault Refusal := asInstr (aluFA f intSub) s

/-- AND (R153). -/
def execAndFa (f : FA) (s : State) : Host.Outcome State Fault Refusal := asInstr (aluFA f intAnd) s

/-- AND with an immediate (R150, R153). -/
def execAndFi (f : FI) (s : State) : Host.Outcome State Fault Refusal := asInstr (aluFI f (immOperand (intWidth f.ty) f.imm) intAnd) s

/-- OR (R153). -/
def execOrFa (f : FA) (s : State) : Host.Outcome State Fault Refusal := asInstr (aluFA f intOr) s

/-- OR with an immediate (R150, R153). -/
def execOrFi (f : FI) (s : State) : Host.Outcome State Fault Refusal := asInstr (aluFI f (immOperand (intWidth f.ty) f.imm) intOr) s

/-- XOR (R153). -/
def execXorFa (f : FA) (s : State) : Host.Outcome State Fault Refusal := asInstr (aluFA f intXor) s

/-- XOR with an immediate (R150, R153). -/
def execXorFi (f : FI) (s : State) : Host.Outcome State Fault Refusal := asInstr (aluFI f (immOperand (intWidth f.ty) f.imm) intXor) s

/-- ANDN (R153). -/
def execAndn (f : FA) (s : State) : Host.Outcome State Fault Refusal := asInstr (aluFA f intAndn) s

/-- MIN (R153). -/
def execMinFa (f : FA) (s : State) : Host.Outcome State Fault Refusal := asInstr (aluFA f intMin) s

/-- MIN with an immediate (R150, R153). -/
def execMinFi (f : FI) (s : State) : Host.Outcome State Fault Refusal := asInstr (aluFI f (immOperand (intWidth f.ty) f.imm) intMin) s

/-- MAX (R153). -/
def execMaxFa (f : FA) (s : State) : Host.Outcome State Fault Refusal := asInstr (aluFA f intMax) s

/-- MAX with an immediate (R150, R153). -/
def execMaxFi (f : FI) (s : State) : Host.Outcome State Fault Refusal := asInstr (aluFI f (immOperand (intWidth f.ty) f.imm) intMax) s

/-- MINU (R153). -/
def execMinuFa (f : FA) (s : State) : Host.Outcome State Fault Refusal := asInstr (aluFA f intMinu) s

/-- MINU with an immediate (R150, R153). -/
def execMinuFi (f : FI) (s : State) : Host.Outcome State Fault Refusal := asInstr (aluFI f (immOperand (intWidth f.ty) f.imm) intMinu) s

/-- MAXU (R153). -/
def execMaxuFa (f : FA) (s : State) : Host.Outcome State Fault Refusal := asInstr (aluFA f intMaxu) s

/-- MAXU with an immediate (R150, R153). -/
def execMaxuFi (f : FI) (s : State) : Host.Outcome State Fault Refusal := asInstr (aluFI f (immOperand (intWidth f.ty) f.imm) intMaxu) s

/-- ADDS (R153); md bit 0 makes it unsigned. -/
def execAdds (f : FA) (s : State) : Host.Outcome State Fault Refusal := asInstr (aluFA f (intAdds (f.md.toNat % 2 == 1))) s

/-- SUBS (R153); md bit 0 makes it unsigned. -/
def execSubs (f : FA) (s : State) : Host.Outcome State Fault Refusal := asInstr (aluFA f (intSubs (f.md.toNat % 2 == 1))) s

/-- CMP writes a predicate (R154): both sources are read, popping in order. -/
def cmpWith (d : Specifier) (w cc : Nat) (a b : Nat) : Exec Flow := do
  Exec.writeP (xnum d) (condHolds cc w a b)
  return .next

/-- CMP (R154). -/
def execCmpFa (f : FA) (s : State) : Host.Outcome State Fault Refusal := asInstr (do
  Exec.queuesReady [f.a, f.b] (.x 0)
  let a ← Exec.src f.a
  let b ← Exec.src f.b
  cmpWith f.d (intWidth f.ty) (f.md.toNat % 16) a.toNat b.toNat) s

/-- CMP with an immediate (R151, R154): the condition in bits 47..44, the operand the 44-bit field sign-extended. -/
def execCmpFi (f : FI) (s : State) : Host.Outcome State Fault Refusal := asInstr (do
  Exec.queuesReady [f.a] (.x 0)
  let a ← Exec.src f.a
  let w := intWidth f.ty
  cmpWith f.d w (f.imm.toNat / 2 ^ 44) a.toNat (signed 44 f.imm.toNat % (2 ^ w : Nat)).toNat) s

/-- SEL (R155): both sources are popped either way. -/
def execSel (f : FA) (s : State) : Host.Outcome State Fault Refusal := asInstr (do
  Exec.queuesReady [f.a, f.b] f.d
  let a ← Exec.src f.a
  let b ← Exec.src f.b
  let p ← Exec.readP (f.md.toNat % 8)
  Exec.dst f.d (if p != (f.md.toNat / 8 % 2 == 1) then a else b)
  return .next) s

/-- MOV (R153). -/
def execMovFa (f : FA) (s : State) : Host.Outcome State Fault Refusal := asInstr (aluUnary f fun _ a => a) s

/-- MOV with an immediate (R150, R153): no source is read. -/
def execMovFi (f : FI) (s : State) : Host.Outcome State Fault Refusal := asInstr (do
  Exec.queuesReady [] f.d
  Exec.dst f.d (extResult (intWidth f.ty) (sext48 f.imm))
  return .next) s

/-- MOVHI (R155): bits 63..16, the low 16 bits kept. -/
def execMovhi (f : FI) (s : State) : Host.Outcome State Fault Refusal := asInstr (do
  let x ← Exec.readX (xnum f.d)
  Exec.writeX (xnum f.d) (.ofNat 64 (f.imm.toNat * 2 ^ 16 + x.toNat % 2 ^ 16))
  return .next) s

/-- LEA (R160). -/
def execLea (f : FA) (s : State) : Host.Outcome State Fault Refusal := asInstr (do
  let a ← Exec.readX (xnum f.a)
  let b ← Exec.readX (xnum f.b)
  let c ← Exec.readX (xnum f.c)
  Exec.writeX (xnum f.d) (a + b <<< (f.md.toNat % 8) + c)
  return .next) s

/-- N, base and size of a kind of ROWA (R161). -/
def rowaKind (k : Nat) : Nat × Nat × Nat :=
  match k with
  | 0 => (32, 0x000, 64)
  | 1 => (32, 0x080, 8)
  | 2 => (8, 0x180, 64)
  | _ => (4, 0x380, 64)

/-- ROWA (R161). -/
def execRowa (f : FA) (s : State) : Host.Outcome State Fault Refusal := asInstr (do
  let a ← Exec.readX (xnum f.a)
  let b ← Exec.readX (xnum f.b)
  let (n, base, size) := rowaKind (f.md.toNat / 64)
  let k := (f.md.toNat % 64 + b.toNat) % 2 ^ 64 % n
  Exec.writeX (xnum f.d) (.ofNat 64 (a.toNat / rowBytes * rowBytes + base + k * size))
  return .next) s

/-- MUL (R156). -/
def execMulFa (f : FA) (s : State) : Host.Outcome State Fault Refusal := asInstr (aluFA f intMul) s

/-- MUL with an immediate (R150, R156). -/
def execMulFi (f : FI) (s : State) : Host.Outcome State Fault Refusal := asInstr (aluFI f (immOperand (intWidth f.ty) f.imm) intMul) s

/-- MULH (R156). -/
def execMulh (f : FA) (s : State) : Host.Outcome State Fault Refusal := asInstr (aluFA f intMulh) s

/-- MULHU (R156). -/
def execMulhu (f : FA) (s : State) : Host.Outcome State Fault Refusal := asInstr (aluFA f intMulhu) s

/-- DIV (R156). -/
def execDiv (f : FA) (s : State) : Host.Outcome State Fault Refusal := asInstr (aluFA f intDiv) s

/-- DIVU (R156). -/
def execDivu (f : FA) (s : State) : Host.Outcome State Fault Refusal := asInstr (aluFA f intDivu) s

/-- REM (R156). -/
def execRem (f : FA) (s : State) : Host.Outcome State Fault Refusal := asInstr (aluFA f intRem) s

/-- REMU (R156). -/
def execRemu (f : FA) (s : State) : Host.Outcome State Fault Refusal := asInstr (aluFA f intRemu) s

/-- MULS (R156); md bit 0 makes it unsigned. -/
def execMuls (f : FA) (s : State) : Host.Outcome State Fault Refusal := asInstr (aluFA f (intMuls (f.md.toNat % 2 == 1))) s

/-- SHL (R157). -/
def execShlFa (f : FA) (s : State) : Host.Outcome State Fault Refusal := asInstr (aluFA f intShl) s

/-- SHL by an immediate amount (R157). -/
def execShlFi (f : FI) (s : State) : Host.Outcome State Fault Refusal := asInstr (aluFI f (f.imm.toNat % 64) intShl) s

/-- SHR (R157). -/
def execShrFa (f : FA) (s : State) : Host.Outcome State Fault Refusal := asInstr (aluFA f intShr) s

/-- SHR by an immediate amount (R157). -/
def execShrFi (f : FI) (s : State) : Host.Outcome State Fault Refusal := asInstr (aluFI f (f.imm.toNat % 64) intShr) s

/-- SRA (R157). -/
def execSraFa (f : FA) (s : State) : Host.Outcome State Fault Refusal := asInstr (aluFA f intSra) s

/-- SRA by an immediate amount (R157). -/
def execSraFi (f : FI) (s : State) : Host.Outcome State Fault Refusal := asInstr (aluFI f (f.imm.toNat % 64) intSra) s

/-- ROL (R157). -/
def execRolFa (f : FA) (s : State) : Host.Outcome State Fault Refusal := asInstr (aluFA f intRol) s

/-- ROL by an immediate amount (R157). -/
def execRolFi (f : FI) (s : State) : Host.Outcome State Fault Refusal := asInstr (aluFI f (f.imm.toNat % 64) intRol) s

/-- ROR (R157). -/
def execRorFa (f : FA) (s : State) : Host.Outcome State Fault Refusal := asInstr (aluFA f intRor) s

/-- ROR by an immediate amount (R157). -/
def execRorFi (f : FI) (s : State) : Host.Outcome State Fault Refusal := asInstr (aluFI f (f.imm.toNat % 64) intRor) s

/-- BEXT with its field description in X(b), of which bits 15..0 are read at any width (R158). -/
def aluField (f : FA) : Exec Flow := do
  let w := intWidth f.ty
  Exec.queuesReady [f.a, f.b] f.d
  let a ← Exec.src f.a
  let b ← Exec.src f.b
  Exec.dst f.d (extResult w (intBext w (unsignedView w a.toNat) b.toNat))
  return .next

/-- BEXT (R158): position, length and sign bit from X(b). -/
def execBextFa (f : FA) (s : State) : Host.Outcome State Fault Refusal := asInstr (aluField f) s

/-- BEXT (R158). -/
def execBextFi (f : FI) (s : State) : Host.Outcome State Fault Refusal := asInstr (aluFI f (f.imm.toNat % 2 ^ 16) intBext) s

/-- BINS (R158): the sources are popped before d is read. -/
def execBinsFa (f : FA) (s : State) : Host.Outcome State Fault Refusal := asInstr (do
  let w := intWidth f.ty
  Exec.queuesReady [f.a, f.b] f.d
  let a ← Exec.src f.a
  let b ← Exec.src f.b
  let d ← Exec.readX (xnum f.d)
  Exec.dst f.d (extResult w (intBins w (unsignedView w d.toNat) (unsignedView w a.toNat) b.toNat))
  return .next) s

/-- BINS with an immediate field description (R158). -/
def execBinsFi (f : FI) (s : State) : Host.Outcome State Fault Refusal := asInstr (do
  let w := intWidth f.ty
  Exec.queuesReady [f.a] f.d
  let a ← Exec.src f.a
  let d ← Exec.readX (xnum f.d)
  Exec.dst f.d (extResult w (intBins w (unsignedView w d.toNat) (unsignedView w a.toNat) f.imm.toNat))
  return .next) s

/-- POPC (R159). -/
def execPopc (f : FA) (s : State) : Host.Outcome State Fault Refusal := asInstr (aluUnary f intPopc) s

/-- CLZ (R159). -/
def execClz (f : FA) (s : State) : Host.Outcome State Fault Refusal := asInstr (aluUnary f intClz) s

/-- CTZ (R159). -/
def execCtz (f : FA) (s : State) : Host.Outcome State Fault Refusal := asInstr (aluUnary f intCtz) s

end Sys2Proof.Machine
end

