-- ==== Sys2Proof/Machine/Vector.lean ====
section
/-!
DEFINITION. Classes 0x6 and 0x7: lanewise instructions (R207 to R211), conversion (R212, R213), moves of lanes (R214), reductions and
scans (R215 to R217), quantisation (R218 to R220).
-/
namespace Sys2Proof.Machine

/-- The lanes of a result by index (R207). -/
def vlanes (t : ElemType) (g : Nat → Nat) : Line := ofLanes t.width ((List.range t.lanes).map g)

/-- One lane of an arithmetic operation (R207): integer lanes modulo 2^w, floating lanes exact and rounded once. -/
def laneOf (t : ElemType) (int : Nat → Nat → Nat → Int) (flt : Rl → Rl → Rl → Rl) (a b c : Nat) : Nat :=
  match ElemFloat t with
  | some fm => (flt (.decode fm a) (.decode fm b) (.decode fm c)).rne fm
  | none => (int a b c % (2 ^ t.width : Nat)).toNat

/-- An instruction on two sources. -/
def vop2 (f : FA) (g : Nat → Nat → Nat) : Exec Flow := do
  let w := f.ty.width
  let a ← Exec.vsrc f.a w
  let b ← Exec.vsrc f.b w
  Exec.writeV (vnum f.d) (vlanes f.ty fun i => g (lane a w i) (lane b w i))
  return .next

/-- An instruction on one source. -/
def vop1 (f : FA) (g : Nat → Nat) : Exec Flow := do
  let w := f.ty.width
  let a ← Exec.vsrc f.a w
  Exec.writeV (vnum f.d) (vlanes f.ty fun i => g (lane a w i))
  return .next

/-- An instruction on three sources. -/
def vop3 (f : FA) (g : Nat → Nat → Nat → Nat) : Exec Flow := do
  let w := f.ty.width
  let a ← Exec.vsrc f.a w
  let b ← Exec.vsrc f.b w
  let c ← Exec.vsrc f.c w
  Exec.writeV (vnum f.d) (vlanes f.ty fun i => g (lane a w i) (lane b w i) (lane c w i))
  return .next

/-- md bit k. -/
def mdBit (f : FA) (k : Nat) : Bool := f.md.toNat / 2 ^ k % 2 == 1

/-- An integer lane's value, signed or (u) unsigned. -/
def laneInt (u : Bool) (w x : Nat) : Int := if u then x else signed w x

/-- VMAX and VMIN on a lane (R208). -/
def laneMax (t : ElemType) (u : Bool) (a b : Nat) : Nat :=
  laneOf t (fun a b _ => if laneInt u t.width a < laneInt u t.width b then b else a) (fun x y _ => x.max y) a b 0

/-- VMIN on a lane (R208). -/
def laneMin (t : ElemType) (u : Bool) (a b : Nat) : Nat :=
  laneOf t (fun a b _ => if laneInt u t.width b < laneInt u t.width a then b else a) (fun x y _ => x.min y) a b 0

/-- VADD (R208). -/
def execVadd (f : FA) (s : State) : Host.Outcome State Fault Refusal :=
  asInstr (vop2 f fun a b => laneOf f.ty (fun a b _ => a + b) (fun x y _ => x.add y) a b 0) s

/-- VSUB (R208). The difference -0 - (+0) is the sum of -0 terms, and -0 (R202; DEDUCED, log entry 109). -/
def execVsub (f : FA) (s : State) : Host.Outcome State Fault Refusal :=
  asInstr (vop2 f fun a b => laneOf f.ty (fun a b _ => (a : Int) - b) (fun x y _ => x.add y.negate) a b 0) s

/-- VMUL (R208). -/
def execVmul (f : FA) (s : State) : Host.Outcome State Fault Refusal :=
  asInstr (vop2 f fun a b => laneOf f.ty (fun a b _ => a * b) (fun x y _ => x.mul y) a b 0) s

/-- VFMA (R208). -/
def execVfma (f : FA) (s : State) : Host.Outcome State Fault Refusal :=
  asInstr (vop3 f fun a b c => laneOf f.ty (fun a b c => a * b + c) (fun x y z => (x.mul y).add z) a b c) s

/-- VMIN (R208). -/
def execVmin (f : FA) (s : State) : Host.Outcome State Fault Refusal := asInstr (vop2 f (laneMin f.ty (mdBit f 0))) s

/-- VMAX (R208). -/
def execVmax (f : FA) (s : State) : Host.Outcome State Fault Refusal := asInstr (vop2 f (laneMax f.ty (mdBit f 0))) s

/-- VABS (R208): a floating lane has its sign bit cleared. -/
def execVabs (f : FA) (s : State) : Host.Outcome State Fault Refusal := asInstr (vop1 f fun a =>
  if f.ty.isInt then (signed f.ty.width a).natAbs % 2 ^ f.ty.width else a % 2 ^ (f.ty.width - 1)) s

/-- VNEG (R208): a floating lane has its sign bit inverted. -/
def execVneg (f : FA) (s : State) : Host.Outcome State Fault Refusal := asInstr (vop1 f fun a =>
  if f.ty.isInt then (2 ^ f.ty.width - a) % 2 ^ f.ty.width else (a + 2 ^ (f.ty.width - 1)) % 2 ^ f.ty.width) s

/-- VRCP (R208, R209). -/
def execVrcp (f : FA) (s : State) : Host.Outcome State Fault Refusal :=
  asInstr (vop1 f fun a => laneOf f.ty (fun a _ _ => a) (fun x _ _ => rcp x) a 0 0) s

/-- VRSQ (R208, R209). -/
def execVrsq (f : FA) (s : State) : Host.Outcome State Fault Refusal :=
  asInstr (vop1 f fun a => laneOf f.ty (fun a _ _ => a) (fun x _ _ => rsq x) a 0 0) s

/-- VEXP (R208, R209). -/
def execVexp (f : FA) (s : State) : Host.Outcome State Fault Refusal :=
  asInstr (vop1 f fun a => laneOf f.ty (fun a _ _ => a) (fun x _ _ => exp2 x) a 0 0) s

/-- VLOG (R208, R209). -/
def execVlog (f : FA) (s : State) : Host.Outcome State Fault Refusal :=
  asInstr (vop1 f fun a => laneOf f.ty (fun a _ _ => a) (fun x _ _ => log2 x) a 0 0) s

/-- VAND (R208). -/
def execVand (f : FA) (s : State) : Host.Outcome State Fault Refusal := asInstr (vop2 f Nat.land) s

/-- VOR (R208). -/
def execVor (f : FA) (s : State) : Host.Outcome State Fault Refusal := asInstr (vop2 f Nat.lor) s

/-- VXOR (R208). -/
def execVxor (f : FA) (s : State) : Host.Outcome State Fault Refusal := asInstr (vop2 f Nat.xor) s

/-- VSHL (R208). -/
def execVshl (f : FA) (s : State) : Host.Outcome State Fault Refusal :=
  asInstr (vop2 f fun a b => a * 2 ^ (b % f.ty.width) % 2 ^ f.ty.width) s

/-- VSHR (R208). -/
def execVshr (f : FA) (s : State) : Host.Outcome State Fault Refusal :=
  asInstr (vop2 f fun a b => a / 2 ^ (b % f.ty.width)) s

/-- VSRA (R208). -/
def execVsra (f : FA) (s : State) : Host.Outcome State Fault Refusal := asInstr (vop2 f fun a b =>
  (signed f.ty.width a / (2 ^ (b % f.ty.width) : Nat) % (2 ^ f.ty.width : Nat)).toNat) s

/-- VCMP (R210): all ones where the condition holds, and a predicate when md names one. -/
def execVcmp (f : FA) (s : State) : Host.Outcome State Fault Refusal := asInstr (do
  let w := f.ty.width
  let a ← Exec.vsrc f.a w
  let b ← Exec.vsrc f.b w
  let c := f.md.toNat % 8
  let hold (i : Nat) : Bool := match ElemFloat f.ty with
    | some fm => floatCond c (.decode fm (lane a w i)) (.decode fm (lane b w i))
    | none => intCond c (laneInt (mdBit f 3) w (lane a w i)) (laneInt (mdBit f 3) w (lane b w i))
  Exec.writeV (vnum f.d) (vlanes f.ty fun i => if hold i then 2 ^ w - 1 else 0)
  let p := f.md.toNat / 16 % 8
  let is := List.range f.ty.lanes
  if p ≠ 0 then Exec.writeP p (if mdBit f 7 then is.all hold else is.any hold)
  return .next) s

/-- VSEL (R211). -/
def execVsel (f : FA) (s : State) : Host.Outcome State Fault Refusal :=
  asInstr (vop3 f fun a b c => if c = 0 then b else a) s

/-- VADDS (R208). -/
def execVadds (f : FA) (s : State) : Host.Outcome State Fault Refusal :=
  asInstr (vop2 f fun a b => (intAddsLane (mdBit f 0) f.ty.width a b % (2 ^ f.ty.width : Nat)).toNat) s
where
  /-- SatS of the sum, or SatU. -/
  intAddsLane (u : Bool) (w a b : Nat) : Int := if u then satU w (a + b) else satS w (signed w a + signed w b)

/-- VSUBS (R208). -/
def execVsubs (f : FA) (s : State) : Host.Outcome State Fault Refusal :=
  asInstr (vop2 f fun a b => (intSubsLane (mdBit f 0) f.ty.width a b % (2 ^ f.ty.width : Nat)).toNat) s
where
  /-- SatS of the difference, or SatU. -/
  intSubsLane (u : Bool) (w a b : Nat) : Int := if u then satU w ((a : Int) - b) else satS w (signed w a - signed w b)

/-- VMULH (R208). -/
def execVmulh (f : FA) (s : State) : Host.Outcome State Fault Refusal := asInstr (vop2 f fun a b =>
  let w := f.ty.width
  (laneInt (mdBit f 0) w a * laneInt (mdBit f 0) w b / (2 ^ w : Nat) % (2 ^ w : Nat)).toNat) s

/-- The rounding mode of VCVT (R212). -/
def cvtMode (md : BitVec 8) : RMode :=
  match md.toNat / 8 % 4 with
  | 0 => .rne | 1 => .rtz | 2 => .rdn | _ => .rup

/-- A real rounded to an integer by a mode and saturated to a signed range of w bits; NaN gives 0 (R212). -/
def toIntSat (x : Rl) (mode : RMode) (w : Nat) : Int :=
  match x with
  | .nan => 0
  | .inf n => if n then -(2 ^ (w - 1) : Nat) else (2 ^ (w - 1) : Nat) - 1
  | .fin n m e => let k := Rl.roundInt n m e mode; satS w (if n then -(k : Int) else k)

/-- Conv (R212). A floating value is exact in a wider format, an infinity too: sat is ignored there. -/
def convLane (d s : ElemType) (mode : RMode) (sat : Bool) (x : Nat) : Nat :=
  match ElemFloat d with
  | some fm => (elemValue s x).roundTo fm mode (sat && ((ElemFloat s).isNone || decide (d.width ≤ s.width)))
  | none => match ElemFloat s with
    | some fm => (toIntSat (.decode fm x) mode d.width % (2 ^ d.width : Nat)).toNat
    | none => (satS d.width (signed s.width x) % (2 ^ d.width : Nat)).toNat

/-- VCVT (R212); the excluded pairs are faults of decoding. -/
def execVcvt (f : FA) (s : State) : Host.Outcome State Fault Refusal := asInstr (do
  let st := cvtSource f.md
  let a ← Exec.vsrc f.a st.width
  let old ← Exec.readV (vnum f.d)
  let part := f.md.toNat / 64
  let conv (i : Nat) : Nat := convLane f.ty st (cvtMode f.md) (mdBit f 5) (lane a st.width i)
  let ld := f.ty.lanes
  let ls := st.lanes
  let v := if ls < ld then
      vlanes f.ty fun i => if part * ls ≤ i ∧ i < (part + 1) * ls then conv (i - part * ls) else lane old f.ty.width i
    else if ld < ls then vlanes f.ty fun i => conv (part * ld + i)
    else vlanes f.ty conv
  Exec.writeV (vnum f.d) v
  return .next) s

/-- VPACK (R213). -/
def execVpack (f : FA) (s : State) : Host.Outcome State Fault Refusal := asInstr (do
  let w := 2 * f.ty.width
  let a ← Exec.vsrc f.a w
  let b ← Exec.vsrc f.b w
  let half := f.ty.lanes / 2
  let pack (x : Nat) : Nat := match ElemFloat f.ty with
    | some fm => (f32 x).rne fm
    | none => if mdBit f 0 then min x (2 ^ 31 - 1) else (satS 32 (signed 64 x) % (2 ^ 32 : Nat)).toNat
  Exec.writeV (vnum f.d) (vlanes f.ty fun i => pack (if i < half then lane a w i else lane b w (i - half)))
  return .next) s

/-- VBCAST (R214). -/
def execVbcast (f : FA) (s : State) : Host.Outcome State Fault Refusal := asInstr (do
  let w := f.ty.width
  let a ← Exec.vsrc f.a w
  Exec.writeV (vnum f.d) (vlanes f.ty fun i => lane a w (if f.a.isX then i else f.md.toNat))
  return .next) s

/-- VPERM (R214). -/
def execVperm (f : FA) (s : State) : Host.Outcome State Fault Refusal := asInstr (do
  let w := f.ty.width
  let a ← Exec.vsrc f.a w
  let b ← Exec.vsrc f.b w
  Exec.writeV (vnum f.d) (vlanes f.ty fun i => lane a w (lane b w i % f.ty.lanes))
  return .next) s

/-- VROT (R214). -/
def execVrot (f : FA) (s : State) : Host.Outcome State Fault Refusal := asInstr (do
  let w := f.ty.width
  let a ← Exec.vsrc f.a w
  let b ← Exec.readX (xnum f.b)
  Exec.writeV (vnum f.d) (vlanes f.ty fun i => lane a w ((i + f.md.toNat + b.toNat) % f.ty.lanes))
  return .next) s

/-- VZIP (R214). -/
def execVzip (f : FA) (s : State) : Host.Outcome State Fault Refusal := asInstr (do
  let w := f.ty.width
  let a ← Exec.vsrc f.a w
  let b ← Exec.vsrc f.b w
  let h := if mdBit f 0 then f.ty.lanes / 2 else 0
  Exec.writeV (vnum f.d) (vlanes f.ty fun i => if i % 2 = 0 then lane a w (h + i / 2) else lane b w (h + i / 2))
  return .next) s

/-- VUNZIP (R214). -/
def execVunzip (f : FA) (s : State) : Host.Outcome State Fault Refusal := asInstr (do
  let w := f.ty.width
  let a ← Exec.vsrc f.a w
  let b ← Exec.vsrc f.b w
  let n := f.ty.lanes
  Exec.writeV (vnum f.d) (vlanes f.ty fun i =>
    let j := 2 * i + (mdBit f 0).toNat
    if j < n then lane a w j else lane b w (j - n))
  return .next) s

/-- VINS (R214). -/
def execVins (f : FA) (s : State) : Host.Outcome State Fault Refusal := asInstr (do
  let a ← Exec.readX (xnum f.a)
  let old ← Exec.readV (vnum f.d)
  Exec.writeV (vnum f.d) (setLane old f.ty.width f.md.toNat a.toNat)
  return .next) s

/-- VMOVX (R214): sign-extended for the integer types, zero-extended for the floating ones. -/
def execVmovx (f : FA) (s : State) : Host.Outcome State Fault Refusal := asInstr (do
  let w := f.ty.width
  let a ← Exec.vsrc f.a w
  let x := lane a w f.md.toNat
  Exec.writeX (xnum f.d) (if f.ty.isInt then wordOfInt (signed w x) else .ofNat 64 x)
  return .next) s

/-- The kinds of reduction (R215). -/
inductive Reduce where
  | sum | max | min
  deriving DecidableEq, Repr

/-- The width of a lane of the running result (R215). -/
def reduceWidth (k : Reduce) (t : ElemType) : Nat :=
  match k with
  | .sum => if t.isInt then 64 else 32
  | _ => t.width

/-- The identity of a reduction (R215). -/
def reduceIdentity (k : Reduce) (t : ElemType) (u : Bool) : Nat :=
  let w := t.width
  match k with
  | .sum => if t.isInt then 0 else 0x80000000
  | .max => match ElemFloat t with
    | some fm => (Rl.inf true).roundTo fm .rne false
    | none => if u then 0 else 2 ^ (w - 1)
  | .min => match ElemFloat t with
    | some fm => (Rl.inf false).roundTo fm .rne false
    | none => if u then 2 ^ w - 1 else 2 ^ (w - 1) - 1

/-- Combine (R215). -/
def reduceCombine (k : Reduce) (t : ElemType) (u : Bool) (x : Nat) (group : List Nat) : Nat :=
  match k with
  | .sum => match ElemFloat t with
    | some fm => ((group.map (Rl.decode fm)).foldl Rl.add (f32 x)).rne .f32
    | none => (((x : Int) + (group.map (laneInt u t.width)).foldl (· + ·) 0) % (2 ^ 64 : Nat)).toNat
  | .max => group.foldl (laneMax t u) x
  | .min => group.foldl (laneMin t u) x

/-- One vector combined into the running result (R215). -/
def reduceUnit (k : Reduce) (t : ElemType) (u : Bool) (run : Line) (src : Line) : Line :=
  let w := reduceWidth k t
  let n := 512 / w
  let g := t.lanes / n
  ofLanes w ((List.range n).map fun i =>
    reduceCombine k t u (lane run w i) ((List.range g).map fun j => lane src t.width (g * i + j)))

/-- The lanes of one level of the fold of a floating sum (R216). -/
def pairSums (l : List Nat) : List Nat :=
  (List.range (l.length / 2)).map fun j => ((f32 (l.getD (2 * j) 0)).add (f32 (l.getD (2 * j + 1) 0))).rne .f32

/-- Fold (R216): one value in lane 0 and zero elsewhere. -/
def reduceFold (k : Reduce) (t : ElemType) (u : Bool) (run : Line) : Line :=
  let w := reduceWidth k t
  let ls := lanesOf run w
  let v := match k with
    | .sum => if t.isInt then ls.foldl (· + ·) 0 % 2 ^ 64 else (pairSums (pairSums (pairSums (pairSums ls)))).getD 0 0
    | .max => (ls.drop 1).foldl (laneMax t u) (ls.getD 0 0)
    | .min => (ls.drop 1).foldl (laneMin t u) (ls.getD 0 0)
  .ofNat 512 v

/-- The units of a reduction (R215): the extent of the innermost dimension of a stream slot, and one for a register. -/
def reductionUnits (s : State) (row : Nat) (a : Specifier) : Nat :=
  match a with
  | .s j => s.slotExtent row j.val 0
  | _ => 1

/-- A reduction (R215, R222): one unit a move, with a progress point after each but the last. -/
def reduction (f : FA) (k : Reduce) : Exec Flow := do
  let row ← Exec.myRow
  let s ← get
  let u := mdBit f 2
  let n := reductionUnits s row f.a
  let done := s.prog row
  if done < n then
    let src ← Exec.vsrc f.a f.ty.width
    let old ← Exec.readV (vnum f.d)
    let w := reduceWidth k f.ty
    let run := if done = 0 ∧ ! mdBit f 1 then ofLanes w (List.replicate (512 / w) (reduceIdentity k f.ty u)) else old
    Exec.writeV (vnum f.d) (reduceUnit k f.ty u run src)
  if done + 1 < n then
    modify fun s => s.setCtrl row 0 32 32 (done + 1)
    return .again
  else
    if mdBit f 0 then
      let v ← Exec.readV (vnum f.d)
      Exec.writeV (vnum f.d) (reduceFold k f.ty u v)
    modify fun s => if s.prog row = 0 then s else s.setCtrl row 0 32 32 0
    return .next

/-- VRSUM (R215, R216). -/
def execVrsum (f : FA) (s : State) : Host.Outcome State Fault Refusal := asInstr (reduction f .sum) s

/-- VRMAX (R215, R216). -/
def execVrmax (f : FA) (s : State) : Host.Outcome State Fault Refusal := asInstr (reduction f .max) s

/-- VRMIN (R215, R216). -/
def execVrmin (f : FA) (s : State) : Host.Outcome State Fault Refusal := asInstr (reduction f .min) s

/-- The running sums of VSCAN (R217): the sums before and after each lane. -/
def scanLanes (t : ElemType) (exclusive : Bool) : List Nat → Nat → List Nat
  | [], _ => []
  | x :: xs, acc =>
    let next := laneOf t (fun a b _ => a + b) (fun p q _ => p.add q) acc x 0
    (if exclusive then acc else next) :: scanLanes t exclusive xs next

/-- VSCAN (R217). -/
def execVscan (f : FA) (s : State) : Host.Outcome State Fault Refusal := asInstr (do
  let w := f.ty.width
  let a ← Exec.vsrc f.a w
  let start := if f.ty.isInt then 0 else 2 ^ (w - 1)
  Exec.writeV (vnum f.d) (ofLanes w (scanLanes f.ty (mdBit f 0) (lanesOf a w) start))
  return .next) s

/-- The narrow format of VQNT and VDQNT (R205, R206). -/
def narrowType (md : BitVec 8) : ElemType :=
  match md.toNat % 4 with
  | 0 => .e2m1 | 1 => .e4m3 | 2 => .e5m2 | _ => .i8

/-- The value of an E2M1 code with its extra value in force or not (R200). -/
def e2m1Value (x : Option Nat) (c : Nat) : Rl :=
  match x with
  | some b => if c = 8 then .decode .e4m3 b else .decode .e2m1 c
  | none => .decode .e2m1 c

/-- The distance between two numbers. -/
def distance (x y : Rl) : Rl :=
  match x.add y.negate with
  | .fin _ m e => .fin false m e
  | v => v

/-- The E2M1 code nearest y (R218): x is the extra byte when it is a candidate. -/
def nearestE2m1 (x : Option Nat) (y : Rl) : Nat :=
  let standard := (List.range 16).filter (· != 8)
  let all := standard ++ (if x.isSome then [8] else [])
  match y with
  | .nan => 0
  | .inf n =>
    all.foldl (fun b c =>
      let v := e2m1Value x c
      if v.neg? = n ∧ (distance (e2m1Value x b) (.fin false 0 0)).lt (distance v (.fin false 0 0)) then c else b) (if n then 9 else 0)
  | y =>
    all.foldl (fun b c =>
      let db := distance y (e2m1Value x b)
      let dc := distance y (e2m1Value x c)
      if dc.lt db then c else if c ≠ 8 ∧ dc.eq db ∧ c % 2 = 0 then c else b) 0

/-- The code of VQNT for a lane's value (R218). -/
def quantCode (f : FA) (e : Nat) (x : Nat) (v : Rl) : Nat :=
  if e = 255 then 0 else
    let y := v.scale (127 - (e : Int))
    match narrowType f.md with
    | .e2m1 => nearestE2m1 (if mdBit f 5 && x != 0x7F && x != 0xFF then some x else none) y
    | .e4m3 => let c := y.roundTo .e4m3 .rne true; if c = 0x80 then 0 else c
    | .e5m2 => let c := y.roundTo .e5m2 .rne true; if c = 0x80 then 0 else c
    | _ => (toIntSat y .rne 8 % (2 ^ 8 : Nat)).toNat

/-- VQNT (R218). -/
def execVqnt (f : FA) (s : State) : Host.Outcome State Fault Refusal := asInstr (do
  let w := f.ty.width
  let a ← Exec.vsrc f.a w
  let b ← Exec.readX (xnum f.b)
  let old ← Exec.readV (vnum f.d)
  let nw := (narrowType f.md).width
  let n := f.ty.lanes
  let part := f.md.toNat / 4 % 8
  let code (i : Nat) : Nat := quantCode f (b.toNat % 256) (b.toNat / 256 % 256) (elemValue f.ty (lane a w i))
  Exec.writeV (vnum f.d) (ofLanes nw ((List.range (512 / nw)).map fun j =>
    if part * n ≤ j ∧ j < (part + 1) * n then code (j - part * n) else lane old nw j))
  return .next) s

/-- The lane that VDQNT makes of a code (R219). -/
def dequantLane (f : FA) (e x c : Nat) : Nat :=
  match ElemFloat f.ty with
  | none => 0
  | some fm =>
    if e = 255 then fm.nan else
      let v := match narrowType f.md with
        | .e2m1 => e2m1Value (if mdBit f 5 then some x else none) c
        | t => elemValue t c
      (v.scale ((e : Int) - 127)).rne fm

/-- VDQNT (R219). -/
def execVdqnt (f : FA) (s : State) : Host.Outcome State Fault Refusal := asInstr (do
  let nw := (narrowType f.md).width
  let a ← Exec.vsrc f.a nw
  let b ← Exec.readX (xnum f.b)
  let part := f.md.toNat / 4 % 8
  Exec.writeV (vnum f.d) (vlanes f.ty fun i =>
    dequantLane f (b.toNat % 256) (b.toNat / 256 % 256) (lane a nw (part * f.ty.lanes + i)))
  return .next) s

/-- VBSCALE (R220). -/
def execVbscale (f : FA) (s : State) : Host.Outcome State Fault Refusal := asInstr (do
  let w := f.ty.width
  let a ← Exec.vsrc f.a w
  let b ← Exec.vsrc f.b 8
  Exec.writeV (vnum f.d) (vlanes f.ty fun i =>
    let sc := lane b 8 (i / 2 ^ (f.md.toNat % 8))
    match ElemFloat f.ty with
    | none => 0
    | some fm => if sc = 255 then fm.nan else ((elemValue f.ty (lane a w i)).scale ((sc : Int) - 127)).rne fm)
  return .next) s

end Sys2Proof.Machine
end

