-- ==== Sys2Proof/Machine/Fship.lean ====
section
/-!
DEFINITION. FSHIP (R192) and the routines it runs (R355): a routine runs on the registers of a scratch row, and only its end is seen.
-/
namespace Sys2Proof.Machine

/-- An instruction of a routine: classes 0x1, 0x2, 0x3, 0x6 and 0x7, without JT, BRI and CALLI (R355). -/
def routineExec (i : Instr) (s : State) : Option (Host.Outcome State Fault Refusal) :=
  match i with
  | .nop f => some (execNop f s)
  | .br f => some (execBr f s)
  | .bcmp f => some (execBcmp f s)
  | .lpad f => some (execLpad f s)
  | .call f => some (execCall f s)
  | .ret f => some (execRet f s)
  | .loop f => some (execLoop f s)
  | .fsync f => some (execFsync f s)
  | .pand f => some (execPand f s)
  | .por f => some (execPor f s)
  | .pxor f => some (execPxor f s)
  | .pnot f => some (execPnot f s)
  | .addFa f => some (execAddFa f s)
  | .sub f => some (execSub f s)
  | .andFa f => some (execAndFa f s)
  | .orFa f => some (execOrFa f s)
  | .xorFa f => some (execXorFa f s)
  | .andn f => some (execAndn f s)
  | .minFa f => some (execMinFa f s)
  | .maxFa f => some (execMaxFa f s)
  | .minuFa f => some (execMinuFa f s)
  | .maxuFa f => some (execMaxuFa f s)
  | .adds f => some (execAdds f s)
  | .subs f => some (execSubs f s)
  | .cmpFa f => some (execCmpFa f s)
  | .sel f => some (execSel f s)
  | .movFa f => some (execMovFa f s)
  | .lea f => some (execLea f s)
  | .rowa f => some (execRowa f s)
  | .addFi f => some (execAddFi f s)
  | .andFi f => some (execAndFi f s)
  | .orFi f => some (execOrFi f s)
  | .xorFi f => some (execXorFi f s)
  | .minFi f => some (execMinFi f s)
  | .maxFi f => some (execMaxFi f s)
  | .minuFi f => some (execMinuFi f s)
  | .maxuFi f => some (execMaxuFi f s)
  | .cmpFi f => some (execCmpFi f s)
  | .movFi f => some (execMovFi f s)
  | .movhi f => some (execMovhi f s)
  | .mulFa f => some (execMulFa f s)
  | .mulh f => some (execMulh f s)
  | .mulhu f => some (execMulhu f s)
  | .div f => some (execDiv f s)
  | .divu f => some (execDivu f s)
  | .rem f => some (execRem f s)
  | .remu f => some (execRemu f s)
  | .muls f => some (execMuls f s)
  | .shlFa f => some (execShlFa f s)
  | .shrFa f => some (execShrFa f s)
  | .sraFa f => some (execSraFa f s)
  | .rolFa f => some (execRolFa f s)
  | .rorFa f => some (execRorFa f s)
  | .bextFa f => some (execBextFa f s)
  | .binsFa f => some (execBinsFa f s)
  | .popc f => some (execPopc f s)
  | .clz f => some (execClz f s)
  | .ctz f => some (execCtz f s)
  | .mulFi f => some (execMulFi f s)
  | .shlFi f => some (execShlFi f s)
  | .shrFi f => some (execShrFi f s)
  | .sraFi f => some (execSraFi f s)
  | .rolFi f => some (execRolFi f s)
  | .rorFi f => some (execRorFi f s)
  | .bextFi f => some (execBextFi f s)
  | .binsFi f => some (execBinsFi f s)
  | .vadd f => some (execVadd f s)
  | .vsub f => some (execVsub f s)
  | .vmul f => some (execVmul f s)
  | .vfma f => some (execVfma f s)
  | .vmin f => some (execVmin f s)
  | .vmax f => some (execVmax f s)
  | .vabs f => some (execVabs f s)
  | .vneg f => some (execVneg f s)
  | .vrcp f => some (execVrcp f s)
  | .vrsq f => some (execVrsq f s)
  | .vexp f => some (execVexp f s)
  | .vlog f => some (execVlog f s)
  | .vand f => some (execVand f s)
  | .vor f => some (execVor f s)
  | .vxor f => some (execVxor f s)
  | .vshl f => some (execVshl f s)
  | .vshr f => some (execVshr f s)
  | .vsra f => some (execVsra f s)
  | .vcmp f => some (execVcmp f s)
  | .vsel f => some (execVsel f s)
  | .vadds f => some (execVadds f s)
  | .vsubs f => some (execVsubs f s)
  | .vmulh f => some (execVmulh f s)
  | .vcvt f => some (execVcvt f s)
  | .vbcast f => some (execVbcast f s)
  | .vperm f => some (execVperm f s)
  | .vrot f => some (execVrot f s)
  | .vzip f => some (execVzip f s)
  | .vunzip f => some (execVunzip f s)
  | .vrsum f => some (execVrsum f s)
  | .vrmax f => some (execVrmax f s)
  | .vrmin f => some (execVrmin f s)
  | .vscan f => some (execVscan f s)
  | .vqnt f => some (execVqnt f s)
  | .vdqnt f => some (execVdqnt f s)
  | .vbscale f => some (execVbscale f s)
  | .vmovx f => some (execVmovx f s)
  | .vins f => some (execVins f s)
  | .vpack f => some (execVpack f s)
  | _ => none

/-- The row on whose registers a routine runs. -/
def routineRow : Nat := 2 ^ 62

/-- The thread of a routine. -/
def routineThread : Thread :=
  { (default : Thread) with id := 0, row := routineRow, va := .ofNat 64 routineRow, exec := .service, place := 0, slot := some 0 }

/-- The state at the start of a run (R355): v0 the line, x1 its offset, x2 and x3 the operands. -/
def routineStart (line : Line) (off b c : Word) : State :=
  let s := { State.reset with threads := [routineThread], cur := some 0, tags := [(routineRow, .fixed)] }
  (((s.setV routineRow 0 line).setX routineRow 1 off).setX routineRow 2 b).setX routineRow 3 c

/-- The word of a routine at an instruction address relative to the image. -/
def routineWord (body : List Line) (pc : Word) : Option IWord :=
  let n := pcIndex pc
  (body[n / 5]?).map fun l => slotWord l (n % 5)

/-- The run of a routine with a number of cycles left (R355): the state at its first RET that finds RSP = 0; none where it reaches its
bound, or meets what a routine never does, a fault or a wait. -/
def runRoutine (body : List Line) : Nat → Nat → State → Option State
  | 0, _, _ => none
  | n + 1, left, s =>
    match s.thread? 0 with
    | none => none
    | some th => match routineWord body th.ip with
      | none => none
      | some w => match decode w with
        | .error _ => none
        | .ok (g, i) =>
          let cost := max 1 (Config.routineCycles (bitsAt w.toNat 86 10))
          if left < cost then none
          else
            let go := s.getP th.row g.pred.val != g.neg
            let isEnd := (match i with
              | .ret _ => true
              | _ => false) && s.rsp th.row == 0
            if go && isEnd then some s
            else
              let out := if go then routineExec i s else some (.next (s.finishIssue th .next))
              match out with
              | some (.next s') => (match s'.thread? 0 with
                | some th' =>
                  if th'.closing.isSome || th'.stall.isSome then none else runRoutine body n (left - cost) { s' with touched := [], hist := [] }
                | none => none)
              | _ => none

/-- The result of a run that reaches its bound (R355). -/
def routineOverrun : Word := 0x8000000000000000

/-- A routine on a line (R192, R355): the line it leaves, when it rewrites it, and the result. -/
def shipped (r : Routine) (line : Line) (off b c : Word) : Option Line × Word :=
  match runRoutine r.bodyLines r.bound r.bound (routineStart line off b c) with
  | none => (none, routineOverrun)
  | some s => (some (s.getV routineRow 0), s.getX routineRow 4)

namespace State

/-- The move of an FSHIP on its line (R83, R192): the state and the result; none on an uncorrectable error. -/
def doShip (s : State) (id a : Nat) (b c : Word) (bound : Nat) (body : List Line) : Option (State × Word) :=
  let l := lineOf a
  if s.poisoned l 64 then none else
    let (line, x) := shipped ⟨1, bound, body⟩ (leLine (s.newest l 64)) (.ofNat 64 (a % 64)) b c
    some (match line with
      | some v => ((s.landStore (some id) l (lineToBytes v) .plain).viewNewest id l).noteWrote id l
      | none => s.viewNewest id l, x)

/-- The APPLY of an FSHIP at the head of a row's outside queue (R76, R176, R192): performed whole, and the issuer is answered. -/
def applyShip (s : State) (id : Nat) : State :=
  match s.thread? id with
  | none => s
  | some th => match th.oq with
    | .fship src a b c bound body :: rest =>
      let s := (s.showClose th).doomGroups
      let s : State := { s with touched := [] }
      let s := s.updThread id fun t => { t with oq := rest, oqAt := t.oqAt.drop 1, appliedSince := true }
      (match s.doShip src.id a b c bound body with
       | none => s.answer src a (.fault a .datapoison)
       | some (s, x) => (s.countFor src.id a true).answer src a (.data a (wordBytes x)))
    | _ => s

end State

/-- FSHIP (R83, R192); one in progress runs the routine that it began with (R355). -/
def execFship (f : FA) (s : State) : Host.Outcome State Fault Refusal := asInstr (do
  let a ← Exec.readX (xnum f.a)
  let b ← Exec.readX (xnum f.b)
  let c ← Exec.readX (xnum f.c)
  Exec.require (a.toNat % 8 == 0) .align a
  Exec.sbEmpty
  let (dp, own) ← Exec.plainAddr a .rmw 2
  let s ← get
  let th ← Exec.me
  Exec.require (s.region dp == .dram) .protect a
  let x ← (do
    match (← Exec.answered dp) with
    | some (.data _ bs) => return leWord bs
    | some (.fault _ e) => Exec.fault e a
    | _ =>
      let r : Routine := ((s.tenant? (s.tenantOf th.row)).bind fun t => assoc t.routines f.md.toNat).getD ⟨0, 0, []⟩
      Exec.require (r.status == 1) .illegal
      if ! own then Exec.checkHold dp a
      if ! own && Exec.openOther s th dp then
        Exec.ask dp fun s => Exec.queueOn dp (.fship th.asker dp b c r.bound r.bodyLines) (s.noteBankWindow th a.toNat dp)
      else
        if ! own then do
          Exec.reachRow dp true
          modify fun s => (s.noteBankWindow th a.toNat dp).countWindow (s.tenantOf th.row) dp true
        let s ← get
        match s.doShip th.id dp b c r.bound r.bodyLines with
        | none => Exec.fault .datapoison a
        | some (s, x) => do
          set s
          return x)
  Exec.writeX (xnum f.d) x
  return .next) s

end Sys2Proof.Machine
end

