-- ==== Sys2Proof/Machine/Matrix.lean ====
section
/-!
DEFINITION. Class 0x8: accumulators and their restore (R230 to R236), products (R240 to R244), scaling (R245), loads and stores of
accumulators (R246), sparse tiles (R247 to R250) and the request of a walk (R251).
-/
namespace Sys2Proof.Machine

/-- An accumulator has an instruction in flight (R255). -/
def accInFlight (th : Thread) (k : Nat) : Bool := th.matrix.any fun m => m.results.any fun r => r.1 == k

/-- A matrix instruction can issue: its island is ON (R33), fewer than 8 are outstanding, and none in flight names its accumulators
(R255). -/
def matrixReady (ks : List Nat) : Exec Unit := do
  let s ← get
  let th ← Exec.me
  let island := 2 * th.die + 1
  if ! s.islandOn island then Exec.stall 8 th.die (.island island)
  if 8 ≤ th.matrix.length then Exec.stall 0xC 0 .matrix
  if ks.any (accInFlight th) then Exec.stall 0xC 0 .matrix

/-- An accumulator that an instruction reads is DEFINED (R230). -/
def accDefined (k : Nat) : Exec Unit := do
  let s ← get
  let row ← Exec.myRow
  Exec.require (s.accStatus row k == 1) .accfault

/-- The bound accumulators of a cluster with their threads (R231). -/
def boundTiles (s : State) (cluster : Nat) : List (Thread × Nat) :=
  (s.threads.filter fun t => t.exec == .tile && t.cluster == cluster).flatMap fun t =>
    ((List.range 4).filter fun k => (t.acc k).bound).map fun k => (t, k)

/-- The least recently used bound accumulator of a cluster with no instruction in flight (R231). -/
def leastRecent (s : State) (cluster : Nat) : Option (Thread × Nat) :=
  (boundTiles s cluster).foldl (fun (best : Option (Thread × Nat)) p =>
    if accInFlight p.1 p.2 then best else match best with
      | none => some p
      | some b => if (p.1.acc p.2).used < (b.1.acc b.2).used then some p else best) none

/-- A physical tile is taken from an accumulator, whose owner's accumulators are written back first where one of them has a line to write back (R231,
R235). Where every tile has an instruction in flight none is taken, and the binding goes on beyond 32 (DESIGN CHOICE, log entry 119). -/
def takeTile (s : State) (cluster : Nat) : Option State :=
  match leastRecent s cluster with
  | none => some s
  | some (t, k) => (s.writeBack t false).map fun s => s.updThread t.id fun t => t.setAcc k (t.acc k).unbind

/-- An accumulator of the thread at issue has a physical tile (R231), or the instruction waits for the write-back's page. -/
def bindTile (k : Nat) : Exec Unit := do
  let s ← get
  let th ← Exec.me
  if (th.acc k).bound || (boundTiles s th.cluster).length < 32 then pure ()
  else match takeTile s th.cluster with
    | some s => set s
    | none => match leastRecent s th.cluster with
      | some (t, _) => Exec.hold 7 0 .reply fun s => s.postWriteBackMisses t
      | none => pure ()

/-- A line of an accumulator as its save area gives it (R234, R236). -/
def restoreLine (base : Word) (k j code : Nat) : Exec Line := do
  match code with
  | 0 => return 0
  | 1 =>
    let bs ← Exec.load (wordAdd base (0x200 + 0x100 * k + 4 * j)) 4
    return leLine (List.replicate 16 bs).flatten
  | 2 => do return leLine (← Exec.load (wordAdd base (0x800 + 0x1000 * k + 64 * j)) 64)
  | _ => Exec.fault .accfault

/-- A restore that waits for the translation service: what it waits for is marked, since an answer of no mapping makes the accumulator
LOST (R236). -/
def restoring {α : Type} (k : Nat) (m : Exec α) : Exec α := fun s =>
  match m s with
  | .error (.hold wk wa (.translation _ _ va) f u) => .error (.hold wk wa (.restore k va) f u)
  | r => r

/-- The first page of the save area that a write-back misses on. -/
def firstMiss (s : State) (th : Thread) : Word :=
  ((s.writeBackStores th).findSome? fun p =>
    (lineParts ((s.asave th.row).toNat + p.1) p.2.length).findSome? fun q =>
      if s.check th (.ofNat 64 q.1) .write = .miss then some (BitVec.ofNat 64 q.1) else none).getD 0

/-- The restore of an accumulator as loads of the thread (R236). A save area that does not show it as DEFINED makes it LOST, though the table of
R230 lists such a restore as one to NONE (DEDUCED, log entry 110). The area's address is ASAVE whole (log entry 103). -/
def restoreAcc (k : Nat) : Exec Acc := restoring k do
  let s ← get
  let row ← Exec.myRow
  let base := s.asave row
  Exec.mapFault (do
    let w := leWord (← Exec.load base 8)
    Exec.require (field w 16 16 == field (s.astat row) 16 16 && field w (2 * k) 2 == 1) .accfault
    let cw := leNat (← Exec.load (wordAdd base (0x40 + 0x10 * k)) 16)
    let codes := (List.range 64).map fun j => bitsAt cw (2 * j) 2
    let ls ← (List.range 64).mapM fun j => restoreLine base k j (codes.getD j 0)
    return ⟨true, ls, List.replicate 64 .saved, codes, 0⟩)
    fun _ _ notes => .fault .accfault 0 (notes ++ [.accLost k])

/-- The contents of a DEFINED accumulator, bound and restored where it must be (R231, R236), with its use noted. -/
def readAcc (k : Nat) : Exec Acc := do
  bindTile k
  let th ← Exec.me
  let a ← if (th.acc k).bound then pure (th.acc k) else restoreAcc k
  let s ← get
  let a := { a with used := s.nextId }
  set ({ s with nextId := s.nextId + 1 }.updThread th.id fun t => t.setAcc k a)
  return a

/-- A matrix instruction's results are in its arithmetic phase (R255). -/
def inArithmetic (rs : List (Nat × Acc)) : Exec Unit := do
  let th ← Exec.me
  modify fun s => s.updThread th.id fun t => { t with matrix := t.matrix ++ [⟨rs⟩] }

/-- The value of element k of a packed row (R197). -/
def rowElem (t : ElemType) (bs : List Byte) (k : Nat) : Rl := elemValue t (leNat ((bs.drop (k * t.bytes)).take t.bytes))

/-- ChunkSum (R240): the sum of the exact products of a chunk, rounded once. -/
def chunkSum (ps : List Rl) : Nat := (Rl.sum ps).rne .f32

/-- AccAdd (R240). -/
def accAdd (c s : Nat) : Nat := ((f32 c).add (f32 s)).rne .f32

/-- The chunks of one element of a product added in ascending order (R240, R241). -/
def addChunks (c : Nat) (len : Nat) (prod : Nat → Option Rl) : Nat → Nat → Nat
  | 0, _ => c
  | n + 1, q => addChunks (accAdd c (chunkSum ((List.range len).filterMap fun k => prod (len * q + k)))) len prod n (q + 1)

/-- The base alignment of a product's operands (R241). -/
def operandAlign (t : ElemType) : Nat := if t.bytes = 1 ∧ t ≠ .e2m1 then 32 else 64

/-- Every element of an accumulator after a product: a row not present is left unchanged. -/
def productAcc (a : Acc) (present : Nat → Bool) (len chunks : Nat) (prod : Nat → Nat → Nat → Option Rl) : Acc :=
  a.ofElems fun i j => if present i then addChunks (a.elem i j) len (prod i j) chunks 0 else a.elem i j

/-- The code at (r, j) of a block record whose rows have a number of bytes (R201). -/
def blockCode (rec_ : List Byte) (rowBytes r j : Nat) : Nat :=
  (rec_.getD (rowBytes * r + j / 2) 0).toNat / 16 ^ (j % 2) % 16

/-- The value at (r, j) of a block record, with its X in force (R200, R201). -/
def blockValue (rec_ : List Byte) (rowBytes codes r j : Nat) : Rl :=
  e2m1Value (some (rec_.getD codes 0).toNat) (blockCode rec_ rowBytes r j)

/-- M.MMA on E2M1 block records (R241): one slab of 32 values of k, or of 16 with q16. -/
def mmaBlocks (f : FX) (k : Nat) (a b : Word) : Exec Flow := do
  let acc ← readAcc k
  if f.md = 32 then
    let as ← (List.range 2).mapM fun i => Exec.loadLines (wordAdd a (192 * i)) 192
    let bs ← (List.range 2).mapM fun i => Exec.loadLines (wordAdd b (192 * i)) 192
    inArithmetic [(k, productAcc acc (fun _ => true) 16 1 fun i j n =>
      some ((blockValue (as.getD (i / 16) []) 8 128 (i % 16) n).mul (blockValue (bs.getD (j / 16) []) 8 128 (j % 16) n)))]
  else
    let ra ← Exec.loadLines a 576
    let rb ← Exec.loadLines b 576
    inArithmetic [(k, productAcc acc (fun _ => true) 32 1 fun i j n =>
      some ((blockValue ra 16 512 i n).mul (blockValue rb 16 512 j n)))]
  return .next

/-- M.MMA (R241). -/
def execMMma (f : FX) (s : State) : Host.Outcome State Fault Refusal := asInstr (do
  let k := anum f.d
  matrixReady [k]
  let a ← Exec.readX (xnum f.a)
  let b ← Exec.readX (xnum f.b)
  Exec.require (a.toNat % operandAlign f.tya == 0) .align a
  Exec.require (b.toNat % operandAlign f.tya == 0) .align b
  accDefined k
  if f.tya = .e2m1 then mmaBlocks f k a b
  else
    let nk := f.imm.toNat
    let len := 32 * nk * f.tya.bytes
    let acc ← readAcc k
    let as ← (List.range 32).mapM fun i => Exec.loadLines (wordAdd a (i * strideOf f.md len)) len
    let bs ← (List.range 32).mapM fun j => Exec.loadLines (wordAdd b (j * len)) len
    inArithmetic [(k, productAcc acc (fun _ => true) 32 nk fun i j n =>
      some ((rowElem f.tya (as.getD i []) n).mul (rowElem f.tyb (bs.getD j []) n)))]
    return .next) s

/-- Idx(i) of an index vector pair (R242). -/
def gatherIndex (lo hi : Line) (i : Nat) : Nat := if i < 16 then lane lo 32 i else lane hi 32 (i - 16)

/-- The rows of an index vector: none for an absent one (R242). -/
def gatherRows (f : FX) (a : Word) (len : Nat) : Exec (List (Option (List Byte))) := do
  let lo ← Exec.readV (vnum f.c)
  let hi ← Exec.readV (vnum f.c + 1)
  (List.range 32).mapM fun i => do
    let x := gatherIndex lo hi i
    if x ≥ 2 ^ 31 then return none
    else do return some (← Exec.loadLines (wordAdd a (x * strideOf f.md len)) len)

/-- M.MMAG (R242). -/
def execMMmag (f : FX) (s : State) : Host.Outcome State Fault Refusal := asInstr (do
  let k := anum f.d
  matrixReady [k]
  let a ← Exec.readX (xnum f.a)
  let b ← Exec.readX (xnum f.b)
  Exec.require (a.toNat % operandAlign f.tya == 0) .align a
  Exec.require (b.toNat % operandAlign f.tya == 0) .align b
  accDefined k
  let nk := f.imm.toNat
  let len := 32 * nk * f.tya.bytes
  let acc ← readAcc k
  let as ← gatherRows f a len
  let bs ← (List.range 32).mapM fun j => Exec.loadLines (wordAdd b (j * len)) len
  inArithmetic [(k, productAcc acc (fun i => ((as.getD i none)).isSome) 32 nk fun i j n =>
    some ((rowElem f.tya ((as.getD i none).getD []) n).mul (rowElem f.tyb (bs.getD j []) n)))]
  return .next) s

/-- No stored row of M.GATH spans a 2 KiB boundary (R167, R243). -/
def rowsInBlock (d : Word) (len : Nat) : Exec Unit := do
  for i in List.range 32 do
    Exec.inBlock (wordAdd d (i * len)) len

/-- The stores of M.GATH: an absent row is zero (R243). -/
def storeRows (d : Word) (len : Nat) (rows : List (Option (List Byte))) : Exec Unit := do
  for i in List.range 32 do
    Exec.store (wordAdd d (i * len)) ((rows.getD i none).getD (List.replicate len 0))

/-- M.GATH (R243): every read precedes every store. -/
def execMGath (f : FX) (s : State) : Host.Outcome State Fault Refusal := asInstr (do
  matrixReady []
  let a ← Exec.readX (xnum f.a)
  let d ← Exec.readX (xnum f.d)
  Exec.require (a.toNat % operandAlign f.tya == 0) .align a
  let len := 32 * f.imm.toNat * f.tya.bytes
  rowsInBlock d len
  let rows ← gatherRows f a len
  storeRows d len rows
  return .next) s

/-- nk, nb and nr of M.MVS (R238). -/
def mvsCounts (f : FX) : Nat × Nat × Nat :=
  (bitsAt f.imm.toNat 0 6 + 1, bitsAt f.imm.toNat 6 3 + 1, bitsAt f.imm.toNat 9 5 + 1)

/-- The resident batch of M.MVS (R244): read at the first issue, and again when the instruction issues after a stall or a close. -/
def mvsBatch (b : Word) (nb len : Nat) : Exec (List (List Byte)) := do
  let th ← Exec.me
  let lines := nb * len / 64
  let held := th.staged.length = lines
  let bs ← if held then pure (th.staged.flatMap lineToBytes) else Exec.loadLines b (nb * len)
  if ! held then
    modify fun s => s.updThread th.id fun t =>
      { t with staged := (List.range lines).map fun i => leLine ((bs.drop (64 * i)).take 64) }
  return (List.range nb).map fun t => (bs.drop (t * len)).take len

/-- M.MVS (R244): one weight row a move; a counter in another thread's open row is moved at the APPLY of that row's queue (R69). -/
def execMMvs (f : FX) (s : State) : Host.Outcome State Fault Refusal := asInstr (do
  let k := anum f.d
  matrixReady [k]
  let (nk, nb, nr) := mvsCounts f
  let len := 32 * nk * f.tya.bytes
  let b ← Exec.readX (xnum f.b)
  let c ← Exec.readX (xnum f.c)
  Exec.require (b.toNat % 64 == 0) .align b
  if f.c ≠ .x 0 then Exec.require (c.toNat % 16 == 0) .align c
  accDefined k
  let counter ← if f.c = .x 0 then pure none else do pure (some (← Exec.counterAddr c))
  match counter with
  | some dp => Exec.reachRow dp true
  | none => pure ()
  let acc ← readAcc k
  let batch ← mvsBatch b nb len
  let ws ← (List.range (len / 64)).mapM fun _ => Exec.vsrc f.a 8
  let w := ws.flatMap lineToBytes
  let row ← Exec.myRow
  let r := (← get).prog row
  let acc' := acc.ofElems fun i j =>
    if i = r ∧ j < nb then
      addChunks (acc.elem i j) 32 (fun n => some ((rowElem f.tya w n).mul (rowElem f.tyb (batch.getD j []) n))) nk 0
    else acc.elem i j
  let th ← Exec.me
  modify fun s => s.updThread th.id fun t => t.setAcc k acc'
  if r = 0 ∧ bitsAt f.imm.toNat 14 1 = 1 then modify fun s => s.setAccStatus row k 1 true
  if r + 1 < nr then
    modify fun s => s.setCtrl row 0 32 32 (r + 1)
    return .again
  else
    modify fun s =>
      let s := (s.setCtrl row 0 32 32 0).updThread th.id fun t => { t with staged := [] }
      match counter with
      | some dp => if Exec.openOther s th dp then Exec.queueOn dp (.count th.id dp nr) s else s.counterMove dp nr []
      | none => s
    return .next) s

/-- M.SACC (R245). -/
def execMSacc (f : FX) (s : State) : Host.Outcome State Fault Refusal := asInstr (do
  let kd := anum f.d
  let ks := anum f.a
  matrixReady [kd, ks]
  accDefined kd
  accDefined ks
  let x ← Exec.readX (xnum f.b)
  let src ← readAcc ks
  let dst ← readAcc kd
  let q := f.md.toNat % 2 = 1
  let byte (n : Nat) : Nat := field x (8 * n) 8
  let out := dst.ofElems fun i j =>
    let ea := byte (if q then i / 16 else 0)
    let eb := byte (2 + if q then j / 16 else 0)
    if ea = 255 ∨ eb = 255 then FloatFmt.nan .f32
    else ((f32 (dst.elem i j)).add ((f32 (src.elem i j)).scale ((ea : Int) + eb - 254))).rne .f32
  let row ← Exec.myRow
  let s ← get
  let inc := s.accInc row kd || s.accInc row ks
  modify fun s => s.setAccStatus row kd 1 inc
  if f.md.toNat / 2 % 2 = 1 then
    modify fun s => s.setAccStatus row ks 1 false
    inArithmetic [(kd, out), (ks, src.ofElems fun _ _ => 0)]
  else inArithmetic (if kd = ks then [(kd, out)] else [(kd, out), (ks, src)])
  return .next) s

/-- The check of ASAVE when no accumulator has contents yet (R232). -/
def firstDefine : Exec Unit := do
  let s ← get
  let row ← Exec.myRow
  if field (s.astat row) 0 8 = 0 then Exec.require (State.asaveOk (s.asave row)) .accfault

/-- An accumulator that an instruction names is restored in the read phase when it is DEFINED and has no physical tile (R236). -/
def nameAcc (k : Nat) : Exec Unit := do
  let s ← get
  let th ← Exec.me
  if s.accStatus th.row k = 1 ∧ ! (th.acc k).bound then discard (readAcc k)

/-- An accumulator becomes DEFINED with contents and INC 0. -/
def defineAcc (k : Nat) (a : Acc) : Exec Unit := do
  bindTile k
  let row ← Exec.myRow
  let th ← Exec.me
  let s ← get
  let s := s.setAccStatus row k 1 false
  set ({ s with nextId := s.nextId + 1 }.updThread th.id fun t => t.setAcc k { a with used := s.nextId })
  inArithmetic [(k, { a with used := s.nextId })]

/-- M.ZERO (R246). -/
def execMZero (f : FX) (s : State) : Host.Outcome State Fault Refusal := asInstr (do
  let k := anum f.d
  matrixReady [k]
  firstDefine
  nameAcc k
  defineAcc k Acc.zero
  return .next) s

/-- The FP32 bits of element j of a loaded row, BF16 widened exactly (R246). -/
def loadedElem (bf : Bool) (bs : List Byte) (j : Nat) : Nat :=
  if bf then leNat ((bs.drop (2 * j)).take 2) * 2 ^ 16 else leNat ((bs.drop (4 * j)).take 4)

/-- M.LDACC (R246). -/
def execMLdacc (f : FX) (s : State) : Host.Outcome State Fault Refusal := asInstr (do
  let k := anum f.d
  matrixReady [k]
  let a ← Exec.readX (xnum f.a)
  let bf := f.md.toNat / 32 % 2 = 1
  let add := f.md.toNat / 64 % 2 = 1
  let len := if bf then 64 else 128
  Exec.require (a.toNat % 64 == 0) .align a
  if add then accDefined k
  else do
    firstDefine
    nameAcc k
  let rows ← (List.range 32).mapM fun i => Exec.loadLines (wordAdd a (i * strideOf f.md len)) len
  if add then
    let acc ← readAcc k
    let row ← Exec.myRow
    modify fun s => s.setAccStatus row k 1 false
    inArithmetic [(k, acc.ofElems fun i j => accAdd (acc.elem i j) (loadedElem bf (rows.getD i []) j))]
  else
    let th ← Exec.me
    defineAcc k ((th.acc k).ofElems fun i j => loadedElem bf (rows.getD i []) j)
  return .next) s

/-- The bytes of a stored row (R246): FP32, or BF16 rounded. -/
def storedRow (bf : Bool) (a : Acc) (i : Nat) : List Byte :=
  (List.range 32).flatMap fun j => if bf then leBytes 2 ((f32 (a.elem i j)).rne .bf16) else leBytes 4 (a.elem i j)

/-- The stores of an accumulator's rows, line by line (R246). -/
def storeAcc (bf : Bool) (a : Word) (stride len : Nat) (acc : Acc) : Exec Unit := do
  for i in List.range 32 do
    let bs := storedRow bf acc i
    for o in List.range (len / 64) do
      Exec.store (wordAdd a (i * stride + 64 * o)) ((bs.drop (64 * o)).take 64)

/-- M.STACC (R246): plain stores. -/
def execMStacc (f : FX) (s : State) : Host.Outcome State Fault Refusal := asInstr (do
  let k := anum f.b
  matrixReady [k]
  let a ← Exec.readX (xnum f.a)
  let bf := f.md.toNat / 32 % 2 = 1
  let len := if bf then 64 else 128
  Exec.require (a.toNat % 64 == 0) .align a
  accDefined k
  let row ← Exec.myRow
  Exec.require (! (← get).accInc row k || f.md.toNat / 64 % 2 == 1) .accfault
  let acc ← readAcc k
  storeAcc bf a (strideOf f.md len) len acc
  return .next) s

/-- M.DRAIN (R246). An accumulator that `.rel` makes NONE has INC 0 (DESIGN CHOICE, log entry 120). -/
def execMDrain (f : FX) (s : State) : Host.Outcome State Fault Refusal := asInstr (do
  matrixReady []
  let th ← Exec.me
  if th.matrix ≠ [] then Exec.stall 0xC 0 .matrix
  if f.md.toNat / 2 % 2 = 1 then nameAcc (anum f.d)
  let th ← Exec.me
  if f.md.toNat % 2 = 1 then
    let s ← get
    match s.writeBack th false with
    | some s => set s
    | none => Exec.hold 7 0 (.translation (th.unit.getD 0) (s.asidOf th.row) (firstMiss s th)) fun s => s.postWriteBackMisses th
  if f.md.toNat / 2 % 2 = 1 then
    let k := anum f.d
    modify fun s => (s.setAccStatus th.row k 0 false).updThread th.id fun t => t.setAcc k Acc.none
  return .next) s

/-- A directory entry (R247): KIND, EST, RMASK, DATA, WROW and WPC, with its tile word. -/
structure TileEntry where
  word : Word
  kind : Nat
  est : Nat
  rmask : Nat
  data : Word
  wrow : Word
  wpc : Word

/-- The directory entry read as loads (R249): poison and a reserved KIND are metadata errors. -/
def readEntry (a : Word) : Exec TileEntry := do
  let bs ← Exec.mapFault (Exec.load a 32) fun c d notes => .fault (if c = .datapoison then .metapoison else c) d notes
  let w (i : Nat) : Word := leWord ((bs.drop (8 * i)).take 8)
  Exec.require (field (w 0) 0 2 != 3) .metapoison a
  return ⟨w 0, field (w 0) 0 2, field (w 0) 2 11, field (w 0) 16 32, .ofNat 64 (field (w 1) 0 56), w 2, w 3⟩

/-- The stored rows of a KIND 0 or KIND 1 tile (R247): row numbers and bytes. -/
def tileRows (e : TileEntry) (t : ElemType) : Exec (List (Nat × List Byte)) := do
  let rs := (List.range 32).filter fun i => e.kind == 0 || bitsAt e.rmask i 1 == 1
  (List.range rs.length).mapM fun p => do
    let bs ← Exec.loadLines (wordAdd e.data (p * 32 * t.bytes)) (32 * t.bytes)
    return (rs.getD p 0, bs)

/-- The walker record of a cluster. -/
def State.skink (s : State) (c : Nat) : Skink := (s.skinks.find? (·.cluster == c)).getD ⟨c, none, [], 0, [], [], []⟩

/-- The state with a walker's record set. -/
def State.setSkink (s : State) (k : Skink) : State := { s with skinks := k :: s.skinks.filter (·.cluster != k.cluster) }

/-- The walker row that an entry names (R251): a FIXED row of the issuer's tenant in a tile of its cluster. Its address is translated and checked as a
read by the issuer, and one that fails the check gives PROTECT too (DESIGN CHOICE, log entry 121). -/
def walkerRow (e : TileEntry) : Exec Thread := do
  let s ← get
  let th ← Exec.me
  match s.check th e.wrow .read with
  | .miss => Exec.missAt e.wrow .read
  | .ok dp =>
    match s.threadAt? dp, s.region dp with
    | some u, .tile t =>
      if s.tagOf dp = .fixed ∧ s.tenantOf dp = s.tenantOf th.row ∧ State.clusterOfTile t = th.cluster then pure u
      else Exec.fault .protect e.wrow
    | _, _ => Exec.fault .protect e.wrow
  | _ => Exec.fault .protect e.wrow

/-- The rows that a walk emits (R251 to R253): the request is queued, and the instruction waits for the walk's end. -/
def walkedRows (e : TileEntry) (addr : Word) (t : ElemType) : Exec (List (Nat × Nat × List Byte)) := do
  let s ← get
  let th ← Exec.me
  let k := s.skink th.cluster
  match k.ends.find? fun x => x.1 == th.id with
  | some (_, .rows rs) =>
    set (s.setSkink { k with ends := k.ends.filter (·.1 != th.id) })
    return rs
  | some (_, .fault c) =>
    set (s.setSkink { k with ends := k.ends.filter (·.1 != th.id) })
    throw (.fault c e.wrow [.walkEnded])
  | none =>
    if (k.cur.any fun q => q.thread == th.id) || k.queue.any fun q => q.thread == th.id then Exec.stall 0xC 0 .walk
    let u ← walkerRow e
    let s ← get
    if u.exec = .walker ∨ s.logical u = 1 then
      Exec.hold 0xC 0 .walk fun s => s.setSkink { k with queue := k.queue ++ [⟨th.id, u.row, e.data, addr, t, e.wpc⟩] }
    else if s.logical u = 5 then
      Exec.fault ((Cause.ofCode (s.ctrlField u.row 3 0 8)).getD .protect) e.wrow
    else Exec.fault .protect e.wrow

/-- M.SPMM (R248, R249). -/
def execMSpmm (f : FX) (s : State) : Host.Outcome State Fault Refusal := asInstr (do
  let k := anum f.d
  matrixReady [k]
  let a ← Exec.readX (xnum f.a)
  let b ← Exec.readX (xnum f.b)
  Exec.require (a.toNat % 32 == 0) .align a
  Exec.require (b.toNat % operandAlign f.tya == 0) .align b
  accDefined k
  let e ← readEntry a
  let len := 32 * f.tya.bytes
  let rows ← if e.kind = 2 then walkedRows e a f.tya
    else pure ((← tileRows e f.tya).map fun p => (p.1, 2 ^ 32 - 1, p.2))
  let ended (c : Cause) (d : Word) (notes : List Note) : Stop := .fault c d (if e.kind = 2 then notes ++ [.walkEnded] else notes)
  let acc ← Exec.mapFault (readAcc k) ended
  let bs ← Exec.mapFault ((List.range 32).mapM fun j => Exec.loadLines (wordAdd b (j * len)) len) ended
  let rowAt (i : Nat) := rows.find? fun p => p.1 == i
  inArithmetic [(k, productAcc acc (fun i => (rowAt i).isSome) 32 1 fun i j n =>
    match rowAt i with
    | some (_, mask, ra) =>
      if bitsAt mask n 1 = 1 then some ((rowElem f.tya ra n).mul (rowElem f.tyb (bs.getD j []) n)) else none
    | none => none)]
  return .next) s

/-- M.TDIR (R250). -/
def execMTdir (f : FX) (s : State) : Host.Outcome State Fault Refusal := asInstr (do
  matrixReady []
  let a ← Exec.readX (xnum f.a)
  Exec.require (a.toNat % 32 == 0) .align a
  let e ← readEntry a
  if e.kind = 2 then Exec.writeX (xnum f.d) (.ofNat 64 e.est)
  else
    let rows ← tileRows e f.tya
    let n := (rows.flatMap fun p => (List.range 32).filter fun k => ! (rowElem f.tya p.2 k).isZero).length
    Exec.writeX (xnum f.d) (.ofNat 64 n)
    Exec.store a (wordBytes (setField e.word 2 11 n))
  return .next) s

end Sys2Proof.Machine
end

