-- ==== Sys2Proof/Machine/MemoryAccess.lean ====
section
/-!
DEFINITION. Classes 0x4 and 0x5 but for FSHIP: loads and stores (R174, R175), full/empty accesses (R182), stream slots (R180), PREF
(R193), GET and PUT (R184), CCRD (R188), atomics (R190).
-/
namespace Sys2Proof.Machine

/-- The bytes of a size code (R50). -/
def sizeBytes (sz : BitVec 3) : Nat := if sz = 5 then 64 else 2 ^ sz.toNat

/-- LD (R174): zero-extended. -/
def execLd (f : FM) (s : State) : Host.Outcome State Fault Refusal := asInstr (do
  let bs ← Exec.load (← Exec.ea f) (sizeBytes f.sz) (f.od == 1)
  Exec.writeX (xnum f.t) (leWord bs)
  return .next) s

/-- LDS (R174): sign-extended. -/
def execLds (f : FM) (s : State) : Host.Outcome State Fault Refusal := asInstr (do
  let bs ← Exec.load (← Exec.ea f) (sizeBytes f.sz) (f.od == 1)
  Exec.writeX (xnum f.t) (wordOfInt (signed (8 * sizeBytes f.sz) (leNat bs)))
  return .next) s

/-- ST (R174). -/
def execSt (f : FM) (s : State) : Host.Outcome State Fault Refusal := asInstr (do
  let x ← Exec.readX (xnum f.t)
  Exec.store (← Exec.ea f) (leBytes (sizeBytes f.sz) x.toNat)
  return .next) s

/-- LDV (R174): the bytes above the access are zero. -/
def execLdv (f : FM) (s : State) : Host.Outcome State Fault Refusal := asInstr (do
  let bs ← Exec.load (← Exec.ea f) (sizeBytes f.sz) (f.od == 1)
  Exec.writeV (vnum f.t) (leLine bs)
  return .next) s

/-- STV (R174). -/
def execStv (f : FM) (s : State) : Host.Outcome State Fault Refusal := asInstr (do
  let v ← Exec.readV (vnum f.t)
  Exec.store (← Exec.ea f) (leBytes (sizeBytes f.sz) v.toNat)
  return .next) s

/-- The alignment of a full/empty access (R182): size 3 lies in one granule, sizes 4 and 5 are naturally aligned. -/
def granAligned (va : Word) (sz : BitVec 3) : Bool :=
  if sz = 3 then decide (va.toNat % granBytes + 8 ≤ granBytes) else va.toNat % sizeBytes sz == 0

/-- LDFE (R182). -/
def execLdfe (f : FM) (s : State) : Host.Outcome State Fault Refusal := asInstr (do
  let a ← Exec.ea f
  Exec.require (granAligned a f.sz) .align a
  let bs ← Exec.loadFE a (sizeBytes f.sz) (f.ql == 1)
  if f.sz = 3 then Exec.writeX (xnum f.t) (leWord bs) else Exec.writeV (vnum f.t) (leLine bs)
  return .next) s

/-- STFE (R182). -/
def execStfe (f : FM) (s : State) : Host.Outcome State Fault Refusal := asInstr (do
  let a ← Exec.ea f
  Exec.require (granAligned a f.sz) .align a
  let v ← Exec.readV (vnum f.t)
  Exec.storeFE a (leBytes (sizeBytes f.sz) v.toNat)
  return .next) s

/-- SETE (R182). -/
def execSete (f : FM) (s : State) : Host.Outcome State Fault Refusal := asInstr (do
  let a ← Exec.ea f
  Exec.require (granAligned a f.sz) .align a
  Exec.setFE a (sizeBytes f.sz) (f.ql == 1)
  return .next) s

/-- The slot number in ql (R180). -/
def slotNum (f : FM) : Nat := f.ql.toNat % 4

/-- The slot's line that SSET leaves from a descriptor (R180). -/
def slotFromDescriptor (d : List Byte) : List Byte :=
  let cfg := setField (leWord ((d.drop 0x30).take 8)) 10 1 0
  d.take 0x26 ++ List.replicate 10 0 ++ wordBytes cfg ++ List.replicate 8 0

/-- SSET (R180). -/
def execSset (f : FM) (s : State) : Host.Outcome State Fault Refusal := asInstr (do
  let a ← Exec.ea f
  Exec.require (a.toNat % lineBytes == 0) .align a
  let d ← Exec.load a 64
  let row ← Exec.myRow
  modify fun s => s.poke (State.slotAddr row (slotNum f)) (slotFromDescriptor d)
  return .next) s

/-- SRST (R180). -/
def execSrst (f : FM) (s : State) : Host.Outcome State Fault Refusal := asInstr (do
  let row ← Exec.myRow
  let n := slotNum f
  modify fun s => ((s.setCounts row n (List.replicate 5 0)).setDone row n false).setPos row n 0
  return .next) s

/-- The digits of a number in a mixed radix, least significant first. -/
def mixedDigits (ext : Nat → Nat) : Nat → Nat → Nat → List Nat
  | 0, _, _ => []
  | d + 1, k, p => p % ext k :: mixedDigits ext d (k + 1) (p / ext k)

/-- SPOS (R180). -/
def execSpos (f : FM) (s : State) : Host.Outcome State Fault Refusal := asInstr (do
  let row ← Exec.myRow
  let n := slotNum f
  let p ← Exec.readX (xnum f.t)
  let s ← get
  let d := s.slotDims row n
  let total := (List.range d).foldl (fun m k => m * s.slotExtent row n k) 1
  let inside := decide (p.toNat < total) || s.slotWrap row n
  let digits := if inside then mixedDigits (s.slotExtent row n) d 0 (p.toNat % total) else List.replicate d 0
  set (((s.setCounts row n (digits ++ List.replicate (5 - d) 0)).setDone row n (! inside)).setPos row n p)
  return .next) s

/-- The row that a PREF opens (R193): a DATA row of the executor's subarrays, its buffer FREE and with no claim that came before (R261), the
subarray not the thread's own. -/
def prefOpen (s : State) (th : Thread) (dp : Nat) : State :=
  match s.locate dp with
  | none => s
  | some l =>
    let own := (s.locate th.row).any fun r => r.subId == l.subId
    if th.exec ≠ .bank ∨ l.exec ≠ th.place ∨ own ∨ s.tagOf dp ≠ .data ∨ (s.subarray l.subId).buf ≠ .free ∨
      ! (s.subarray l.subId).claims.isEmpty then s else
      match s.activate l (.opened l.rown) (th.id + 1) with
      | .ok s => s
      | .wait _ _ => s

/-- PREF (R193): no effect beyond the row it opens; it never faults or waits, and a miss is posted. -/
def execPref (f : FM) (s : State) : Host.Outcome State Fault Refusal := asInstr (do
  let a ← Exec.ea f
  let th ← Exec.me
  modify fun s => match s.check th a .read with
    | .ok dp => prefOpen (s.noteBankWindow th a.toNat dp) th dp
    | .miss => s.postMiss th a .read true
    | .violation w => s.violateBy th 0 w
    | _ => s
  return .next) s

/-- The element size of GET and PUT (R173). -/
def elemSize (md : BitVec 8) : Nat :=
  match md.toNat % 4 with
  | 0 => 8 | 1 => 16 | 2 => 64 | _ => 256

/-- A thread has at most 16 one-sided operations outstanding (R184, R298). -/
def oneSidedRoom : Exec Unit := do
  let s ← get
  let th ← Exec.me
  if 16 ≤ (s.oneSided.filter (·.thread == th.id)).length then Exec.stall 6 0 .oneSided else pure ()

/-- The submission of GET and PUT (R184). -/
def submitElements (f : FA) (kind : OneSidedKind) : Exec Flow := do
  Exec.sbEmpty
  let es := elemSize f.md
  let d ← Exec.readX (xnum f.d)
  let a ← Exec.readX (xnum f.a)
  let b ← Exec.readX (xnum f.b)
  let c ← Exec.readX (xnum f.c)
  Exec.require (d.toNat % es == 0) .align d
  Exec.require (a.toNat % es == 0) .align a
  Exec.require (b.toNat % 8 == 0) .align b
  Exec.require (c.toNat % 16 == 0) .align c
  oneSidedRoom
  let hd ← Exec.load b 8
  let counter ← Exec.counterAddr c
  let s ← get
  let th ← Exec.me
  let o : OneSided :=
    { id := s.nextId, kind := kind, thread := th.id, asid := s.asidOf th.row, tenant := s.tenantOf th.row
      privl := s.privOf th.row, unit := th.ownerUnit, dst := d, src := a
      idx := if bitsAt f.md.toNat 2 1 = 1 then none else some b
      es := es, n := leNat (hd.take 4), counter := counter, taken := [], failed := [], wrote := [], probes := []
      idxs := [], region := [] }
  set ({ s with oneSided := s.oneSided ++ [o], nextId := s.nextId + 1 }.dropNoMapping (o.owner s))
  return .next

/-- GET (R184). -/
def execGet (f : FA) (s : State) : Host.Outcome State Fault Refusal := asInstr (submitElements f .get) s

/-- PUT (R184). -/
def execPut (f : FA) (s : State) : Host.Outcome State Fault Refusal := asInstr (submitElements f .put) s

/-- The move of CCRD on a counter in M (R188). -/
def countHere (dp need : Nat) (a : Word) : Exec Word := do
  let s ← get
  let th ← Exec.me
  if s.poisoned dp 8 then Exec.fault .datapoison a
  let w := s.word64 dp
  if field w 0 63 < need then Exec.stall 6 0 (.counter dp need)
  modify fun s => s.importCounted th.id dp
  return w

/-- CCRD (R188). In another thread's open row the counter is read through the outside queue, as a full/empty access is made there, and one that is
not enabled at its APPLY waits and joins it afresh: R176 names no form for CCRD (DESIGN CHOICE, log entry 97). -/
def execCcrd (f : FA) (s : State) : Host.Outcome State Fault Refusal := asInstr (do
  let a ← Exec.readX (xnum f.a)
  let b ← Exec.readX (xnum f.b)
  let need := b.toNat % 2 ^ 63
  Exec.require (a.toNat % 16 == 0) .align a
  let (dp, own) ← Exec.plainAddr a .read 0
  let s ← get
  let th ← Exec.me
  let w ← (do
    match (← Exec.answered dp) with
    | some (.data _ bs) => return leWord bs
    | some (.fault _ c) => Exec.fault c a
    | some (.notEnabled _) => Exec.hold 6 0 (.counter dp need) (Exec.forget th)
    | _ =>
      if own then countHere dp need a
      else
        Exec.checkHold dp a
        if Exec.openOther s th dp then
          Exec.ask dp fun s => Exec.queueOn dp (.ccrd th.asker dp need) (s.noteBankWindow th a.toNat dp)
        else
          Exec.reachRow dp false
          modify fun s => (s.noteBankWindow th a.toNat dp).countWindow (s.tenantOf th.row) dp false
          countHere dp need a)
  Exec.writeX (xnum f.d) w
  return .next) s

/-- An atomic and the old value in X(t) (R190). -/
def atomicFM (f : FM) (op : AtomOp) (w : Word) : Exec Flow := do
  let a ← Exec.ea f
  let v ← Exec.readX (xnum f.t)
  let n := sizeBytes f.sz
  let m := 2 ^ (8 * n)
  let old ← Exec.atomic op a n (.ofNat 64 (v.toNat % m)) (.ofNat 64 (w.toNat % m))
  Exec.writeX (xnum f.t) (wordOfInt (signed (8 * n) old))
  return .next

/-- AADD (R190). -/
def execAadd (f : FM) (s : State) : Host.Outcome State Fault Refusal := asInstr (atomicFM f .add 0) s

/-- AAND (R190). -/
def execAand (f : FM) (s : State) : Host.Outcome State Fault Refusal := asInstr (atomicFM f .and 0) s

/-- AOR (R190). -/
def execAor (f : FM) (s : State) : Host.Outcome State Fault Refusal := asInstr (atomicFM f .or 0) s

/-- AXOR (R190). -/
def execAxor (f : FM) (s : State) : Host.Outcome State Fault Refusal := asInstr (atomicFM f .xor 0) s

/-- AMIN (R190); ql 1 makes it unsigned. -/
def execAmin (f : FM) (s : State) : Host.Outcome State Fault Refusal :=
  asInstr (atomicFM f (if f.ql = 1 then .minu else .min) 0) s

/-- AMAX (R190); ql 1 makes it unsigned. -/
def execAmax (f : FM) (s : State) : Host.Outcome State Fault Refusal :=
  asInstr (atomicFM f (if f.ql = 1 then .maxu else .max) 0) s

/-- ASWP (R190). -/
def execAswp (f : FM) (s : State) : Host.Outcome State Fault Refusal := asInstr (atomicFM f .swap 0) s

/-- ACAS (R190): the new value is in X(t+1). -/
def execAcas (f : FM) (s : State) : Host.Outcome State Fault Refusal := asInstr (do
  let w ← Exec.readX (xnum f.t + 1)
  atomicFM f .cas w) s

/-- AFADD (R190): FP32, or BF16 with ql 1. -/
def execAfadd (f : FM) (s : State) : Host.Outcome State Fault Refusal :=
  asInstr (atomicFM f (if f.ql = 1 then .faddBf16 else .faddF32) 0) s

end Sys2Proof.Machine
end

