-- ==== Sys2Proof/Machine/Retrieval.lean ====
section
/-!
DEFINITION. Class 0xB: the retrieval instructions (R296 to R307), and HAPPLY (R302, R304).
-/
namespace Sys2Proof.Machine

/-- The descriptor as a load of the thread, checked (R296, steps 2 and 3); only its head for H.SIG (R288). -/
def hashDescriptor (va : Word) (last : Nat) (headOnly : Bool) : Exec HashCtx := do
  let bs ← Exec.loadLines va 128
  let w := (List.range 16).map fun k => leWord ((bs.drop (8 * k)).take 8)
  let h := hashDesc 0 w
  Exec.require (if headOnly then hashHeadOk (w.getD 0 0) h last else hashOk w h last) .hashcfg va
  return h

/-- The bytes of a table's range in one page, translated as a load is, in a bank-open window of the tenant, and with read and write permission of
the leaf, of the window and of every row that they lie in (R93; R296, step 4; R369): where the first of them lies. -/
def tablePage (lo hi : Nat) : Exec Nat := do
  let s ← get
  let th ← Exec.me
  let va : Word := .ofNat 64 lo
  let rows := ((List.range (pageBytes / rowBytes)).map fun i => rowOf lo + rowBytes * (i + 1)).filter (· < hi)
  let permitted : Bool := (lo :: rows).all fun a => match s.check th (.ofNat 64 a) .rmw with
    | .own _ | .ok _ => true
    | _ => false
  let place (dp : Nat) : Exec Nat := do
    match s.windowOf (s.tenantOf th.row) dp with
    | none => Exec.faultLogged .window va 0 (.ofNat 64 dp)
    | some w =>
      if windowSealed w then Exec.fault .sealed va
      else if s.region dp = .dram ∧ windowGrants w .rmw ∧ permitted = true then return dp
      else Exec.fault .protect va
  match s.check th va .read with
  | .own dp => place dp
  | .ok dp => (if s.region dp = .control then Exec.fault .protect va else place dp)
  | .miss => Exec.missAt va .read
  | .fault .pagefault => Exec.fault .pagefault va
  | .fault _ => Exec.fault .protect va
  | .remote _ => Exec.fault .protect va
  | .violation a =>
    if 2 ^ 63 ≤ a.toNat then Exec.fault .protect va else place a.toNat

/-- A hold entry of the issuer in state LOST names a row of a table's ranges (R296, step 5; R267). -/
def lostInTable (s : State) (th : Thread) (h : HashCtx) (desc : Word) : Option Nat :=
  if th.exec ≠ .bank then none else
    (List.range 8).find? fun k =>
      s.holdState th.row k == 3 &&
        (let l := th.place % 16384 / 256 + th.place % 256 / 16 * 2 ^ 6 + th.place % 16 * 2 ^ 10 + k * 2 ^ 14 +
           s.holdRow th.row k * 2 ^ 17
         match s.rowAtLoc (th.place / 16384) l with
         | none => false
         | some dp => h.pages.any fun p => p.2 == dp / pageBytes &&
             (let va := p.1 * pageBytes + dp % pageBytes
              ((desc.toNat, 128) :: h.ranges).any fun r => decide (r.1 < va + rowBytes ∧ va < r.1 + r.2)))

/-- The descriptor of an instruction that acts on a table, with its pages translated (R296, steps 2 to 4). -/
def hashPages (va : Word) (last : Nat) : Exec HashCtx := do
  let h ← hashDescriptor va last false
  let desc ← tablePage va.toNat (va.toNat + 128)
  let pages ← (((va.toNat, 128) :: h.ranges).flatMap fun r =>
      (List.range ((r.1 + r.2 - 1) / pageBytes - r.1 / pageBytes + 1)).map fun i => (r, r.1 / pageBytes + i)).mapM fun q => do
    let dp ← tablePage (max q.1.1 (q.2 * pageBytes)) (min (q.1.1 + q.1.2) ((q.2 + 1) * pageBytes))
    return (q.2, dp / pageBytes)
  return { h with desc := desc, descVa := va.toNat, pages := pages }

/-- No LOST hold entry of the issuer names a row of a table (R296, step 5). -/
def tableHeld (va : Word) (h : HashCtx) : Exec Unit := do
  let s ← get
  let th ← Exec.me
  match lostInTable s th h va with
  | some k => throw (.fault .holdlost va [.holdNone k])
  | none => pure ()

/-- The checked descriptor of an instruction that acts on a table and has no region (R296). -/
def hashTable (va : Word) (last : Nat) : Exec HashCtx := do
  let h ← hashPages va last
  tableHeld va h
  return h

/-- The input of a signature: n elements of FMT (R297). -/
def hashInput (h : HashCtx) (va : Word) : Exec (List Nat) := do
  let n := 32 * h.dim
  let w := h.fmt.bytes
  let bs ← Exec.loadLines va (n * w)
  return (List.range n).map fun i => leNat ((bs.drop (i * w)).take w)

/-- H.SIG (R297). -/
def execHSig (f : FH) (s : State) : Host.Outcome State Fault Refusal := asInstr (do
  let a ← Exec.readX (xnum f.a)
  let b ← Exec.readX (xnum f.b)
  Exec.require (a.toNat % 64 == 0) .align a
  let h ← hashDescriptor a (f.tbl.toNat + f.cnt.toNat) true
  Exec.require (b.toNat % 64 == 0) .align b
  let xs ← hashInput h b
  Exec.writeV (vnum f.d) (ofLanes 16 ((List.range f.cnt.toNat).map fun j => signature h (f.tbl.toNat + j) xs))
  return .next) s

/-- The regions of H.PROBE lie in tile memory and are writable (R296, step 4): their parts, line by line. -/
def probeTarget (va : Word) (n : Nat) : Exec (List (Nat × Nat)) := do
  let s ← get
  let th ← Exec.me
  (lineParts va.toNat n).mapM fun p => do
    let a : Word := .ofNat 64 p.1
    match s.check th a .write with
    | .own dp | .ok dp => if s.inTile dp then return (dp, p.2) else Exec.fault .protect a
    | .miss => Exec.missAt a .write
    | _ => Exec.fault .protect a

/-- H.PROBE (R298). -/
def execHProbe (f : FH) (s : State) : Host.Outcome State Fault Refusal := asInstr (do
  Exec.sbEmpty
  let d ← Exec.readX (xnum f.d)
  let a ← Exec.readX (xnum f.a)
  let v ← Exec.readV (vnum f.b)
  let c ← Exec.readX (xnum f.c)
  let n := f.cnt.toNat
  Exec.require (a.toNat % 64 == 0) .align a
  Exec.require (d.toNat % 64 == 0) .align d
  Exec.require (c.toNat % 16 == 0) .align c
  let s ← get
  let th ← Exec.me
  if 16 ≤ (s.oneSided.filter (·.thread == th.id)).length then Exec.stall 6 0 .oneSided
  let h ← hashPages a (f.tbl.toNat + n)
  let region ← probeTarget d (576 * n)
  tableHeld a h
  let counter ← Exec.counterAddr c
  let s ← get
  let o : OneSided :=
    { id := s.nextId, kind := .probe h f.tbl.toNat ((List.range n).map (lane v 16)), thread := th.id, asid := s.asidOf th.row
      tenant := s.tenantOf th.row, privl := s.privOf th.row, unit := th.ownerUnit, dst := d, src := 0, idx := none
      es := 576, n := n, counter := counter, taken := [], failed := [], wrote := [], probes := []
      idxs := [], region := region }
  set ({ s with oneSided := s.oneSided ++ [o], nextId := s.nextId + 1 }.dropNoMapping (o.owner s))
  return .next) s

/-- The next USN of a table (R301): DUSN raised by one as an atomic on the descriptor, which in the same move creates the parts. -/
def nextUsn (a : Word) (parts : List HashPart) : Exec Nat := do
  let (old, queued) ← Exec.atomicAs (fun q dp => .update q dp parts) .add (wordAdd a 0x40) 8 1 0
  let u := (old + 1) % 2 ^ 64
  if ! queued then modify fun s => s.addParts u parts
  return u

/-- The submission of H.INS and H.DEL (R301). -/
def submitUpdate (f : FH) (delete : Bool) : Exec Flow := do
  Exec.sbEmpty
  let a ← Exec.readX (xnum f.a)
  let b ← Exec.readX (xnum f.b)
  let v ← Exec.readV (vnum f.c)
  let n := f.cnt.toNat
  Exec.require (a.toNat % 64 == 0) .align a
  let h ← hashTable a (f.tbl.toNat + n)
  let s ← get
  let th ← Exec.me
  let u ← nextUsn a ((List.range n).map fun j => ⟨0, h, f.tbl.toNat + j, lane v 16 j, b.toNat % 2 ^ 32, delete, none, th.id, s.tenantOf th.row⟩)
  Exec.writeX (xnum f.d) (.ofNat 64 u)
  return .next

/-- H.INS (R301). -/
def execHIns (f : FH) (s : State) : Host.Outcome State Fault Refusal := asInstr (submitUpdate f false) s

/-- H.DEL (R301). -/
def execHDel (f : FH) (s : State) : Host.Outcome State Fault Refusal := asInstr (submitUpdate f true) s

/-- The part of a thread's unit of H.REHASH. -/
def unitPart? (s : State) (th : Thread) : Option HashPart := s.parts.find? fun p => p.thread == th.id && p.split.isSome

/-- The entries of a bucket that a split moves (R304, step 2): those whose key's signature has bit d set. -/
def movedEntries (p : HashPart) (i : Nat) : Exec (List Nat) := do
  let s ← get
  let h := s.hashNow p.hash
  let d := field (s.shape h p.table i) 0 5
  let es := s.liveEntries h p.table i
  let bits ← es.mapM fun e => do
    let xs ← hashInput h (.ofNat 64 (h.keys + e % 2 ^ 24 * h.kstr))
    return (signature h p.table xs).testBit d
  return ((es.zip bits).filter (·.2)).map (·.1)

/-- The key reads of a unit (R304, step 2; R305). -/
def readKeys (th : Thread) (sp : Split) : Exec Flow := do
  let s ← get
  match unitPart? s th with
  | none =>
    set (s.updThread th.id fun t => { t with split := none })
    return .again
  | some p =>
    let sp' ← (do
      match (← Exec.caught (movedEntries p sp.bucket)) with
      | .ok moved => pure { sp with stage := 2, moved := moved }
      | .error (c, d, notes) =>
        modify fun s => notes.foldl (fun s n => s.applyNote th n) s
        pure { sp with stage := 3, failed := some (c, d) })
    let s ← get
    Exec.hold 0xC 0 .split fun _ => s.updThread th.id fun t => { t.askAnew with split := some sp' }

/-- A unit of H.REHASH begins (R304), or the instruction is done. Each unit makes the checks of R296 again (DESIGN CHOICE, log entry 125). -/
def beginUnit (f : FH) : Exec Flow := do
  let a ← Exec.readX (xnum f.a)
  let b ← Exec.readX (xnum f.b)
  let th ← Exec.me
  let s ← get
  let prog := s.prog th.row
  if f.cnt.toNat ≤ prog then
    Exec.writeX (xnum f.d) (wordAdd b f.cnt.toNat)
    modify fun s => s.setCtrl th.row 0 32 32 0
    return .next
  else
    Exec.require (a.toNat % 64 == 0) .align a
    let h ← hashTable a (f.tbl.toNat + 1)
    let i := (b.toNat + prog) % 2 ^ h.kmax
    let u ← nextUsn a [⟨0, h, f.tbl.toNat, i, 0, false, some i, th.id, s.tenantOf th.row⟩]
    let s ← get
    Exec.hold 0xC 0 .split fun _ => s.beginSplit th.id u i

/-- H.REHASH (R304, R305). -/
def execHRehash (f : FH) (s : State) : Host.Outcome State Fault Refusal := asInstr (do
  Exec.sbEmpty
  let th ← Exec.me
  match th.split with
  | none => beginUnit f
  | some sp =>
    if sp.stage = 1 then readKeys th sp
    else if sp.stage < 4 then Exec.stall 0xC 0 .split
    else match sp.failed with
      | some (c, d) => throw (.fault c d [.splitEnded])
      | none =>
        modify fun s => s.updThread th.id fun t => { t with split := none }
        if sp.short then
          Exec.writeX (xnum f.d) (.ofNat 64 (2 ^ 63 + sp.bucket))
          modify fun s => s.setCtrl th.row 0 32 32 0
          return .next
        else beginUnit f) s

/-- M's newest bytes as an atomic reads them, through the outside queue of an open row (R306). -/
def readNewest (va : Word) (n : Nat) : Exec (List Byte) := do
  let (dp, own) ← Exec.plainAddr va .read 0
  let s ← get
  let th ← Exec.me
  match (← Exec.answered dp) with
  | some (.data _ bs) => return bs
  | some (.fault _ c) => Exec.fault c va
  | _ =>
    if ! own then Exec.checkHold dp va
    if ! own && Exec.openOther s th dp then Exec.ask dp fun s => Exec.queueOn dp (.read th.asker dp dp n) (s.noteBankWindow th va.toNat dp)
    else
      if ! own then
        Exec.reachRow dp false
        modify fun s => s.noteBankWindow th va.toNat dp
      let s ← get
      if s.poisoned dp n then Exec.fault .datapoison va
      if ! own then modify fun s => (s.countWindow (s.tenantOf th.row) dp false).viewNewest th.id (lineOf dp)
      return s.newest dp n

/-- H.USN (R306). -/
def execHUsn (f : FH) (s : State) : Host.Outcome State Fault Refusal := asInstr (do
  Exec.sbEmpty
  let a ← Exec.readX (xnum f.a)
  Exec.require (a.toNat % 64 == 0) .align a
  let _ ← hashDescriptor a 0 false
  let bs ← readNewest (wordAdd a (if f.md = 1 then 0x48 else 0x40)) 8
  Exec.writeX (xnum f.d) (leWord bs)
  return .next) s

/-- A thread's view takes the lines that the updates of a table up to a USN have written (R306). -/
def importApplied (s : State) (id desc n : Nat) : State :=
  s.applied.foldl (fun s e => if e.1 = desc ∧ e.2.1 ≤ n then s.advanceView id e.2.2.1 e.2.2.2 else s) s

/-- H.WUSN (R306). -/
def execHWusn (f : FH) (s : State) : Host.Outcome State Fault Refusal := asInstr (do
  let a ← Exec.readX (xnum f.a)
  let b ← Exec.readX (xnum f.b)
  Exec.require (a.toNat % 64 == 0) .align a
  let _ ← hashDescriptor a 0 false
  let (dp, _) ← Exec.plainAddr a .read 0
  let (at_, _) ← Exec.plainAddr (wordAdd a 0x48) .read 0
  let w := leWord (← readNewest (wordAdd a 0x48) 8)
  let th ← Exec.me
  if w.toNat < b.toNat then
    Exec.hold 6 0 (.applied at_ b.toNat) (Exec.forget th)
  modify fun s => importApplied s th.id dp b.toNat
  Exec.writeX (xnum f.d) w
  return .next) s

/-- The distinct row indices of entries, ascending, each with its greatest priority (R307). -/
def dedupRows (es : List Nat) : List (Nat × Nat) :=
  es.foldl (fun l e => assocSet l (e % 2 ^ 24) (max (e / 2 ^ 24) ((assoc l (e % 2 ^ 24)).getD 0))) []

/-- The entries that a region reports (R299). -/
def regionEntries (bs : List Byte) : List Nat :=
  (List.range (min 128 (leNat ((bs.drop 8).take 2)))).map fun k => leNat ((bs.drop (64 + 4 * k)).take 4)

/-- The lines of the regions of H.DEDUP: every granule must be F or P before any is read (R307). -/
def dedupLines (a : Word) (n : Nat) : Exec (List Byte) := do
  let vas := (List.range (9 * n)).map fun i => wordAdd a (64 * i)
  for va in vas do
    match (← Exec.granAddr va .read true) with
    | none => pure ()
    | some (dp, own) =>
      let s ← get
      let th ← Exec.me
      if (own || ! Exec.openOther s th dp) && ! s.granAll dp 64 (· != .empty) then Exec.stall 2 0 (.granules dp 64 true)
  let ls ← vas.mapM fun va => Exec.loadFE va 64 false
  return ls.flatten

/-- The stores of the entries of H.DEDUP's output, after its count line (R307). -/
def storeEntries (d : Word) (ws : List Nat) : Exec Unit := do
  for p in ws.zipIdx do
    Exec.store (wordAdd d (64 + 4 * p.2)) (leBytes 4 p.1) (group := false)

/-- H.DEDUP (R307). -/
def execHDedup (f : FH) (s : State) : Host.Outcome State Fault Refusal := asInstr (do
  let d ← Exec.readX (xnum f.d)
  let a ← Exec.readX (xnum f.a)
  let b ← Exec.readX (xnum f.b)
  Exec.require (a.toNat % 64 == 0) .align a
  Exec.require (d.toNat % 64 == 0) .align d
  let n := f.cnt.toNat
  let bs ← dedupLines a n
  let rows := dedupRows ((List.range n).flatMap fun j => regionEntries (bs.drop (576 * j)))
  let cap := min b.toNat 4096 / 32 * 32
  let m := min rows.length cap
  Exec.store d (leBytes 4 m ++ leBytes 60 (decide (cap < rows.length)).toNat) (group := false)
  storeEntries d ((List.range ((m + 31) / 32 * 32)).map fun k => match (rows.take m)[k]? with
    | some (r, p) => if f.md = 1 then r + p * 2 ^ 24 else r
    | none => 0x80000000)
  return .next) s

namespace State

/-- A HAPPLY that ends in a state meets an uncorrectable error in the descriptor lines that it acts on (R302): the first, which describes
the table, or that of the counters, where it writes there. -/
def descMeets (s : State) (p : HashPart) (after : State) : Bool :=
  let words := lineOf (p.hash.word 0x40)
  s.headBad p.hash || (s.poisoned words lineBytes && after.touched.contains words)

/-- The HAPPLY of an insert or a delete (R302): one that meets such an error writes nothing but ERRS + 1, and counts as applied. -/
def applyPart (s : State) (p : HashPart) : State :=
  let t := (s.applyUpdate p).finishPart p
  if s.descMeets p t then (s.bumpCounter p.hash 3).finishPart p else t

/-- The end of a unit of H.REHASH (R102, R305): a unit that was not given up counts in PROG and ends a STEP (R97), one whose key reads have failed
faults, and then the commands and the pre-emption held take effect (R100), the last but in an exchange (R331). A row that is EVICTED faults when it
has been reloaded (R112). The instruction of a row that has FAULTED begins its next unit afresh. -/
def endUnit (s : State) (id : Nat) : State :=
  match s.thread? id with
  | none => s
  | some th =>
    let failed := (th.split.bind (·.failed)).filter fun _ => s.logical th != 5
    let ok : Bool := match th.split with
      | some sp => ! sp.short && sp.failed.isNone
      | none => false
    if failed.isSome ∧ s.logical th = 6 then s else
      let s := if ok = true then s.setCtrl th.row 0 32 32 (s.prog th.row + 1) else s
      let s := s.updThread id fun t =>
        { t with heldCmds := [], heldPreempt := false, split := if failed.isSome ∨ s.logical th = 5 then none else t.split }
      let s := match failed with
        | some (c, d) => s.takeFault id c d
        | none => if ! ok ∨ s.ctrlField th.row 7 13 1 = 0 then s
          else if th.slot.isSome then s.endStep id th.row else (s.setCtrl th.row 7 13 1 0).setLogical id 1
      let s := th.heldCmds.foldl (fun s c => match s.thread? id with
        | some t => s.command t none c
        | none => s) s
      (match s.thread? id with
       | some t => if th.heldPreempt && ! s.exchangeHolds t then s.preempt t else s
       | none => s).progressClose id false

/-- The unit of a part that is dropped ends with it (R362; log entry 81). -/
def abandonUnit (s : State) (p : HashPart) : State :=
  match (s.thread? p.thread).bind (·.split) with
  | some sp => if p.split.isSome ∧ sp.usn = p.usn then
      (s.updThread p.thread fun t => { t with split := some { sp with stage := 4 } }).endUnit p.thread else s
  | none => s

/-- A unit's key reads have failed (R305). -/
def failSplit (s : State) (id : Nat) (c : Cause) (va : Word) : State :=
  s.updThread id fun t => { t with split := t.split.map fun sp => { sp with stage := 3, failed := some (c, va) } }

/-- A move of a split that meets an uncorrectable error (R302): ERRS + 1, nothing else written, and the unit ends (DESIGN CHOICE, log
entry 81). -/
def spoilSplit (s : State) (p : HashPart) (sp : Split) : State :=
  let s := (s.bumpCounter p.hash 3).updThread p.thread fun t => { t with split := some { sp with stage := 4 } }
  ((s.finishPart p).noteApplied p).endUnit p.thread

/-- The rows that a part reads on its way and those that it may write (R272, R302, R304). -/
def partRows (s : State) (p : HashPart) : List (Nat × Nat) × List (Nat × Nat) :=
  let h := p.hash
  let head := h.dpParts h.descVa 64
  let words := h.dpParts (h.descVa + 0x40) 64
  let pool (q : Nat) : List (Nat × Nat) := (h.dp (h.poolStatusVa q), 16) :: h.dpParts (h.poolVa q) 256
  match p.split with
  | none =>
    let path := s.lookupPath h p.table p.sig 17 h.kb (p.sig % 2 ^ h.kb)
    let last := path.getLastD 0
    (head ++ path.dropLast.flatMap (s.bucketParts h p.table),
      s.bucketParts h p.table last ++ ((s.insertPool? p last).toList.flatMap pool) ++ words)
  | some i =>
    let stage := ((s.thread? p.thread).bind (·.split)).elim 0 (·.stage)
    let moved := ((s.thread? p.thread).bind (·.split)).elim [] (·.moved)
    let j := i + 2 ^ field (s.shape h p.table i) 0 5
    let partner := if stage = 2 then
        (h.dp (h.statusVa p.table j), 16) :: h.dpParts (h.bucketVa p.table j) 256 ++
          (s.freeBuckets h ((moved.length + 63) / 64 - 1) (field (s.word64 (h.word 0x50)) 0 32)).flatMap pool
      else []
    (head, s.bucketParts h p.table i ++ partner ++ words)

/-- The move (c) of a unit whose instruction is gone (R304, R305): it lowers SPLT alone, or meets an uncorrectable error. -/
def orphanSplit (s : State) (p : HashPart) (i : Nat) : State :=
  let t := (s.splitC p i [] false).finishPart p
  (if s.bucketBad p.hash p.table i ∨ s.descMeets p t then (s.bumpCounter p.hash 3).finishPart p else t).noteApplied p

/-- The move of an H.REHASH unit that is due (R304, R305). -/
def applySplit (s : State) (p : HashPart) (i : Nat) : State :=
  let setStage (s : State) (sp : Split) : State := s.updThread p.thread fun t => { t with split := some sp }
  match (s.thread? p.thread).bind (·.split) with
  | none => s.orphanSplit p i
  | some sp =>
    if sp.usn ≠ p.usn then s.orphanSplit p i
    else match sp.stage with
    | 0 =>
      let (t, go) := s.splitA p i
      if s.headBad p.hash ∨ (! go ∧ s.descMeets p (t.finishPart p)) then s.spoilSplit p sp
      else if go then (setStage t { sp with stage := if sp.failed.isSome then 3 else 1 }).noteApplied p
      else (((setStage t { sp with stage := 4 }).finishPart p).noteApplied p).endUnit p.thread
    | 2 =>
      let (t, ok) := s.splitB p i sp.moved
      if s.splitBad p i sp.moved ∨ s.descMeets p t then s.spoilSplit p sp
      else (setStage t { sp with stage := 3, short := ! ok }).noteApplied p
    | 3 =>
      let t := (s.splitC p i sp.moved (! sp.short && sp.failed.isNone)).finishPart p
      if s.bucketBad p.hash p.table i ∨ s.descMeets p t then s.spoilSplit p sp
      else ((setStage t { sp with stage := 4 }).noteApplied p).endUnit p.thread
    | _ => s

/-- A part takes its move, when it is next in its family (R302, R304), by the descriptor as M holds it now: it reaches the rows that it touches (R259), or
joins the outside queue of the first of them that is an open thread row (R69, R76; of several, DESIGN CHOICE, log entry 123), unless this is that row's
APPLY. -/
def happly (s : State) (find : State → Option HashPart) (applying : Option Nat) : State :=
  match find s.partsNow with
  | none => s
  | some p =>
    if ! s.partsNow.partNext p then s else
      let s := s.partsNow
      let rows := s.partRows p
      let e : OQEntry := .part p.hash.desc p.usn p.table
      match s.joins? rows.2 rows.1 applying with
      | some th => s.joinOnce th e
      | none => match s.partsReach (hashParty p.hash.desc) false rows.1 with
        | .wait s _ => s
        | .ok s => match s.partsReach (hashParty p.hash.desc) true rows.2 with
          | .wait s _ => s
          | .ok s =>
            let s := s.withdraw e
            match p.split with
            | some i => s.applySplit p i
            | none => (s.applyPart p).noteApplied p

/-- The APPLY of a part at the head of a row's outside queue (R76, R302). -/
def applyQueuedPart (s : State) (th : Thread) (desc usn table : Nat) : State :=
  let s := (s.showClose th).doomGroups
  let s : State := { s with touched := [] }
  (s.updThread th.id fun t => { t with oq := t.oq.drop 1, oqAt := t.oqAt.drop 1, appliedSince := true }).happly
    (fun s => s.parts.find? fun p => p.hash.desc == desc && p.usn == usn && p.table == table) (some th.id)

end State

/-- HAPPLY (R302, R304): the pending part of a number. -/
def execHapply (s : State) : Host.Outcome State Fault Refusal :=
  .next (match s.inp with
    | .unit n => s.happly (fun s => s.parts[n]?) none
    | _ => s)

end Sys2Proof.Machine
end

