-- ==== Sys2Proof/Machine/Moves.lean ====
section
/-!
DEFINITION. The moves of the abstract machine that no instruction makes (R70): DRAIN, REFRESH, APPLY, fetch
fills (R57, R143), stream prefetches (R181), the end of a matrix instruction's arithmetic (R255), and the beginning and watchdog
of a walk (R251, R253). A move whose enabling condition does not hold changes nothing.
-/
namespace Sys2Proof.Machine

namespace State

/-- The oldest store-buffer entry of a thread leaves it. -/
def popSB (s : State) (id : Nat) : State := s.updThread id fun t => { t with sb := t.sb.drop 1 }

/-- The first group store that drains to a row copies it, an activate that waits for the regulator (R270, R272, R277); one
whose group has been discarded copies nothing. -/
def chargeCopy (s : State) (th : Thread) (row : Nat) : Reach :=
  if s.shadows.any fun h => h.thread == th.id && h.row == row && h.copied then .ok s else
    match s.locate row with
    | none => .ok s
    | some l => if s.shadows.any fun h => h.thread == th.id && h.row == row then s.extraActivate l else .ok s

/-- DRAIN of an entry at a device-physical address (R73): it joins the outside queue of another thread's open row, reaches control
space, or gives its line a version, which becomes the view's. -/
def drainTo (s : State) (th : Thread) (e : SBEntry) : State :=
  match s.region e.dp with
  | .control => (s.popSB th.id).storeControl th e.dp e.bytes
  | _ =>
    match s.openAt? e.dp with
    | some u =>
      if u.id ≠ th.id then
        (s.popSB th.id).enqueue u.id (.write (some th.id) e.dp e.bytes e.mark)
      else ((s.popSB th.id).landStore (some th.id) e.dp e.bytes e.mark).viewNewest th.id (lineOf e.dp)
    | none =>
      match s.reach (th.id + 1) e.dp true with
      | .wait s _ => s
      | .ok s => ((s.popSB th.id).landStore (some th.id) e.dp e.bytes e.mark).viewNewest th.id (lineOf e.dp)

/-- DRAIN (R73, R277, R379): the oldest entry of a thread's store buffer. A store to another module is sent, and leaves the buffer when it
is acknowledged. -/
def drain (s : State) (id : Nat) : State :=
  match s.thread? id with
  | none => s
  | some th => match th.sb with
    | [] => s
    | e :: _ =>
      match e.remote with
      | some m => s.sendRemote m e.va (.store id) e.bytes
      | none =>
        let s := match e.mark with
          | .group row => (match s.chargeCopy th row with
            | .wait s _ => s
            | .ok s => (s.shadowWrite id e.dp e.bytes).popSB id)
          | _ => s.drainTo th e
        s.progressClose id false

/-- The APPLY of a head that is one of its own: an FSHIP, or a part of a table's update (R192, R302). -/
def applyFirst (s : State) (th : Thread) : State :=
  match th.oq with
  | .part desc usn table :: _ => s.applyQueuedPart th desc usn table
  | _ => s.applyShip th.id

/-- APPLY (R76, R99, R165, R255): the head of an open row's outside queue, where the row has issued since the last, no matrix instruction of the
row is outstanding, and it does not stall on a busy unit. A close in progress applies what is queued, all at one boundary (R77), and an FSHIP
or a part of an update there by this move. -/
def apply (s : State) (id : Nat) : State :=
  match s.thread? id with
  | none => s
  | some th =>
    if th.slot.isNone ∨ th.oq.isEmpty then s
    else if shipFirst th then
      (if takesOutside th ∨ (th.closing.isSome ∧ th.matrix.isEmpty) then (s.applyFirst th).progressClose id false else s)
    else if ! takesOutside th then s
    else (s.applyHead id).progressClose id false

/-- The next line lies beyond the body of an active hardware loop that takes two lines (R144, DESIGN CHOICE, log entry 78). -/
def pastLoop (s : State) (th : Thread) : Bool :=
  let w := s.ctrl th.row 4
  let le := pcIndex th.ip + field w 48 16
  let last := lineOf (pcAddress le).toNat
  let first := lineOf (pcAddress (le - field w 33 15)).toNat
  field w 32 1 == 1 && last == first + lineBytes && lineOf th.ip.toNat == last

/-- A fill of a fetch-buffer line of an open row ahead of its issue (R57, R143): the line of the next issue, or, once an instruction has
issued from the current line, the next one. -/
def fetchFill (s : State) (id va : Nat) : State :=
  match s.thread? id with
  | none => s
  | some th =>
    let cur := lineOf th.ip.toNat
    let due := va == cur ||
      (va == cur + lineBytes && (th.fbuf.any fun f => f.va == cur && f.issued) && ! s.pastLoop th)
    if th.slot.isNone ∨ th.closing.isSome ∨ ! due ∨ ! pcWellFormed th.ip ∨ th.fbuf.any (fun f => f.va == va) then s else
      match s.fillLine th va true with
      | .line s _ | .none s | .wait s _ _ _ => s

/-- The address of a stream slot a number of vectors ahead (R178, R181). -/
def slotAhead (s : State) (row n : Nat) : Nat → Word
  | 0 => s.slotNext row n
  | k + 1 => slotAhead (s.slotAdvance row n) row n k

/-- DEPTH of a stream slot, as R177 takes it. -/
def slotDepth (s : State) (row n : Nat) : Nat := min 32 (s.slotBits row n (8 * 0x30 + 4) 6)

/-- A stream prefetch (R181): a REFRESH of the line it reads; a miss posts its message, and nothing faults. -/
def streamPrefetch (s : State) (id slot ahead : Nat) : State :=
  match s.thread? id with
  | none => s
  | some th =>
    if th.slot.isNone ∨ s.slotDepth th.row slot < ahead ∨ s.slotDone th.row slot then s else
      let va := s.slotAhead th.row slot ahead
      match s.check th va .read with
      | .ok dp =>
        if (s.openAt? dp).isSome ∨ s.region dp = .control then s else
          match s.reach (th.id + 1) dp false with
          | .wait _ _ => s
          | .ok s => (s.noteBankWindow th va.toNat dp).refresh id (lineOf dp) (s.verOf (lineOf dp))
      | .miss => s.postMiss th va .read true
      | _ => s

/-- The oldest outstanding matrix instruction of a row completes (R255), while the matrix island of its die is clocked (R32). -/
def matrixComplete (s : State) (id : Nat) : State :=
  match s.thread? id with
  | none => s
  | some th => match th.matrix with
    | [] => s
    | m :: rest =>
      if ! s.clocked (2 * th.die + 1) then s else
      let s := s.updThread id fun t => m.results.foldl (fun t r => t.setAcc r.1 r.2) { t with matrix := rest }
      s.progressClose id false

/-- The row of a walker's request ends it with a fault. -/
def endWalk (s : State) (k : Skink) (q : WalkReq) (rest : List WalkReq) (c : Cause) : State :=
  s.setSkink { k with queue := rest, ends := k.ends ++ [(q.thread, .fault c)] }

/-- The views of a walker's thread become at least the requester's (R251). -/
def importView (s : State) (id : Nat) (view : List (Nat × Nat)) : State :=
  view.foldl (fun s p => s.advanceView id p.1 p.2) s

/-- A walk begins on a STOPPED row (R251): the requester's view, x1 to x3, cleared predicates and progress, and the entry's code address. -/
def beginWalk (s : State) (cluster : Nat) (k : Skink) (q : WalkReq) (rest : List WalkReq) (u req : Thread) : State :=
  let s := s.setSkink { k with cur := some q, queue := rest, emitted := [], issues := 0 }
  let s := s.importView u.id req.view
  let s := (((s.setX u.row 1 q.data).setX u.row 2 q.entry).setX u.row 3 (.ofNat 64 q.tya.toCode))
  let s := (s.setCtrl u.row 7 8 4 0).clearProgress u.row
  let s := (List.range 7).foldl (fun s i => s.setP u.row (i + 1) false) s
  let s := s.pokeWord (u.row + 8) q.wpc
  let s := if s.ctrlField u.row 7 12 1 = 1 then s.setCtrl u.row 7 12 1 0 else s
  let s := s.setWord0 u.row 3
  let now := s.islandTicks (2 * (cluster / 80) + 1)
  s.updThread u.id fun t =>
    { t.askAnew with exec := .walker, place := cluster, ip := q.wpc, check := some ⟨true, none, none⟩, slot := some 0
                     openedAt := now, fbuf := [], stall := none }

/-- A walk begins (R251): the oldest request of a cluster whose walker is idle. A halted cluster opens no walker's row (R361). -/
def walkBegin (s : State) (cluster : Nat) : State :=
  let k := s.skink cluster
  match k.cur, k.queue with
  | none, q :: rest =>
    if ! s.islandOn (2 * (cluster / 80) + 1) then s else
      match s.threadAt? q.wrow, s.thread? q.thread with
      | some u, some req =>
        if u.closing.isSome then s
        else if s.code u.row = 5 then s.endWalk k q rest ((Cause.ofCode (s.ctrlField u.row 3 0 8)).getD .protect)
        else if s.code u.row ≠ 1 ∨ s.tagOf u.row ≠ .fixed then s.endWalk k q rest .protect
        else if s.clhalt.contains cluster then s
        else s.beginWalk cluster k q rest u req
      | _, _ => s.endWalk k q rest .protect
  | _, _ => s

/-- A walk that has not ended within 1,536 issues (R253). -/
def walkerWatchdog (s : State) (cluster : Nat) : State :=
  let k := s.skink cluster
  match k.cur with
  | none => s
  | some q =>
    if k.issues < 1536 then s else
      match s.threadAt? q.wrow with
      | none => s
      | some u => if u.closing.isSome then s else (s.takeFault u.id .watchdog 0).progressClose u.id false

end State

/-- DRAIN (R73). -/
def execDrain (s : State) : Host.Outcome State Fault Refusal :=
  .next (match s.inp with
    | .unit id => s.drain id
    | _ => s)

/-- REFRESH (R74). -/
def execRefresh (s : State) : Host.Outcome State Fault Refusal :=
  .next (match s.inp with
    | .triple id line v => s.refresh id (lineOf line) v
    | _ => s)

/-- APPLY (R76). -/
def execApply (s : State) : Host.Outcome State Fault Refusal :=
  .next (match s.inp with
    | .unit id => s.apply id
    | _ => s)

/-- FETCH_FILL (R57, R143). -/
def execFetchFill (s : State) : Host.Outcome State Fault Refusal :=
  .next (match s.inp with
    | .pair id va => s.fetchFill id va
    | _ => s)

/-- STREAM_PREFETCH (R181). -/
def execStreamPrefetch (s : State) : Host.Outcome State Fault Refusal :=
  .next (match s.inp with
    | .prefetch id slot ahead => s.streamPrefetch id slot.val ahead
    | _ => s)

/-- MATRIX_ARITH_COMPLETE (R255). -/
def execMatrixArithComplete (s : State) : Host.Outcome State Fault Refusal :=
  .next (match s.inp with
    | .unit id => s.matrixComplete id
    | _ => s)

/-- WALK_BEGIN (R251). -/
def execWalkBegin (s : State) : Host.Outcome State Fault Refusal :=
  .next (match s.inp with
    | .unit c => s.walkBegin c
    | _ => s)

/-- WALKER_WATCHDOG (R253). -/
def execWalkerWatchdog (s : State) : Host.Outcome State Fault Refusal :=
  .next (match s.inp with
    | .unit c => s.walkerWatchdog c
    | _ => s)

end Sys2Proof.Machine
end

