-- ==== Sys2Proof/Machine/System.lean ====
section
/-!
DEFINITION. Class 0xE: control registers (R352, R353), routine loads (R355), TLB writes and invalidations (R357, R359), traps, the
device log and posts (R354), and the beginning of a scrub (R371).
-/
namespace Sys2Proof.Machine

/-- What R353 gives a register: the privilege to read, the privilege to write if any, whether it exists per tenant, and the bits a
write stores. -/
structure CrInfo where
  read : Nat
  write : Option Nat
  perTenant : Bool
  mask : Word
  deriving DecidableEq, Repr

/-- A mask of k bits at lo. -/
def maskAt (lo k : Nat) : Word := .ofNat 64 ((2 ^ k - 1) * 2 ^ lo)

/-- The control registers (R353). -/
def crInfo (cr : Nat) : Option CrInfo :=
  match cr with
  | 0x01 => some ⟨0, none, true, 0⟩
  | 0x10 => some ⟨1, some 1, true, maskAt 0 1 ||| maskAt 11 37⟩
  | 0x20 => some ⟨1, some 2, true, maskAt 16 32⟩
  | 0x21 => some ⟨1, some 2, true, maskAt 0 46⟩
  | 0x30 => some ⟨1, some 1, true, maskAt 0 56⟩
  | 0x31 => some ⟨1, some 1, true, maskAt 0 64⟩
  | 0x32 => some ⟨1, some 1, true, maskAt 35 21⟩
  | 0x33 => some ⟨1, some 1, true, maskAt 0 10⟩
  | 0x40 => some ⟨1, some 1, true, maskAt 0 56⟩
  | 0x41 => some ⟨1, none, true, 0⟩
  | 0x42 => some ⟨1, some 1, true, maskAt 0 2⟩
  | 0x50 => some ⟨1, some 1, true, maskAt 0 56⟩
  | 0x60 => some ⟨1, some 1, true, maskAt 0 56⟩
  | 0x61 => some ⟨1, none, true, 0⟩
  | 0x62 => some ⟨1, some 1, true, maskAt 0 64⟩
  | 0x70 => some ⟨0, some 2, true, maskAt 0 35⟩
  | 0x71 => some ⟨0, some 2, true, maskAt 0 64⟩
  | 0x80 => some ⟨1, some 1, true, maskAt 0 1 ||| maskAt 6 50⟩
  | 0x81 => some ⟨1, some 1, true, maskAt 0 12⟩
  | 0x90 => some ⟨2, some 2, false, maskAt 0 39⟩
  | 0x91 => some ⟨2, some 2, false, maskAt 0 7 ||| maskAt 8 7 ||| maskAt 15 1⟩
  | 0xA0 => some ⟨2, some 2, false, maskAt 0 1⟩
  | 0xB0 => some ⟨0, some 2, false, maskAt 0 12⟩
  | _ => none

/-- The index of a register lies in its range (R353). -/
def crIndexOk (t : Option Tenant) (cr i : Nat) : Bool :=
  match cr with
  | 0x10 => (match t with
    | some t => decide (t.asidFirst ≤ i ∧ i < t.asidFirst + t.asidCount)
    | none => false)
  | 0x20 | 0x21 | 0x80 | 0x81 => decide (i < 64)
  | 0x62 => decide (i < 1024)
  | 0x71 => decide (i ≤ 648)
  | 0x90 => decide (i < 256)
  | 0x91 => decide (i < 4096)
  | 0xA0 => decide (i < 640)
  | _ => true

namespace Tenant

/-- TINFO (R353). -/
def info (t : Tenant) : Word :=
  .ofNat 64 (t.num % 64 + t.asidFirst % 1024 * 2 ^ 6 + t.asidCount % 1024 * 2 ^ 16 + t.vecFirst % 4096 * 2 ^ 26 +
    (t.vecCount - 1) % 64 * 2 ^ 38 + t.keyCount % 256 * 2 ^ 44)

/-- The two registers of a window (R369). -/
def windowRegs (t : Tenant) (w : Nat) : Word × Word := ((t.windows.find? (·.1 == w)).map (·.2)).getD (0, 0)

/-- The registers of a window written. -/
def setWindow (t : Tenant) (w : Nat) (b sz : Word) : Tenant :=
  { t with windows := (t.windows.filter (·.1 != w)) ++ [(w, b, sz)] }

/-- RTAB of a routine (R355). -/
def rtabWord (t : Tenant) (k : Nat) : Word :=
  match assoc t.routines k with
  | none => 0
  | some r => .ofNat 64 (r.status % 4 + (if r.status = 1 then (r.bound - 1) % 4096 * 2 ^ 6 else 0))

/-- A register of tenant scope (R353). -/
def readCr (t : Tenant) (cr i : Nat) : Word :=
  match cr with
  | 0x01 => t.info
  | 0x10 => (assoc t.ptroot i).getD 0
  | 0x20 => (t.windowRegs i).1
  | 0x21 => (t.windowRegs i).2
  | 0x30 => t.mbox
  | 0x31 => t.svcrow
  | 0x32 => t.aper
  | 0x33 => t.pasid
  | 0x40 => t.lqb
  | 0x41 => .ofNat 64 (t.lqSeq % 2 ^ 32 + t.lqTaken % 2 ^ 32 * 2 ^ 32)
  | 0x42 => t.lqp
  | 0x50 => t.hring
  | 0x60 => t.vlog
  | 0x61 => .ofNat 64 t.vlogn
  | 0x62 => (assoc t.wacnt i).getD 0
  | 0x70 => t.allot
  | 0x71 => (assoc t.doma i).getD 0
  | 0x80 => t.rtabWord i
  | 0x81 => (assoc t.rtabb i).getD 0
  | _ => 0

/-- A register of tenant scope written (R353); RTAB apart. -/
def writeCr (t : Tenant) (cr i : Nat) (v : Word) : Tenant :=
  match cr with
  | 0x10 => { t with ptroot := assocSet t.ptroot i v }
  | 0x20 => t.setWindow i v (t.windowRegs i).2
  | 0x21 => t.setWindow i (t.windowRegs i).1 v
  | 0x30 => { t with mbox := v }
  | 0x31 => { t with svcrow := v }
  | 0x32 => { t with aper := v }
  | 0x33 => { t with pasid := v }
  | 0x40 => { t with lqb := v, staleLaunch := [] }
  | 0x42 => { t with lqp := v }
  | 0x50 => { t with hring := v }
  | 0x60 => { t with vlog := v }
  | 0x62 => { t with wacnt := assocDel t.wacnt i }
  | 0x70 => { t with allot := v }
  | 0x71 => { t with doma := assocSet t.doma i v }
  | 0x81 => { t with rtabb := assocSet t.rtabb i v }
  | _ => t

end Tenant

namespace State

/-- A register that exists once (R353). -/
def readCr (s : State) (cr i : Nat) : Word :=
  match cr with
  | 0x90 => (assoc s.acl i).getD 0
  | 0x91 => (assoc s.route i).getD 0
  | 0xA0 => if s.clhalt.contains i then 1 else 0
  | 0xB0 => s.modid
  | _ => 0

/-- A register that exists once, written (R353, R361). -/
def writeCr (s : State) (cr i : Nat) (v : Word) : State :=
  match cr with
  | 0x90 => { s with acl := assocSet s.acl i v }
  | 0x91 => { s with route := assocSet s.route i v }
  | 0xA0 => { s with clhalt := if field v 0 1 = 1 then (if s.clhalt.contains i then s.clhalt else i :: s.clhalt)
                               else s.clhalt.filter (· != i) }
  | 0xB0 => { s with modid := v }
  | _ => s

/-- After an allotment every object of the tenant is as before its first bind (R314); a context that it adds has TL and SUB zero (R316), and one that
it keeps goes on (DEDUCED, log entry 44). -/
def allotFresh (s : State) (tenant : Nat) (old new : Word) : State :=
  let inOld (k : Nat) : Bool := decide (field old 16 9 ≤ k ∧ k < field old 16 9 + field old 25 10)
  let inNew (k : Nat) : Bool := decide (field new 16 9 ≤ k ∧ k < field new 16 9 + field new 25 10)
  { s with ctxs := s.ctxs.filter fun c => ! (inNew c.1 && ! inOld c.1)
           syncs := s.syncs.filter fun o => o.1.1 != tenant }

/-- The bank window registers that map a tenant's windows are cleared (R395). -/
def clearBankWindows (s : State) (tenant : Nat) : State := { s with bankWins := s.bankWins.filter (·.tenant != tenant) }

end State

/-- The checks of SYS.RDCR and SYS.WRCR (R352): the register, the tenant number and the index. -/
def crCheck (cr : Nat) (a : Word) (write : Bool) : Exec (CrInfo × Nat × Nat) := do
  match crInfo cr with
  | none => Exec.fault .illegal
  | some c =>
    let s ← get
    let row ← Exec.myRow
    let priv := s.privOf row
    Exec.require (if write then (match c.write with
      | some w => decide (w ≤ priv)
      | none => false) else decide (c.read ≤ priv)) .priv
    let tenant := if priv = 2 then field a 16 6 else s.tenantOf row
    let i := field a 0 16
    let t := s.tenant? tenant
    Exec.require (crIndexOk t cr i) .protect a
    return (c, tenant, i)

/-- SYS.RDCR (R352, R353). -/
def execSysRdcr (f : FS) (s : State) : Host.Outcome State Fault Refusal := asInstr (do
  let a ← Exec.readX (xnum f.a)
  let (c, tenant, i) ← crCheck f.sel.toNat a false
  let s ← get
  let w := if c.perTenant then ((s.tenant? tenant).map fun t => t.readCr f.sel.toNat i).getD 0 else s.readCr f.sel.toNat i
  Exec.writeX (xnum f.d) w
  return .next) s

/-- Reserved bits of a written value are discarded, which is logged (R5). -/
def crValue (mask v : Word) : Exec Word := do
  if v &&& ~~~mask ≠ 0 then modify fun s => s.logRec .reservedWrite [v]
  return v &&& mask

/-- The lines of an image (R355): at most 16, as far as they are fetch lines with a good CRC. The first must be readable. -/
def imageLines (base : Word) : Nat → Nat → Exec (List Line)
  | 0, _ => pure []
  | n + 1, i => do
    let r ← Exec.caught (Exec.load (wordAdd base (64 * i)) 64)
    match r with
    | .error (c, d, notes) => if i = 0 then throw (.fault c d notes) else pure []
    | .ok bs =>
      let l := leLine bs
      if crc16 (bs.take 60) = lineCrc (lineWord l) ∧ lineWordOk (lineWord l) then do
        let rest ← imageLines base n (i + 1)
        return l :: rest
      else pure []

/-- A word that a routine may hold (R355): of classes 0x1, 0x2, 0x3, 0x6 and 0x7, not JT, BRI or CALLI. An empty slot is a word of zeros. A word
that names a queue or a stream slot is admitted, and ends a run that comes to it as its bound does (log entry 31). -/
def routineWordOk (w : IWord) : Bool :=
  w == 0 || (match decode w with
    | .error _ => false
    | .ok (_, i) =>
      [1, 2, 3, 6, 7].contains (bitsAt w.toNat 92 4) &&
        (match i with
         | .jt _ | .bri _ | .calli _ => false
         | _ => true))

/-- A routine is loaded or emptied (R355). -/
def rtabWrite (tenant k : Nat) (v : Word) : Exec Unit := do
  let r ← (if field v 0 1 = 0 then pure (⟨0, 0, []⟩ : Routine)
    else do
      let body ← imageLines (.ofNat 64 (field v 6 50 * 64)) 16 0
      let ok := ! body.isEmpty && body.all fun l => (List.range 5).all fun i => routineWordOk (slotWord l i)
      let s ← get
      let bound := ((s.tenant? tenant).map fun t => field ((assoc t.rtabb k).getD 0) 0 12 + 1).getD 1
      pure (if ok then (⟨1, bound, body⟩ : Routine) else ⟨2, 0, []⟩))
  modify fun s => match s.tenant? tenant with
    | none => s
    | some t => s.setTenant { t with routines := assocSet t.routines k r }

/-- SYS.WRCR of a register with a value (R352 to R355). -/
def writeCr (cr : Nat) (a v : Word) : Exec Flow := do
  let (c, tenant, i) ← crCheck cr a true
  Exec.sbEmpty
  let s ← get
  let inRange := match s.tenant? tenant with
    | some t => decide (t.asidFirst ≤ field v 0 10 ∧ field v 0 10 < t.asidFirst + t.asidCount)
    | none => false
  if cr == 0x33 && ! inRange then Exec.fault .protect
  let v ← crValue c.mask v
  if cr = 0x80 then rtabWrite tenant i v
  else modify fun s =>
    if ! c.perTenant then s.writeCr cr i v else
      match s.tenant? tenant with
      | none => s
      | some t =>
        let s := s.setTenant (t.writeCr cr i v)
        if cr = 0x70 then s.allotFresh tenant t.allot v
        else if cr = 0x20 ∨ cr = 0x21 then s.clearBankWindows tenant
        else s
  return .next

/-- SYS.WRCR (R352, R353). -/
def execSysWrcr (f : FS) (s : State) : Host.Outcome State Fault Refusal := asInstr (do
  let a ← Exec.readX (xnum f.a)
  let b ← Exec.readX (xnum f.b)
  writeCr f.sel.toNat a b) s

/-- The load command of RTAB (R355): SYS.WRCR with bit 0 of the value set. -/
def execRtabLoad (f : FS) (s : State) : Host.Outcome State Fault Refusal := asInstr (do
  let a ← Exec.readX (xnum f.a)
  let b ← Exec.readX (xnum f.b)
  writeCr 0x80 a (b ||| 1)) s

/-- The command of RTAB that empties an entry (R355). -/
def execRtabEmpty (f : FS) (s : State) : Host.Outcome State Fault Refusal := asInstr (do
  let a ← Exec.readX (xnum f.a)
  let _ ← Exec.readX (xnum f.b)
  writeCr 0x80 a 0) s

/-- SYS.WRCR of CLHALT (R361). -/
def execClhaltWrite (f : FS) (s : State) : Host.Outcome State Fault Refusal := asInstr (do
  let a ← Exec.readX (xnum f.a)
  let b ← Exec.readX (xnum f.b)
  writeCr 0xA0 a b) s

/-- SYS.WRCR of WACNT (R353): any write clears both counts. -/
def execWacntWrite (f : FS) (s : State) : Host.Outcome State Fault Refusal := asInstr (do
  let a ← Exec.readX (xnum f.a)
  let b ← Exec.readX (xnum f.b)
  writeCr 0x62 a b) s

/-- An invalidation that has come since a miss's walk began overlaps some bytes (R358). -/
def Miss.cutOn (m : Miss) (a n : Nat) : Bool := m.cuts.any fun r => rangesMeet r.1 r.2 a n

namespace State

/-- An invalidation reaches every receiver (R359): entries and bank window registers that it names are removed at once, and the walks
that run keep its range, since how large their page is the walk alone finds (R358). -/
def invalidate (s : State) (iv : Invalidation) : State :=
  let hitE (e : TlbEntry) : Bool := iv.asids.contains e.asid && rangesMeet iv.start iv.len e.page (pageSize e.size)
  let hitB (b : BankWindow) : Bool := iv.asids.contains b.asid && rangesMeet iv.start iv.len (b.vpage * pageBytes) pageBytes
  let frames := ((s.tlbs.filter hitE).filter fun e => ! leafRemote e.leaf).map (fun e => (leafAddr e.leaf e.size 0, pageSize e.size)) ++
    (s.bankWins.filter hitB).map fun b => (b.ppage * pageBytes, pageBytes)
  { s with tlbs := s.tlbs.filter (! hitE ·), bankWins := s.bankWins.filter (! hitB ·)
           misses := s.misses.map fun m =>
             if iv.asids.contains m.asid && (m.stage == 1 || m.stage == 2) then { m with cuts := m.cuts ++ [(iv.start, iv.len)] } else m
           invs := s.invs ++ [{ iv with frames := frames, entries := s.tlbs.filter hitE }] }

end State

/-- SYS.TLBINV (R359). -/
def execSysTlbinv (f : FS) (s : State) : Host.Outcome State Fault Refusal := asInstr (do
  let d ← Exec.readX (xnum f.d)
  let a ← Exec.readX (xnum f.a)
  let b ← Exec.readX (xnum f.b)
  let s ← get
  let row ← Exec.myRow
  let priv := s.privOf row
  Exec.require (decide (1 ≤ priv)) .priv
  Exec.require (d.toNat % 16 == 0) .align d
  let tenant := s.tenantOf row
  let t := s.tenant? tenant
  let asid := f.sel.toNat % 2 ^ 10
  let own : List Nat := (t.map fun t => (List.range t.asidCount).map fun i => t.asidFirst + i).getD []
  let named := if 2 ^ 15 ≤ f.sel.toNat then own else [asid]
  Exec.require (decide (priv = 2) || decide (2 ^ 15 ≤ f.sel.toNat) || own.contains asid) .protect
  Exec.sbEmpty
  let counter ← Exec.counterAddr d
  modify fun s =>
    { s with nextId := s.nextId + 1 }.invalidate
      { id := s.nextId, tenant := tenant, asids := named, start := a.toNat, len := b.toNat, counter := counter
        waiting := List.range 664, frames := [], entries := [], sent := s.now }
  return .next) s

/-- A translation is written into a TLB (R357): it replaces what it overlaps, and the accesses that waited for its page issue again
(R358); a walk whose page an invalidation overlapped leaves no entry. -/
def State.fillTlb (s : State) (e : TlbEntry) : State :=
  let mine (m : Miss) : Bool := m.unit == e.unit && m.asid == e.asid && m.va.toNat / pageSize e.size == e.page / pageSize e.size
  let stale := s.misses.any fun m => mine m && m.stage != 3 && m.cutOn e.page (pageSize e.size)
  let rest := s.tlbs.filter fun o =>
    ! (o.unit == e.unit && o.asid == e.asid && rangesMeet o.page (pageSize o.size) e.page (pageSize e.size))
  { s with tlbs := if stale then s.tlbs else e :: rest, misses := s.misses.filter fun m => ! mine m || (stale && m.stage == 3) }

/-- SYS.TLBWR (R357). -/
def execSysTlbwr (f : FS) (s : State) : Host.Outcome State Fault Refusal := asInstr (do
  let a ← Exec.readX (xnum f.a)
  let b ← Exec.readX (xnum f.b)
  let s ← get
  let th ← Exec.me
  Exec.require (s.privOf th.row == 2) .priv
  let size := field a 0 2
  Exec.require (size != 3 && field a 2 14 == 0 && field a 56 8 == 0 && leafOk b size) .illegal
  let va := field a 16 40 * 2 ^ 16
  Exec.require (va % pageSize size == 0) .align a
  match th.unit with
  | none => Exec.fault .unavail
  | some u =>
    modify fun s => s.fillTlb ⟨u, f.sel.toNat % 2 ^ 10, va, size, b⟩
    return .next) s

/-- SYS.TRAP (R354). -/
def execSysTrap (f : FS) (s : State) : Host.Outcome State Fault Refusal := asInstr (do
  Exec.fault .systrap (← Exec.readX (xnum f.a))) s

/-- SYS.LOG (R354): one record a microsecond and tenant. -/
def execSysLog (f : FS) (s : State) : Host.Outcome State Fault Refusal := asInstr (do
  let a ← Exec.readX (xnum f.a)
  let b ← Exec.readX (xnum f.b)
  let th ← Exec.me
  modify fun s =>
    let tn := s.tenantOf th.row
    let us := s.now / 1000
    let t? := s.tenant? tn
    let limited := (t?.bind (·.lastLogUs)) == some us
    if limited then
      match t? with
      | some t => s.setTenant { t with logDropped := t.logDropped + 1 }
      | none => s
    else
      let dropped := min 1023 ((t?.map (·.logDropped)).getD 0)
      let s := s.logRec .sysLog [setField (s.rowVa th) 56 8 f.sel.toNat, a, b,
        .ofNat 64 (s.now % 2 ^ 48 + tn % 64 * 2 ^ 48 + dropped * 2 ^ 54)]
      match t? with
      | some t => s.setTenant { t with logDropped := 0, lastLogUs := some us }
      | none => s
  return .next) s

namespace State

/-- The slot of a ring of a tenant at a position, in tile memory (R394). -/
def ringSlot (s : State) (t : Tenant) (ring : Word) (pos : Nat) : Option Nat :=
  (s.hubTranslate t (ringBase ring + pos % 2 ^ ringLog ring * 64) .write).bind fun dp => if s.inTile dp then some dp else none

/-- A message is on its way to a line: it waits for the row, or in its outside queue. -/
def postPending (s : State) (dp : Nat) : Bool :=
  s.hubWrites.any (fun w => lineOf w.dp == lineOf dp && w.mark == .hub true) || s.threads.any fun t => t.oq.any fun e => match e with
    | .write none a _ (.hub true) => lineOf a == lineOf dp
    | _ => false

/-- A slot is free when its four granules are E (R115, R354) and no message is on its way to it. -/
def slotFree (s : State) (dp : Nat) : Bool := s.granAll dp 64 (· == .empty) && ! s.postPending dp

/-- A message written into a slot: its granules become F (R115, R354). -/
def putSlot (s : State) (dp : Nat) (l : Line) : State := s.hubPoke dp (lineToBytes l) true

/-- The virtual address of a ring's slot. -/
def ringVa (ring : Word) (pos : Nat) : Nat := ringBase ring + pos % 2 ^ ringLog ring * 64

end State

/-- The walk of a ring's address that SYS.MPOST makes at its issue reaches the table rows (R259, R272, R394), or the issue waits with WKIND 0xB. -/
def reachRing (t : Tenant) (ring : Word) (pos : Nat) : Exec Unit := do
  let s ← get
  let th ← Exec.me
  let asid := field t.pasid 0 10
  let va := State.ringVa ring pos
  match s.reachWalk (th.id + 1) t.num asid va with
  | .ok s => set s
  | .wait u sub =>
    let blocked (a : Nat) : Bool := match u.reach (th.id + 1) a false with
      | .ok _ => false
      | .wait _ _ => true
    let a := ((u.tableReads t.num asid va).find? blocked).getD 0
    throw (.hold 0xB sub (.buffer (((u.locate a).map (·.subId)).getD 0) (rowOf a)) id u)

/-- SYS.MPOST to the host ring (R354). -/
def execSysMpostHost (f : FS) (s : State) : Host.Outcome State Fault Refusal := asInstr (do
  let v ← Exec.readV (vnum f.a)
  let b ← Exec.readX (xnum f.b)
  let s ← get
  let row ← Exec.myRow
  let tn := s.tenantOf row
  match s.tenant? tn with
  | none => Exec.writeX (xnum f.d) (-1)
  | some t =>
    reachRing t t.hring t.hringNext
    let s ← get
    match s.ringSlot t t.hring t.hringNext with
    | none => Exec.writeX (xnum f.d) (-1)
    | some dp =>
      if ! s.slotFree dp then Exec.writeX (xnum f.d) (-1)
      else
        let i := t.hringNext % 2 ^ ringLog t.hring
        set (((s.setTenant { t with hringNext := t.hringNext + 1 }).putSlot dp v).raise tn (b.toNat % t.vecCount))
        Exec.writeX (xnum f.d) (.ofNat 64 i)
  return .next) s

/-- SYS.MPOST to the fault mailbox (R354): a waiting Post goes first. -/
def execSysMpostMbox (f : FS) (s : State) : Host.Outcome State Fault Refusal := asInstr (do
  let v ← Exec.readV (vnum f.a)
  let s ← get
  let row ← Exec.myRow
  match s.tenant? (s.tenantOf row) with
  | none => Exec.writeX (xnum f.d) (-1)
  | some t =>
    reachRing t t.mbox t.mboxNext
    let s ← get
    match s.ringSlot t t.mbox t.mboxNext with
    | none => Exec.writeX (xnum f.d) (-1)
    | some dp =>
      if ! t.posts.isEmpty ∨ ! s.slotFree dp then Exec.writeX (xnum f.d) (-1)
      else
        let i := t.mboxNext % 2 ^ ringLog t.mbox
        set ((s.setTenant { t with mboxNext := t.mboxNext + 1 }).putSlot dp v)
        Exec.writeX (xnum f.d) (.ofNat 64 i)
  return .next) s

namespace State

/-- Every allotted context of a tenant is cancelled through SUB (R324, R371). -/
def cancelContexts (s : State) (t : Tenant) : State :=
  let allotted (k : Nat) : Bool := decide (field t.allot 16 9 ≤ k ∧ k < field t.allot 16 9 + field t.allot 25 10)
  let cancel (x : EngCtx) : EngCtx :=
    { x with tl := x.tl + x.cq.length, cq := [], err := x.err || ! x.cq.isEmpty, halt := false }
  let s : State := { s with ctxs := s.ctxs.map fun p => if allotted p.1 then (p.1, cancel p.2) else p }
  (s.ctxs.filter fun p => allotted p.1).foldl (fun s p => s.dropAccesses (ofContext p.1) (ctxParty p.1)) s

/-- KILL reaches every thread row of a tenant (R371). -/
def killTenant (s : State) (tenant : Nat) : State :=
  (s.threads.filter fun t => s.tenantOf t.row == tenant).foldl (fun s t =>
    match s.thread? t.id with
    | none => s
    | some th => (s.command th none 5).progressClose t.id false) s

/-- A scrub begins, or is refused (R371): the state, and 0 accepted, 1 no such tenant, 2 a scrub is running. -/
def startScrub (s : State) (tenant area : Nat) : State × Nat :=
  match s.tenant? tenant with
  | none => (s, 1)
  | some t =>
    if tenant = 0 then (s, 1)
    else if s.scrub.isSome then (s, 2)
    else
      let accs := ((s.threads.filter fun th => s.tenantOf th.row == tenant).map fun th =>
        ((List.range 4).filter fun k => (th.acc k).bound).length).sum
      let sc : Scrub :=
        { tenant := tenant, area := area, startTime := s.now, tileRows := 0, dramRows := 0, accTiles := accs
          poolEntries := ((s.queues.filter (·.tenant == tenant)).map (·.cap)).sum
          windows := t.windows }
      ((({ s with scrub := some sc }).killTenant tenant).cancelContexts t, 0)

end State

/-- SYS.SCRUB (R371). -/
def execSysScrub (f : FS) (s : State) : Host.Outcome State Fault Refusal := asInstr (do
  let a ← Exec.readX (xnum f.a)
  let b ← Exec.readX (xnum f.b)
  let s ← get
  let row ← Exec.myRow
  Exec.require (s.privOf row == 2) .priv
  Exec.require (b.toNat % 512 == 0) .align b
  let (dp, _) ← Exec.plainAddr b .write 1
  let s ← get
  let (s, code) := s.startScrub (field a 0 6) dp
  set s
  Exec.writeX (xnum f.d) (.ofNat 64 code)
  return .next) s

end Sys2Proof.Machine
end

