-- ==== Sys2Proof/Machine/Scheduler.lean ====
section
/-!
DEFINITION. The row scheduler (R103 to R109, R122, R123), the row allocator (R110 to R112, R120, R121, R32), Posts (R115, R116), and command
stores of parties outside the rows (R95 to R97). An event whose condition does not hold changes nothing.
-/
namespace Sys2Proof.Machine

namespace State

/-- The row of a SAVE hold is in its buffer before a row opens (R266): the buffer is left OPEN until the row itself opens. -/
def bringHold (s : State) (th : Thread) (k : Nat) : Reach :=
  if s.holdState th.row k ≠ 1 then .ok s else
    let r := s.holdRow th.row k
    let sub := th.place * 8 + k
    let l : BankLoc := ⟨th.place / 16384, th.place, k, r, th.place % 16384 / 256⟩
    let (s, go) := match s.rowAtLoc l.stack (l.pch + th.place % 256 / 16 * 64 + th.place % 16 * 1024 + k * 2 ^ 14 + r * 2 ^ 17) with
      | some a => s.dpitWrite (th.id + 1) (a / pageBytes)
      | none => (s, true)
    if ! go then .wait s k else
      match (s.subarray sub).buf with
      | .thread _ | .held _ _ => .wait (s.claim sub (th.id + 1)) k
      | b => if bufRow b = some r then .ok s else s.activateInTurn l (.opened r) (th.id + 1)

/-- Every SAVE hold of a row is in its buffer, or the open waits. -/
def bringHolds (s : State) (th : Thread) : Nat → Reach
  | 0 => .ok s
  | k + 1 => match bringHolds s th k with
    | .wait s n => .wait s n
    | .ok s => s.bringHold th k

/-- A DRAM row is activated in its buffer, whatever row stood OPEN there, and its holds are bound (R109, R259, R266, R272), or the open
waits. -/
def openBank (s : State) (th : Thread) : Reach :=
  let (s, go) := s.dpitWrite (th.id + 1) (th.row / pageBytes)
  match s.locate th.row with
  | none => .wait s 0
  | some l =>
    if ! go then .wait s l.sub else
      match s.bringHolds th 8 with
      | .wait s k => .wait s k
      | .ok s =>
        let opened : Reach := match (s.subarray l.subId).buf with
          | .thread _ | .held _ _ => .wait (s.claim l.subId (th.id + 1)) l.sub
          | _ => s.activateInTurn l (.thread l.rown) (th.id + 1)
        match opened with
        | .wait s k => .wait s k
        | .ok s => .ok ((List.range 8).foldl (fun s k =>
            if s.holdState th.row k = 1 then s.setBuf (th.place * 8 + k) (.held (s.holdRow th.row k) th.id) else s) s)

/-- A row opens in a slot: it is RUNNING (R94, R105). -/
def openRow (s : State) (th : Thread) (k : Nat) : State :=
  let s := (s.dropClaims (th.id + 1)).setWord0 th.row 3
  s.updThread th.id fun t => { t with slot := some k, openedAt := s.ticksOf th, fbuf := [], stall := none }

/-- No READY row that could take the same slot goes before a row (R105); on a B-executor a slot is a subarray (R106). -/
def firstReady (s : State) (th : Thread) (k : Nat) : Bool :=
  ! s.threads.any fun u => sameExecutor u th && u.id != th.id && s.isReady u && s.freeSlot u == some k && s.strictlyBefore u th

/-- A READY row opens (R105, R109, R266). -/
def schedOpen (s : State) (id : Nat) : State :=
  match s.thread? id with
  | none => s
  | some th =>
    if ! s.isReady th ∨ th.closing.isSome ∨ ! s.islandOn th.island ∨ s.halted th then s else
      match s.freeSlot th with
      | none => s
      | some k =>
        if ! s.firstReady th k then s
        else if th.exec = .bank then
          (match s.openBank th with
           | .wait s _ => s
           | .ok s => s.openRow th k)
        else s.openRow th k

/-- The first row of a service core (R64): device firmware makes a row of the core's own memory a thread row of tenant 0 at PRIVL device, which
starts where the core's firmware does. -/
def firstRow (s : State) (core row : Nat) : State :=
  let base := 2 ^ 48 + 2 ^ 40 * core
  let th : Thread := { (default : Thread) with exec := .service, place := core }
  if 666 ≤ core ∨ row < base ∨ base + 2 ^ 40 ≤ row ∨ row % rowBytes ≠ 0 ∨ s.tagOf row ≠ .data ∨ (s.threadAt? row).isSome ∨
     s.threads.any (sameExecutor th) ∨ ! s.islandOn th.island ∨ s.boot.stage < 2 then s
  else
    let s := s.pokeWord (row + 8) (Config.firmwareEntry core)
    (s.startData none 0 row (.ofNat 64 row)).setCtrl row 2 16 2 2

/-- The end of a quantum (R106): the row closes when a READY row of at least its priority waits, and else its quantum renews, as it does in
an exchange (R331). -/
def quantumClose (s : State) (id : Nat) : State :=
  match s.thread? id with
  | none => s
  | some th =>
    if ! s.quantumOver th then s
    else if s.mayPreempt th && (s.waitingRows th).any fun u => decide (s.prio th.row ≤ s.effective u) then s.preempt th
    else s.updThread id fun t => { t with openedAt := s.ticksOf th }

/-- A close for priority (R106): the open row of lowest base priority, for the first READY row whose EP exceeds it by 16 and that no row has been
closed for. -/
def priorityClose (s : State) (id : Nat) : State :=
  match s.thread? id with
  | none => s
  | some th => match s.firstClaimant th with
    | none => s
    | some u => if ! s.priorityDue th then s else (s.updThread u.id fun t => { t with servedAt := some t.readyAt }).preempt th

/-- The end of a spin window (R103): the row closes WAITING at the stalled instruction. -/
def spinExpiry (s : State) (id : Nat) : State :=
  match s.thread? id with
  | none => s
  | some th => match th.stall with
    | none => s
    | some w => if ! s.stallOver th then s else (s.beginClose id (waitBits w.wkind w.warg)).progressClose id false

/-- The condition a row waits for holds (R103, R104). -/
def condHolds (s : State) (th : Thread) : WaitCond → Bool
  | .always => true
  | .watch _ => false
  | .spawn => false
  | .granules dp n full => if full then s.granAll dp n (· != .empty) else s.granAll dp n (· == .empty) || s.poisoned dp n
  | .timeline k n orHalt => decide (n.toNat ≤ (s.ctx k).tl) || (orHalt && (s.ctx k).halt)
  | .queueRoom k => ! s.contextGated k && decide (s.queueLoad k th.id < 64)
  | .seq o n => decide (n.toNat ≤ (s.syncObj (s.tenantOf th.row) o).seq.toNat)
  | .queue c q need room =>
    (match s.queue? c q with
     | none => true
     | some u => decide (need ≤ u.items.length) && decide (u.items.length + room ≤ u.cap))
  | .counter dp n => decide (n ≤ field (s.word64 dp) 0 63)
  | .applied dp n => decide (n ≤ (s.word64 dp).toNat)
  | .oneSided => decide ((s.oneSided.filter (·.thread == th.id)).length < 16)
  | .translation u asid va | .member u asid va =>
    ! s.misses.any fun m => m.thread == some th.id && m.unit == u && m.asid == asid && m.va == va && m.stage != 3
  | .restore _ va => ! s.misses.any fun m => m.thread == some th.id && m.va == va && m.stage != 3
  | .island n => s.islandOn n
  | .domain name =>
    (match s.domain? name with
     | none => true
     | some d => d.abort || (match memberIndex? d th with
       | none => true
       | some m => d.allAt (d.counters.getD m 0)))
  | .slot name k i ended =>
    (match s.domain? name with
     | none => true
     | some d => if ended then d.slotEnded k i s.now else d.slotBegun k i s.now)
  | .buffer _ row =>
    ! s.waitsAtDpit (th.id + 1) (row / pageBytes) && (match s.reach (th.id + 1) row false with
      | .ok _ => true
      | .wait _ _ => false)
  | .sbEmpty => th.sb.isEmpty
  | .sbClear lines => s.linesDone th lines
  | .queueClear lines => lines.all fun l => ! Exec.queuedFor s th.id l
  | .sbAndQueues => s.storesDone th
  | .reply => th.asked.all fun k => th.replies.any fun r => match r with
      | .data q _ | .done q | .notEnabled q | .fault q _ => q == k
  | .matrix => th.matrix.length < 8
  | .walk => s.skinks.any fun k => k.ends.any (·.1 == th.id)
  | .split => ! splitBusy th || (th.split.map (·.stage)) == some 1
  | .unitBusy kind => ! s.unitBusy th kind

/-- A WAITING row's condition has become true (R104). -/
def waitWake (s : State) (id : Nat) : State :=
  match s.thread? id with
  | none => s
  | some th => match th.stall with
    | none => s
    | some w => if th.slot.isSome ∨ s.code th.row ≠ 4 ∨ ! s.condHolds th w.cond then s else s.setLogical id 2

/-- A TH.WAIT whose ticks count a timeout down (R123): a row that is EVICTED keeps its last one for its reload (R112). -/
def ticking (s : State) (th : Thread) : Bool :=
  (th.stall.any fun w => match w.cond with
    | .watch _ => true
    | _ => false) && (if s.logical th = 6 then decide (256 < s.prog th.row) else s.logical th == 4 && decide (0 < s.prog th.row))

/-- A tick of a TH.WAIT (R123): PROG falls by 256, and a timeout that reaches zero makes the row READY. A row that is EVICTED is reloaded
first (R112). -/
def waitTick (s : State) (id : Nat) : State :=
  match s.thread? id with
  | none => s
  | some th => match th.stall with
    | none => s
    | some w => match w.cond with
      | .watch d =>
        let p := s.prog th.row
        if ! s.ticking th ∨ s.cyclesSince th th.tickAt < 256 then s
        else
          let s := s.updThread id fun t => { t with tickAt := t.tickAt + 256000 }
          if p ≤ 256 then s.endWatch th d 0 else s.setCtrl th.row 0 32 32 (p - 256)
      | _ => s

/-- A row that the allocator may place a row in (R110, log entry 52): one of its pool, a DATA row that no thread is in, in a tile of a die that
is not being gated (R32), or in the stacks. -/
def rowFree (s : State) (row : Nat) (tier : Nat) : Bool :=
  s.freeRows.contains row && row % rowBytes == 0 && s.tagOf row == .data && (s.threadAt? row).isNone &&
    (match s.region row with
     | .tile t => tier == 0 && s.islandOn (2 * dieOfTile t)
     | .dram => tier == 1 && (s.locate row).isSome
     | _ => false)

/-- The number of thread rows in a subarray. -/
def rowsIn (s : State) (sub : Nat) : Nat :=
  (s.threads.filter fun t => match s.locate t.row with
    | some l => l.subId == sub
    | none => false).length

/-- Where a row of tile t stands in the search from a hint (R110): the hint's tile, cluster and die, then the other dies ascending. The die
of a hint in the stacks is that of its stack. -/
def tileRank (s : State) (hint : Option Nat) (t : Nat) : Nat :=
  let far := 3 + dieOfTile t
  match hint with
  | none => far
  | some h => match s.region h with
    | .tile u => if t = u then 0 else if clusterOfTile t = clusterOfTile u then 1 else if dieOfTile t = dieOfTile u then 2 else far
    | .dram => (match s.locate h with
      | some l => if l.stack / 3 = dieOfTile t then 2 else far
      | none => far)
    | _ => far

/-- Where a row of the stacks stands in the search from a hint (R110, R260): the hint's bank, which is 16 B-executors (R11, R273), its stack, then
the other stacks ascending; a hint that names a data row shuts out its own subarray, and of the others of its executor, which go first, the
one with the fewest thread rows. A hint that names no row of a stack, as the row of a T-thread does, has no bank and no stack: the search goes through
the stacks from 0 upwards (DESIGN CHOICE, log entry 115). -/
def bankRank (s : State) (hint : Option Nat) (l : BankLoc) : Option Nat :=
  match hint, hint.bind s.locate with
  | some h, some k =>
    if l.exec / 16 = k.exec / 16 then
      (if s.tagOf h ≠ .data then some 0
       else if l.exec ≠ k.exec then some (2 ^ 39)
       else if l.sub = k.sub then none
       else some (s.rowsIn l.subId * 8 + l.sub))
    else some (2 ^ 40 * (if l.stack = k.stack then 1 else 2 + l.stack))
  | _, _ => some (2 ^ 40 * (2 + l.stack))

/-- Where a row stands in the allocator's search (R110); none where the search never takes it. -/
def placeRank (s : State) (hint : Option Nat) (row : Nat) : Option Nat :=
  match s.region row with
  | .tile t => some (s.tileRank hint t)
  | .dram => (s.locate row).bind (s.bankRank hint)
  | _ => none

/-- The rows that a search can take. -/
def candidates (s : State) (hint : Option Nat) (tier : Nat) : List Nat :=
  s.freeRows.filter fun r => s.rowFree r tier && (s.placeRank hint r).isSome

/-- The allocator's search takes a row: none comes before it (R110). -/
def chosen (s : State) (hint : Option Nat) (tier row : Nat) : Bool :=
  let c := s.candidates hint tier
  c.contains row && c.all fun r => decide ((s.placeRank hint row).getD 0 ≤ (s.placeRank hint r).getD 0)

/-- A handle that no live PLACED row holds (R110). -/
def handleFree (s : State) (h : Nat) : Bool := decide (1 ≤ h ∧ h < 2 ^ 24) && (s.handleRow? h).isNone

/-- A row is a tenant's no more: a row of the pool goes back to it, and a backing row to its tenant's pool (R94, R111). -/
def giveRow (s : State) (tenant row : Nat) (isBacking : Bool) : State :=
  if isBacking then
    (match s.tenant? tenant with
     | some t => s.setTenant { t with backing := t.backing ++ [row] }
     | none => { s with freeRows := s.freeRows ++ [row] })
  else { s with freeRows := s.freeRows ++ [row] }

/-- The backing row of a new tile row (R111), from its tenant's pool; none where the pool is empty, and the row is then never evicted. -/
def takeBacking (s : State) (tenant : Nat) : State × Option Nat :=
  match s.tenant? tenant with
  | none => (s, none)
  | some t => match t.backing with
    | [] => (s, none)
    | b :: rest => (s.setTenant { t with backing := rest }, some b)

/-- A new PLACED row (R110, R120): every byte zero but the control field, every granule F in a tile, the given identity, PC and
priority, READY or STOPPED, its first scalar registers, and a backing row. -/
def placeRow (s : State) (row handle ident prio pc : Nat) (ready : Bool) (xs : List Word) : State :=
  let s : State := { s with freeRows := s.freeRows.filter (· != row) }
  let s := s.pokeAll row (List.replicate rowBytes 0)
  let s := (s.setGran row rowBytes .full).setTag row .placed
  let tier := match s.region row with
    | .dram => 1
    | _ => 0
  let s := s.pokeWord row (.ofNat 64 ((if ready then 2 else 1) + prio % 256 * 2 ^ 8))
  let s := s.pokeWord (row + 8) (.ofNat 64 pc)
  let s := s.pokeWord (row + 0x10) (.ofNat 64 (ident % 2 ^ 18 + handle * 2 ^ 18 + tier * 2 ^ 42))
  let s := xs.foldl (fun (p : State × Nat) w => (p.1.setX row p.2 w, p.2 + 1)) (s, 1) |>.1
  let kind : ExecKind := if tier = 1 then .bank else .tile
  let place := match s.region row with
    | .tile t => t
    | _ => (match s.locate row with
      | some l => l.exec
      | none => 0)
  let (s, backing) := if tier = 1 then (s, none) else s.takeBacking (ident % 64)
  let th : Thread :=
    { (default : Thread) with id := s.nextId, row := row, va := .ofNat 64 (handleAddr handle), exec := kind, place := place
                              backing := backing, ip := .ofNat 64 pc, closedAt := s.now, view := s.newestView }
  let th := { th with readyAt := s.ticksOf th }
  { s with threads := s.threads ++ [th], nextId := s.nextId + 1 }

/-- A device-physical address of a locality hint of a thread (R120): its own row, or where a translation leads, by the page table where the
TLB has no entry; none where the hint leads nowhere. -/
def hintRow (s : State) (th : Thread) (hint : Word) : Option Nat :=
  match s.check th hint .read with
  | .own dp | .ok dp => some dp
  | .miss =>
    let tenant := s.tenantOf th.row
    let privl := s.privOf th.row
    (match s.walk tenant (s.asidOf th.row) hint.toNat with
     | some (leaf, size) => (match s.gateRow tenant privl (s.checkLeaf tenant privl leaf (leafAddr leaf size hint.toNat) .read) with
       | .ok dp => some dp
       | _ => none)
     | none => none)
  | _ => none

/-- The hint of a spawn is translated (R120, R169, R272): where the TLB has no entry, by a walk that reaches its table rows. -/
def reachHint (s : State) (th : Thread) (hint : Word) : Reach :=
  if s.check th hint .read = .miss then s.reachWalk (serviceParty (2 ^ 32 + th.id)) (s.tenantOf th.row) (s.asidOf th.row) hint.toNat else .ok s

/-- The issuer goes past its TH.SPAWN (R120, R121), to where the loop test of its ISSUE leads (R139): running on, READY when it was WAITING, and
STOPPED when it was stopped. The PC word is written and PCW cleared here, also over another party's write of it since the issue (R92; DESIGN
CHOICE, log entry 96). -/
def endSpawn (s : State) (th : Thread) (q : SpawnReq) : State :=
  let waiting := s.logical th = 4
  let evicted := s.logical th = 6 ∧ s.ctrlField th.row 0 16 4 ≠ 0
  let s := s.setNext th.id th.row q.next (if q.back then some ⟨true, none, none⟩ else none) false
  if waiting then s.setLogical th.id 2
  else if evicted then s.updThread th.id fun t => { t with stall := some ⟨0xA, 0, .always⟩ }
  else s

/-- A row that the allocator may evict (R111): a PLACED tile row that is closed and STOPPED or WAITING, and has a backing row; the
rows of a die that is being gated stay (R32). -/
def evictable (s : State) (th : Thread) : Bool :=
  s.tagOf th.row == .placed && s.inTile th.row && s.islandOn (2 * th.die) && th.slot.isNone && th.closing.isNone && th.backing.isSome &&
    (s.code th.row == 1 || s.code th.row == 4)

/-- The allocator refuses (R111): no row is free in the whole search, and for a tile row there is no victim; or every handle is held. -/
def refuses (s : State) (hint : Option Nat) (tier : Nat) : Bool :=
  ((s.candidates hint tier).isEmpty && (tier != 0 || ! s.threads.any s.evictable)) ||
    decide (2 ^ 24 - 1 ≤ (s.threads.filter fun th => s.tagOf th.row == .placed).length)

/-- The allocator's reply to a TH.SPAWN (R120, R121): a placed row with a handle, or (handle 0) a refusal; a cancelled request leaves
nothing. -/
def spawnReply (s : State) (id row handle : Nat) : State :=
  match s.thread? id with
  | none => s
  | some th => match th.spawn with
    | none => s
    | some q =>
      let done (s : State) : State := (s.updThread id fun t => { t with spawn := none }).dropClaims (serviceParty (2 ^ 32 + id))
      if q.cancelled then done s
      else if handle = 0 then
        (if ! s.refuses (s.hintRow th q.hint) (field q.desc 8 1) then s else match s.reachHint th q.hint with
          | .wait s _ => s
          | .ok s => ((done s).setX th.row q.dest 0).endSpawn th q)
      else if ! s.chosen (s.hintRow th q.hint) (field q.desc 8 1) row ∨ ! s.handleFree handle then s
      else match s.reachHint th q.hint with
      | .wait s _ => s
      | .ok s => match s.reach (hubParty row) row true with
      | .wait s _ => s
      | .ok s =>
        let ident := bitsAt (s.ctrl th.row 2).toNat 0 16 + field q.desc 9 2 * 2 ^ 16
        let s := (done s).placeRow row handle ident (field q.desc 0 8) q.pc.toNat (field q.desc 11 1 == 1) []
        let s := (List.range 32).foldl (fun s i => s.viewNewest id (row + 64 * i)) s
        let va := match s.threadAt? row with
          | some u => s.rowVa u
          | none => 0
        (s.setX th.row q.dest va).endSpawn th q

/-- An address of a row that has moved. -/
def rekeyAddr (old new a : Nat) : Nat := if rowOf a = old then new + a % rowBytes else a

/-- The key of an answer whose address a moved row holds; a key of another module's address stays. -/
def rekeyKey (f : Nat → Nat) (k : Nat) : Nat := if k % 2 ^ 70 < 2 ^ 60 then f (k % 2 ^ 70) + k / 2 ^ 70 * 2 ^ 70 else k

/-- An answer whose address a moved row holds. -/
def rekeyReply (f : Nat → Nat) : Reply → Reply
  | .data k bs => .data (rekeyKey f k) bs
  | .done k => .done (rekeyKey f k)
  | .notEnabled k => .notEnabled (rekeyKey f k)
  | .fault k c => .fault (rekeyKey f k) c

/-- The condition that a row waits for, where it names an address that a moved row holds (R104). -/
def rekeyCond (f : Nat → Nat) : WaitCond → WaitCond
  | .granules dp n full => .granules (f dp) n full
  | .counter dp n => .counter (f dp) n
  | .applied dp n => .applied (f dp) n
  | .buffer sub row => .buffer sub (f row)
  | .sbClear lines => .sbClear (lines.map f)
  | .queueClear lines => .queueClear (lines.map f)
  | c => c

/-- A row's bytes, granule states, versions and views move to another row (R77, R111, R112): no version is made, and whatever names an address
of the row follows it. -/
def moveRow (s : State) (old new : Nat) : State :=
  let f := rekeyAddr old new
  let pairs (l : List (Nat × Nat)) : List (Nat × Nat) := l.map fun p => (f p.1, p.2)
  let grans := (granules old rowBytes).map fun g => (f g, s.granOfAddr g)
  let tag := s.tagOf old
  let moveHist (h : LineHist) : LineHist := { h with line := f h.line }
  let moveEntry (e : SBEntry) : SBEntry := { e with dp := f e.dp }
  let moveStall (w : Stall) : Stall := { w with cond := rekeyCond f w.cond }
  let moveThread (t : Thread) : Thread :=
    { t with row := if t.row = old then new else t.row
             view := pairs (t.view.filter fun p => rowOf p.1 != new)
             wrote := t.wrote.map f
             stall := t.stall.map moveStall
             replies := t.replies.map (rekeyReply f)
             asked := t.asked.map (rekeyKey f)
             sb := t.sb.map moveEntry }
  let moveSync (o : SyncObj) : SyncObj := { o with bnd := o.bnd.map f, pub := pairs o.pub }
  let moveOp (o : OneSided) : OneSided := { o with counter := f o.counter, wrote := pairs o.wrote, region := pairs o.region }
  let moveCtx (c : EngCtx) : EngCtx := { c with wrote := c.wrote.map fun w => (w.1, f w.2.1, w.2.2) }
  let moveDomain (d : Domain) : Domain := { d with regLines := d.regLines.map fun l => (l.1, f l.2) }
  let moveFlight (g : Flight) : Flight := { g with src := pairs g.src, dst := pairs g.dst }
  let moveInv (v : Invalidation) : Invalidation := { v with counter := f v.counter }
  let s : State := { s with
    mem := s.mem.setBytes new (s.mem.bytes old rowBytes)
    hist := (s.hist.filter fun h => rowOf h.line != new).map moveHist
    bad := s.bad.map f
    posted := s.posted.map fun p => (p.1, pairs p.2)
    threads := s.threads.map moveThread
    syncs := s.syncs.map fun o => (o.1, moveSync o.2)
    oneSided := s.oneSided.map moveOp
    counted := s.counted.map fun c => (f c.1, f c.2.1, c.2.2)
    ctxs := s.ctxs.map fun c => (c.1, moveCtx c.2)
    domains := s.domains.map moveDomain
    flights := s.flights.map moveFlight
    invs := s.invs.map moveInv
    hubWrites := s.hubWrites.map fun (w : HubWrite) => { w with dp := f w.dp }
    gran := s.gran.filter fun g => rowOf g.1 != old && rowOf g.1 != new }
  let s := grans.foldl (fun s g => if g.2 = .full then s else { s with gran := assocSet s.gran g.1 g.2 }) s
  (s.setTag old .data).setTag new tag

/-- Bits of a control word of a row written without a version (R77). -/
def setRaw (s : State) (row k lo n v : Nat) : State :=
  { s with mem := s.mem.setBytes (row + 8 * k) (wordBytes (setField (s.ctrl row k) lo n v)) }

/-- A victim goes before another (R111): STOPPED before WAITING, then the lower base priority, then the one closed longer. -/
def goesFirst (s : State) (a b : Thread) : Bool :=
  let waits (t : Thread) : Bool := s.code t.row == 4
  if waits a != waits b then ! waits a
  else decide (s.prio a.row < s.prio b.row) || (s.prio a.row == s.prio b.row && decide (a.closedAt ≤ b.closedAt))

/-- An eviction (R111): when no tile row is free in the whole search, the victim goes to its backing row, its accumulator tiles are released, and
its tile row goes to the pool. It may come with no request that searches (DEDUCED, log entry 52). -/
def evict (s : State) (id : Nat) : State :=
  match s.thread? id with
  | none => s
  | some th => match th.backing with
    | none => s
    | some b =>
      let best := s.threads.all fun u => ! s.evictable u || u.id == id || s.goesFirst th u
      if ! s.evictable th ∨ ! best ∨ ! (s.candidates none 0).isEmpty then s else
        match s.reach (hubParty b) b true with
        | .wait s _ => s
        | .ok s =>
          let s := s.moveRow th.row b
          let s := (s.setRaw b 0 0 4 6).setRaw b 2 42 1 1
          let s := s.updThread id fun t =>
            { t with evicted := true, accs := t.accs.map Acc.unbind }
          s.giveRow 0 th.row false

/-- What an EVICTED row waits for has come (R112): a command, or its condition. -/
def reloadDue (s : State) (th : Thread) : Bool :=
  s.ctrlField th.row 0 4 4 != 0 || (match th.stall with
    | none => false
    | some w => s.condHolds th w.cond || (match w.cond with
      | .watch _ => s.watchHolds th ||
          (s.prog th.row != 0 && decide (s.prog th.row ≤ 256) && decide (256 ≤ s.cyclesSince th th.tickAt))
      | _ => false))

/-- A reload (R112): the row goes to a tile row, takes the state that WKIND names, faults where its unit of H.REHASH has ended so
(R305), and then takes its pending command. -/
def reload (s : State) (id row : Nat) : State :=
  match s.thread? id with
  | none => s
  | some th =>
    if s.code th.row ≠ 6 ∨ ! th.evicted ∨ ! s.reloadDue th ∨ ! s.chosen (some (tileRow th.place 0)) 0 row then s
    else match s.reach (hubParty th.row) th.row false with
    | .wait s _ => s
    | .ok s =>
      let cmd := s.ctrlField th.row 0 4 4
      let state := if s.ctrlField th.row 0 16 4 = 0 then 1 else 4
      let place := match s.region row with
        | .tile t => t
        | _ => 0
      let s := ({ s with freeRows := s.freeRows.filter (· != row) } : State).moveRow th.row row
      let s := ((s.setRaw row 0 0 8 state).setRaw row 2 42 1 0).updThread id fun t => { t with evicted := false, place := place }
      let s := s.updThread id fun t => { t with tickAt := min t.tickAt (s.ticksOf t), readyAt := s.ticksOf t }
      let s := if th.split.any fun sp => sp.stage == 4 && sp.failed.isSome then s.endUnit id else s
      if cmd = 0 then s else s.takeCommand id cmd

/-- A reclaim (R94): a PLACED row that is FREE, with nothing in its outside queue; the rows it had go back to their pools. -/
def reclaim (s : State) (id : Nat) : State :=
  match s.thread? id with
  | none => s
  | some th =>
    if s.tagOf th.row ≠ .placed ∨ s.code th.row ≠ 0 ∨ th.slot.isSome ∨ th.closing.isSome ∨ ! th.oq.isEmpty then s
    else
      let tn := s.tenantOf th.row
      let s := (s.rowToData th).giveRow tn th.row th.evicted
      match th.backing with
      | some b => if th.evicted then s else s.giveRow tn b true
      | none => s

/-- A row joins the allocator's pool, or the backing pool of a tenant (R110, R111): device firmware gives it, and no rule says how. -/
def donateRow (s : State) (tenant : Option Nat) (row : Nat) : State :=
  let held := s.freeRows.contains row || s.tenants.any (·.backing.contains row) || s.threads.any fun t => t.backing == some row
  if row % rowBytes ≠ 0 ∨ s.tagOf row ≠ .data ∨ (s.threadAt? row).isSome ∨ held then s else
    match tenant, s.region row with
    | none, .tile _ | none, .dram => s.giveRow 0 row false
    | some t, .dram => if (s.tenant? t).isSome then s.giveRow t row true else s
    | _, _ => s

/-- A PLACED row of a power-gated die that is READY moves to a tile row of another die (R32). -/
def gatedMove (s : State) (id row : Nat) : State :=
  match s.thread? id with
  | none => s
  | some th =>
    match s.region th.row, s.region row with
    | .tile t, .tile u =>
      if s.tagOf th.row ≠ .placed ∨ ! s.isReady th ∨ ! (s.gates.any (·.die == dieOfTile t)) ∨ dieOfTile u = dieOfTile t ∨
         ! s.chosen (some th.row) 0 row then s
      else
        let s := ({ s with freeRows := s.freeRows.filter (· != row) } : State).moveRow th.row row
        let s := (s.giveRow 0 th.row false).updThread id fun t => { t with place := u }
        s.updThread id fun t => { t with readyAt := s.ticksOf t }
    | _, _ => s

/-- A Post (R115, R116, R394): the oldest message of a tenant goes into its mailbox slot, when that is free, or to the device log. -/
def post (s : State) (tenant : Nat) : State :=
  match s.tenant? tenant with
  | none => s
  | some t => match t.posts with
    | [] => s
    | (msg, id) :: rest =>
      match s.ringSlot t t.mbox t.mboxNext with
      | none =>
        let words := (List.range 5).map fun i => (msg.extractLsb' (64 * i) 64 : Word)
        ((s.setTenant { t with posts := rest }).logRec .faultMessage words).raise tenant 0
      | some dp =>
        if ! s.slotFree dp then s else
        match s.reachPosting t (ringVa t.mbox t.mboxNext) with
        | .wait s _ => s
        | .ok s =>
          let s := (s.setTenant { t with posts := rest, mboxNext := t.mboxNext + 1 }).putSlot dp msg
          let lines := match s.thread? id with
            | some th => (List.range 32).map fun i => (th.row + 64 * i, s.verOf (th.row + 64 * i))
            | none => []
          { s with posted := assocSet s.posted dp lines }

/-- Bytes that the host or device firmware stores (R73, R88): line by line. -/
def outsideStore (s : State) (a : Nat) (bs : List Byte) : State :=
  (lineParts a bs.length).foldl (fun s p =>
    s.outsidePart p.1 ((bs.drop (p.1 - a)).take p.2) (.outside 0 (s.modid.toNat % 4096) true)) s

/-- A command store of device firmware or the host (R95): word 0, and the PC word when the store covers it. The event may name a row of a core's
private memory, which no host reaches: it then stands for the store of device firmware on another service core, and is recorded as the host's
(DESIGN CHOICE, log entry 114). -/
def commandStore (s : State) (c : CmdArg) (code : Nat) : State :=
  let w0 : Word := .ofNat 64 (code % 16 * 2 ^ 4 + c.prio.toNat * 2 ^ 8)
  s.outsideStore (rowOf c.row) (wordBytes w0 ++ (match c.pc with
    | some w => wordBytes w
    | none => []))

end State

/-- A command store event. -/
def commandEvent (s : State) (code : Nat) : State :=
  match s.inp with
  | .command c _ => s.commandStore c code
  | _ => s

/-- START (R97). -/
def execStart (s : State) : Host.Outcome State Fault Refusal := .next (commandEvent s 1)

/-- STOP (R97). -/
def execStop (s : State) : Host.Outcome State Fault Refusal := .next (commandEvent s 2)

/-- REDIRECT (R97). -/
def execRedirect (s : State) : Host.Outcome State Fault Refusal := .next (commandEvent s 3)

/-- RESUME (R97). -/
def execResume (s : State) : Host.Outcome State Fault Refusal := .next (commandEvent s 4)

/-- KILL (R97). -/
def execKill (s : State) : Host.Outcome State Fault Refusal := .next (commandEvent s 5)

/-- STEP (R97). -/
def execStep (s : State) : Host.Outcome State Fault Refusal := .next (commandEvent s 6)

/-- COMMAND_RESERVED (R95): a command code from 7 to 15. -/
def execCommandReserved (s : State) : Host.Outcome State Fault Refusal :=
  .next (match s.inp with
    | .command c code => if 7 ≤ code.toNat then s.commandStore c code.toNat else s
    | _ => s)

/-- ROW_SCHED_OPEN (R105), and the first row of a service core (R64). -/
def execRowSchedOpen (s : State) : Host.Outcome State Fault Refusal :=
  .next (match s.inp with
    | .unit id => s.schedOpen id
    | .firstRow core row => s.firstRow core row
    | _ => s)

/-- QUANTUM_CLOSE (R106). -/
def execQuantumClose (s : State) : Host.Outcome State Fault Refusal :=
  .next (match s.inp with
    | .unit id => s.quantumClose id
    | _ => s)

/-- PRIORITY_CLOSE (R106). -/
def execPriorityClose (s : State) : Host.Outcome State Fault Refusal :=
  .next (match s.inp with
    | .unit id => s.priorityClose id
    | _ => s)

/-- SPIN_WINDOW_EXPIRY (R103). -/
def execSpinWindowExpiry (s : State) : Host.Outcome State Fault Refusal :=
  .next (match s.inp with
    | .unit id => s.spinExpiry id
    | _ => s)

/-- WAIT_WAKE (R104). -/
def execWaitWake (s : State) : Host.Outcome State Fault Refusal :=
  .next (match s.inp with
    | .unit id => s.waitWake id
    | _ => s)

/-- TH_WAIT_TICK (R123). -/
def execThWaitTick (s : State) : Host.Outcome State Fault Refusal :=
  .next (match s.inp with
    | .unit id => s.waitTick id
    | _ => s)

/-- SPAWN_REPLY (R120). -/
def execSpawnReply (s : State) : Host.Outcome State Fault Refusal :=
  .next (match s.inp with
    | .triple id row handle => s.spawnReply id row handle
    | _ => s)

/-- ROW_EVICTION (R111). -/
def execRowEviction (s : State) : Host.Outcome State Fault Refusal :=
  .next (match s.inp with
    | .unit id => s.evict id
    | _ => s)

/-- ROW_RELOAD (R112). -/
def execRowReload (s : State) : Host.Outcome State Fault Refusal :=
  .next (match s.inp with
    | .pair id row => s.reload id row
    | _ => s)

/-- ROW_RECLAIM (R94), and the rows that device firmware gives to the allocator (R110, R111). -/
def execRowReclaim (s : State) : Host.Outcome State Fault Refusal :=
  .next (match s.inp with
    | .unit id => s.reclaim id
    | .donateRow tenant row => s.donateRow tenant row
    | _ => s)

/-- GATED_ROW_MOVE (R32). -/
def execGatedRowMove (s : State) : Host.Outcome State Fault Refusal :=
  .next (match s.inp with
    | .pair id row => s.gatedMove id row
    | _ => s)

/-- POST (R115). -/
def execPost (s : State) : Host.Outcome State Fault Refusal :=
  .next (match s.inp with
    | .unit t => s.post t
    | _ => s)

end Sys2Proof.Machine
end

