-- ==== Sys2Proof/Machine/Services.lean ====
section
/-!
DEFINITION. What the service units do on their own: the translation service (R170, R358), invalidations (R359 to R362), refresh and
the activation regulator (R268, R270), claims (R261), Encke (R283), exchanges (R331), the deadlock guard (R337), handback messages
(R322), launch packets (R368), the hot-page tracker (R365), and the end of a scrub (R371, R372).
-/
namespace Sys2Proof.Machine

/-- The condition that a thread's instruction waits for. -/
def Thread.waitsFor (th : Thread) : Option WaitCond := th.stall.map fun w => w.cond

namespace State

/-- The miss of a number. -/
def miss? (s : State) (id : Nat) : Option Miss := s.misses.find? (·.id == id)

/-- A miss changed. -/
def setMiss (s : State) (m : Miss) : State := { s with misses := s.misses.map fun n => if n.id = m.id then m else n }

/-- A miss is over. -/
def dropMiss (s : State) (id : Nat) : State := { s with misses := s.misses.filter (·.id != id) }

/-- Two misses are of one page of one ASID of a unit (R358). -/
def samePage (a b : Miss) : Bool := a.unit == b.unit && a.asid == b.asid && a.va.toNat / pageBytes == b.va.toNat / pageBytes

/-- The miss message of a miss (R170): bit 20 names the kind of executor whose TLB missed. -/
def missMessage (m : Miss) : List Word :=
  [m.va, m.row, .ofNat 64 (m.asid % 2 ^ 10 + m.tenant % 2 ^ 6 * 2 ^ 10 + m.privl % 4 * 2 ^ 16 + m.kind % 4 * 2 ^ 18 +
    (decide (640 ≤ m.unit)).toNat * 2 ^ 20), 0]

/-- The service has taken the message of a miss out of its mailbox. -/
def takeMessage (s : State) (m : Miss) : State := { s with missMail := s.missMail.erase (m.unit, missMessage m) }

/-- A miss message is posted into the mailbox of the unit's translation service (R170, R358): a walk of the page starts, or the running one
is joined. -/
def postMessage (s : State) (id : Nat) : State :=
  match s.miss? id with
  | none => s
  | some m =>
    if m.stage ≠ 0 then s else
      let running := s.misses.any fun n => n.id != id && samePage n m && (n.stage == 1 || n.stage == 2)
      let s : State := { s with missMail := s.missMail ++ [(m.unit, missMessage m)] }
      s.setMiss { m with stage := if running then 2 else 1 }

/-- Closes that wait for a page of a save area go on (R235). -/
def progressWriteBacks (s : State) : State :=
  s.threads.foldl (fun s t =>
    match s.thread? t.id with
    | none => s
    | some th => if th.closing.isSome ∧ s.accsDirty th then s.progressClose th.id false else s) s

/-- The service has found no mapping for a miss (R170, R235, R236, R305, R329, R358): a prefetch is dropped, an element, a write-back and a bind are
told so, a restore loses its accumulator, a unit of H.REHASH ends, and a waiting row faults, the fetch of a transfer's target with the address
of the transferring instruction (R132). -/
def noMappingReply (s : State) (m : Miss) : State :=
  if m.prefetch then s.dropMiss m.id else
    match m.thread.bind s.thread? with
    | none => s.setMiss { m with stage := 3 }
    | some th =>
      let s' := s.dropMiss m.id
      match th.waitsFor with
      | some (.translation _ _ va) =>
        if va ≠ m.va ∨ th.closing.isSome then s.setMiss { m with stage := 3 }
        else if (th.split.map (·.stage)) = some 1 then s'.failSplit th.id .pagefault va
        else
          let data := if m.kind = 2 then ((th.check.bind (·.source)).getD va) else va
          (s'.takeFault th.id .pagefault data).progressClose th.id false
      | some (.restore k va) =>
        if va ≠ m.va ∨ th.closing.isSome then s.setMiss { m with stage := 3 }
        else ((s'.setAccStatus th.row k 2 (s.accInc th.row k)).takeFault th.id .accfault 0).progressClose th.id false
      | _ => s.setMiss { m with stage := 3 }

/-- The misses that one walk serves (R358): those of its page that are posted or joined. -/
def joined (s : State) (m : Miss) : List Miss := s.misses.filter fun n => samePage n m && (n.stage == 1 || n.stage == 2)

/-- The translation service replies (R170, R358): a walk on M's newest lines that finds a mapping fills the TLB; one that finds none answers every miss
joined to it, which is made again where an invalidation overlapped the walk. -/
def translationReply (s : State) (id : Nat) : State :=
  match s.miss? id with
  | none => s
  | some m =>
    if (m.stage ≠ 1 ∧ m.stage ≠ 2) ∨ s.receiverGated m.unit then s
    else match s.reachWalk (serviceParty m.unit) m.tenant m.asid m.va.toNat with
    | .wait s _ => s
    | .ok s =>
      let s := (s.takeMessage m).dropClaims (serviceParty m.unit)
      match s.walk m.tenant m.asid m.va.toNat with
      | some (leaf, size) =>
        (s.fillTlb ⟨m.unit, m.asid, m.va.toNat / pageSize size * pageSize size, size, leaf⟩).progressWriteBacks
      | none =>
        let ms := s.joined m
        let again := ms.any fun n => n.cutOn (pageOf n.va.toNat) pageBytes
        (ms.foldl (fun s n => if again then s.dropMiss n.id else s.noMappingReply n) s).progressWriteBacks

/-- A receiver has acknowledged. -/
def acknowledged (s : State) (iv : Nat) (u : Nat) : State :=
  { s with invs := s.invs.map fun v => if v.id = iv then { v with waiting := v.waiting.filter (· != u) } else v }

/-- A receiver acknowledges an invalidation once its accesses have drained (R360, R361). -/
def tlbAck (s : State) (iv u : Nat) : State :=
  match s.invs.find? (·.id == iv) with
  | none => s
  | some v => if s.receiverGated u ∨ ! s.inFlight v u then s.acknowledged iv u else s

/-- The counter move of an invalidation (R359): every receiver has acknowledged. -/
def invalidationMove (s : State) (iv : Nat) : State :=
  match s.invs.find? (·.id == iv) with
  | none => s
  | some v =>
    if ! v.waiting.isEmpty ∨ s.outsideHeld v.counter then s else
      match s.reach (hubParty (2 ^ 62 + iv)) v.counter true with
      | .wait s _ => s
      | .ok s => { (s.counterMove v.counter 1 []).outsideTaken v.counter with invs := s.invs.filter (·.id != iv) }

/-- MSI-X vector 0 of each tenant of some rows is raised, and the reset is logged (R283, R362). -/
def reportReset (s : State) (rows : List Thread) (unit : Nat) : State :=
  let ts := (rows.map fun t => s.tenantOf t.row).eraseDups
  (ts.foldl (fun s t => s.raise t 0) s).logRec .reset [.ofNat 64 unit]

/-- Every DEFINED accumulator of a thread becomes LOST (R362). -/
def loseAccs (s : State) (th : Thread) : State :=
  let s := (List.range 4).foldl (fun s k => if s.accStatus th.row k = 1 then s.setAccStatus th.row k 2 (s.accInc th.row k) else s) s
  s.updThread th.id fun t => { t with accs := [], matrix := [] }

/-- An entry of an outside queue that a removed entry of a unit has translated (R362). -/
def lateEntry (s : State) (v : Invalidation) (u : Nat) (e : OQEntry) : Bool :=
  match entrySource e with
  | some (src, dp) => inFrames v dp && (match s.thread? src with
    | some th => s.usesUnit u v.asids th
    | none => true)
  | none => false

/-- The messages to other modules of a unit's threads in the range of an invalidation (R362): they are given up, and a thread that waits for
an answer asks again. -/
def dropMessages (s : State) (v : Invalidation) (u : Nat) : State :=
  let late (r : Remote) (t : Nat) : Option Nat :=
    if inRange v u (s.asidOfId t) r.va.toNat && (s.thread? t).any (s.usesUnit u v.asids) then some t else none
  let lateOf (r : Remote) : Option Nat := match r.kind with
    | .load a _ | .atomic a _ _ _ _ => late r a.id
    | .store t => late r t
    | _ => none
  let ids := s.remotes.filterMap lateOf
  let s : State := { s with remotes := s.remotes.filter fun r => (lateOf r).isNone }
  ids.foldl (fun s id => s.updThread id fun t => { t with asked := t.asked.filter fun k => decide (k % 2 ^ 70 < 2 ^ 60) }) s

/-- An access of a command or element has been translated by an entry that an invalidation removed from a unit (R360, R362): a translation that waits
for its move, or a message to another module. -/
def lateAccess (s : State) (v : Invalidation) (u : Nat) (a : AccessId) : Bool :=
  s.flights.any (fun f => f.acc == a && flightMeets v u f) ||
    s.remotes.any fun r => match r.kind with
      | .element op i | .index op i => a == .element op i && s.oneSided.any fun o => o.id == op && inRange v u o.asid r.va.toNat
      | .command k i => a == .command k i && (s.ctx k).cq.any fun c => inRange v u c.asid r.va.toNat
      | _ => false

/-- Element i of an operation of a unit is in flight for an invalidation (R360): of H.PROBE while a page of its tables lies in the range. -/
def lateElement (s : State) (v : Invalidation) (u : Nat) (o : OneSided) (i : Nat) : Bool :=
  o.unit == u && v.asids.contains o.asid && ! o.taken.contains i && ! o.failed.any (·.1 == i) && (match o.kind with
    | .probe h _ _ => h.pages.any fun g => inRange v u o.asid (g.1 * pageBytes)
    | _ => s.lateAccess v u (.element o.id i))

/-- Elements and update parts of a unit that are in flight for an invalidation end (R362). -/
def endLate (s : State) (v : Invalidation) (u : Nat) : State :=
  let late := s.parts.filter (s.partInFlight v u)
  let elements := s.oneSided.flatMap fun o => ((List.range o.n).filter (s.lateElement v u o)).map fun i => (o.id, i)
  let s := elements.foldl (fun s e => match s.oneSided.find? (·.id == e.1) with
    | none => s
    | some o => s.failElement o e.2 0x11) s
  late.foldl (fun s p => (s.finishPart p).abandonUnit p) s

/-- Contexts whose head command meets a test have it handed back (R322, R362). -/
def handBackIf (s : State) (p : Nat → EngCmd → Bool) : State :=
  s.ctxs.foldl (fun s c => match c.2.cq with
    | [] => s
    | h :: _ => if p c.1 h ∧ ! c.2.halt then
        s.handBack c.1 h 0x11 (((h.xfer c.2 (lowestLeft h)).src.head?.map (·.1)).getD h.src) else s) s

/-- A cluster reset for an invalidation (R362): its open rows stop FAULTED, with nothing of theirs left undone, the commands of its rows are
handed back, and nothing that a removed entry translated takes a move. -/
def clusterReset (s : State) (v : Invalidation) (u : Nat) : State :=
  let rows := s.threads.filter fun t => (t.exec == .tile || t.exec == .walker) && t.cluster == u
  let opens := rows.filter fun t => t.slot.isSome
  let ids := opens.map (·.id)
  let cut (t : Thread) : Thread :=
    (({ t with sb := if ids.contains t.id then [] else t.sb.filter fun e => ! (s.usesUnit u v.asids t && inRange v u (s.asidOf t.row) e.va.toNat) } :
      Thread)).cutQueue fun e => ! s.lateEntry v u e
  let stays (r : Remote) : Bool := match r.kind with
    | .load a _ | .atomic a _ _ _ _ => ! ids.contains a.id
    | .store t => ! ids.contains t
    | _ => true
  let s' : State := { s with threads := s.threads.map cut, remotes := s.remotes.filter stays }
  let s' := s'.dropMessages v u
  let s' := ids.foldl (fun s id => match s.thread? id with
    | none => s
    | some th =>
      let s := (s.loseAccs th).updThread id fun t => { t with split := none, heldCmds := [], heldPreempt := false }
      (th.heldCmds.foldl (fun s c => s.takeCommand id c) (s.takeFault id .watchdog 0)).progressClose id false) s'
  let s' := (s'.oneSided.filter fun o => ids.contains o.thread).foldl (fun s o => s.failRest o.id 0x11) s'
  ((s'.endLate v u).handBackIf fun _ h => h.unit == u).reportReset rows u

/-- A DRAM channel is reset (R283). The tenants told of it are those with a thread row, open or not, of the channel's executors (DESIGN CHOICE,
log entry 112). -/
def resetChannel (s : State) (stack ch : Nat) : State :=
  let here (l : BankLoc) : Bool := l.stack == stack && l.pch / 2 == ch
  let rows := s.threads.filter fun t => t.exec == .bank && t.place / 16384 == stack && t.place % 16384 / 512 == ch
  let subHere (sub : Nat) : Bool := sub / 131072 == stack && sub % 131072 / 4096 == ch
  let s := s.subs.foldl (fun s b => match b.buf with
    | .held r id => if subHere b.sub then
        (match s.thread? id with
         | some th => (s.setHold th.row (b.sub % 8) 3 r).setBuf b.sub .free
         | none => s.setBuf b.sub .free) else s
    | .opened _ => if subHere b.sub then s.setBuf b.sub .free else s
    | _ => s) s
  let s := s.shadows.foldl (fun s h => match s.locate h.row, s.thread? h.thread with
    | some l, some th => if here l then s.pokeWord (th.row + 0x7E0) (setField (s.bstat th.row) 1 1 1) else s
    | _, _ => s) s
  let s := (rows.filter fun t => t.slot.isSome).foldl (fun s t => (s.takeFault t.id .watchdog 0).progressClose t.id false) s
  let s := s.updStack stack fun r => { r with resets := min 65535 (r.resets + 1) }
  s.reportReset rows (640 + stack)

/-- The bucket that a probe element reads next (R298). -/
def probeRows (s : State) (o : OneSided) (i : Nat) : List (Nat × Nat) :=
  match o.kind with
  | .probe h tbl sigs =>
    let p := (o.probes.find? (·.index == i)).getD ⟨i, h.kb, sigs.getD i 0 % 2 ^ h.kb, [], 0, false⟩
    s.bucketParts h (tbl + i) (if p.split then p.bucket + 2 ^ p.d else p.bucket)
  | _ => []

/-- The channels of a stack that hold an access in flight for an invalidation (R362): that of a thread whose store buffer holds one, of an
open row whose outside queue does, and of the rows that a translated access of an element or command, a probe element or an update part reaches. -/
def channelsInFlight (s : State) (v : Invalidation) (u : Nat) : List Nat :=
  let stack := u - 640
  let chanOf (dp : Nat) : Option Nat := (s.locate dp).bind fun l => if l.stack = stack then some (l.pch / 2) else none
  let own (th : Thread) : Option Nat := if th.exec = .bank ∧ th.place / 16384 = stack then some (th.place % 16384 / 512) else none
  let buffers := s.threads.filterMap fun th =>
    if s.usesUnit u v.asids th ∧ (th.sb.any fun e => inRange v u (s.asidOf th.row) e.va.toNat) then own th else none
  let queues := s.threads.filterMap fun th => if th.oq.any (s.lateEntry v u) then own th else none
  let flights := (s.flights.filter (flightMeets v u)).flatMap fun f => f.src ++ f.dst
  let probes := s.oneSided.flatMap fun o => ((List.range o.n).filter (s.lateElement v u o)).flatMap (s.probeRows o)
  let updates := (s.parts.filter (s.partInFlight v u)).flatMap fun p => let r := s.partRows p; r.1 ++ r.2
  (buffers ++ queues ++ (flights ++ probes ++ updates).filterMap fun p => chanOf p.1).eraseDups

/-- A stack's straggling accesses are dropped, and their channels reset (R362). -/
def stackReset (s : State) (v : Invalidation) (u : Nat) : State :=
  let chs := s.channelsInFlight v u
  let cut (t : Thread) : Thread :=
    (({ t with sb := if s.usesUnit u v.asids t then t.sb.filter fun e => ! inRange v u (s.asidOf t.row) e.va.toNat else t.sb } : Thread)).cutQueue
      fun e => ! s.lateEntry v u e
  let s' : State := { s with threads := s.threads.map cut }
  let late (k : Nat) (h : EngCmd) : Bool := h.unit == u && v.asids.contains h.asid &&
    (List.range h.accesses).any fun i => s.lateAccess v u (.command k i)
  let s' := ((s'.dropMessages v u).endLate v u).handBackIf late
  chs.foldl (fun s c => s.resetChannel (u - 640) c) s'

/-- A receiver that has not acknowledged within 8 microseconds, an access of it being in flight, is reset, and the counter advances without it
(R362). -/
def straggler (s : State) (iv u : Nat) : State :=
  match s.invs.find? (·.id == iv) with
  | none => s
  | some v =>
    if ! v.waiting.contains u ∨ s.now < v.sent + 8000 ∨ s.receiverGated u ∨ ! s.inFlight v u then s
    else (if u < 640 then s.clusterReset v u else s.stackReset v u).acknowledged iv u

/-- A refresh of a subarray (R268). -/
def refreshSub (s : State) (sub : Nat) : State :=
  let b := s.subarray sub
  match b.buf with
  | .free => s
  | .opened _ => s.setBuf sub .free
  | _ => s.setSub { b with refreshing := true }

/-- The stack and pseudo-channel of a subarray (R273). -/
def subPlace (sub : Nat) : Nat × Nat := (sub / 131072, sub % 131072 / 2048)

/-- The row that a refresh has closed is activated again (R268, R270, R272). -/
def reactivate (s : State) (sub : Nat) : State :=
  let b := s.subarray sub
  let (st, pch) := subPlace sub
  if ! b.refreshing ∨ ! s.regulatorFree st pch then s
  else (s.charge st pch).setSub { b with refreshing := false }

/-- The activate that has waited longest is one that its own party makes when it is granted: a thread row that opens, a shadow's copy, or a
swap (R109, R260, R277). -/
def takesGrant (s : State) (key : Nat) : Bool :=
  let at_ (row : Nat) : Bool := (s.locate row).any fun l => l.subId * 256 + l.rown == key
  s.threads.any (fun th => s.isReady th && at_ th.row) || s.shadows.any (fun h => ! h.copied && at_ h.row) ||
    s.threads.any fun th => match th.waitsFor with
      | some (.buffer sub row) => sub == key / 256 && at_ row && (s.occupant? sub) == some th.id
      | _ => false

/-- The regulator grants the activate that has waited longest (R270). -/
def grant (s : State) (stack : Nat) : State :=
  match (s.stackRegs[stack]?).bind fun r => r.waiting.head? with
  | none => s
  | some key =>
    let sub := key / 256
    let (_, pch) := subPlace sub
    if ! s.regulatorFree stack pch ∨ s.refreshPending stack ∨ s.takesGrant key then s else
      let s := s.updStack stack fun r => { r with waiting := r.waiting.drop 1 }
      match (s.subarray sub).buf with
      | .free | .opened _ => (s.charge stack pch).setBuf sub (.opened (key % 256))
      | _ => s

/-- A claim has waited 2,048 cycles (R261): the occupant closes as in a pre-emption. -/
def claimTimeout (s : State) (sub : Nat) : State :=
  match (s.subarray sub).claims, s.occupant? sub with
  | c :: _, some id =>
    if s.islandTicks (16 + sub / 393216) < c.2 + 2048000 then s else
      match s.thread? id with
      | none => s
      | some th => if s.mayPreempt th then s.preempt th else s
  | _, _ => s

/-- A pre-emption has been deferred for LIM1 cycles (R283): the row faults. -/
def encke (s : State) (id : Nat) : State :=
  match s.thread? id with
  | none => s
  | some th => if ! s.enckeDue th then s else (s.takeFault id .watchdog 0).progressClose id false

/-- A channel whose row has not come to a boundary within LIM1 and LIM2 cycles is reset (R283). -/
def channelReset (s : State) (stack ch : Nat) : State :=
  let late := s.threads.any fun th => th.exec == .bank && th.place / 16384 == stack && th.place % 16384 / 512 == ch &&
    th.slot.isSome && (match th.deferred with
      | some t => decide ((s.enckeLimits th).1 + (s.enckeLimits th).2 ≤ s.cyclesSince th t)
      | none => false)
  if late then s.resetChannel stack ch else s

/-- A slot boundary of a domain passes (R331, R343): the rows that wait for it become READY. -/
def slotBoundary (s : State) (name : Nat) : State :=
  s.threads.foldl (fun s t => match t.waitsFor with
    | some (.slot n _ _ _) => if n = name then s.waitWake t.id else s
    | _ => s) s

/-- The queue that a thread is blocked pushing to (R337): its number in the thread's cluster. -/
def pushTarget (th : Thread) : Option Nat :=
  match th.waitsFor with
  | some (.queue _ q 0 _) => some q
  | _ => none

/-- The threads of a cluster that have been blocked pushing to a full queue for 1,024 cycles (R337). -/
def blockedPushers (s : State) (cluster : Nat) : List Thread :=
  s.threads.filter fun th => th.exec == .tile && th.cluster == cluster && (s.logical th == 3 || s.logical th == 4) &&
    (match pushTarget th with
     | some q => (match s.queue? cluster q with
       | some u => decide (u.cap ≤ u.items.length)
       | none => false)
     | none => false) && decide (1024 ≤ s.cyclesSince th th.stalledAt)

/-- A thread's QPORT binds a queue (R337). -/
def bindsQueue (s : State) (th : Thread) (q : Nat) : Bool :=
  (List.range 4).any fun k => s.qport th.row k / 2 ^ 15 == 1 && s.qport th.row k % 2 ^ 8 == q

/-- The largest blocked cycle among some threads (R337): members some binder of whose target is outside are taken out. -/
def blockedCycle (s : State) (cluster : Nat) : Nat → List Thread → List Thread
  | 0, c => c
  | n + 1, c =>
    let keep := c.filter fun th => match pushTarget th with
      | none => false
      | some q => s.threads.all fun u => ! (u.exec == .tile && u.cluster == cluster && s.code u.row != 0 && s.bindsQueue u q) ||
          c.any (·.id == u.id)
    if keep.length = c.length then c else blockedCycle s cluster n keep

/-- The deadlock guard of a cluster (R337): a full target queue grows by 16 entries of the pool, or every blocked thread faults. -/
def deadlockGuard (s : State) (cluster : Nat) : State :=
  let all := s.blockedPushers cluster
  let c := s.blockedCycle cluster all.length all
  let targets := s.queues.filter fun u => u.cluster == cluster && c.any fun th => pushTarget th == some u.num
  let least := targets.foldl (fun (b : Option Queue) u => match b with
    | none => some u
    | some v => if u.cap < v.cap ∨ (u.cap = v.cap ∧ u.num < v.num) then some u else b) none
  match least with
  | none => s
  | some u =>
    if s.poolUsed cluster + 16 ≤ 8192 then
      { s with queues := s.queues.map fun v => if v.cluster = cluster ∧ v.num = u.num then { v with cap := v.cap + 16 } else v }
    else c.foldl (fun s th => (s.takeFault th.id .qdeadlock 0).progressClose th.id false) s

/-- The tenant that a context is allotted to (R316). -/
def ctxTenant? (s : State) (k : Nat) : Option Tenant :=
  s.tenants.find? fun t => decide (field t.allot 16 9 ≤ k ∧ k < field t.allot 16 9 + field t.allot 25 10)

/-- A handback message (R322). -/
def handbackMessage (k : Nat) (h : Handback) : Line :=
  leLine (([h.row, .ofNat 64 h.num, h.va, .ofNat 64 h.index,
    (.ofNat 64 (h.cause.code + 3 * 2 ^ 8 + k % 512 * 2 ^ 16 + h.kind % 8 * 2 ^ 25) : Word), 0, 0, 0]).flatMap wordBytes)

/-- The oldest handback message of a context is posted (R322, R394): into its fault ring, the tenant's mailbox or the device log. -/
def handbackPost (s : State) (k : Nat) : State :=
  let x := s.ctx k
  match x.pending with
  | [] => s
  | h :: rest =>
    let done (s : State) : State := s.setCtx k { s.ctx k with pending := rest, handbacks := (s.ctx k).handbacks + 1 }
    let logIt (s : State) (tenant : Nat) : State :=
      (s.logRec .handback [h.row, .ofNat 64 h.num, h.va, .ofNat 64 h.index, .ofNat 64 (h.cause.code + k * 2 ^ 16)]).raise tenant 0
    match s.ctxTenant? k with
    | none => logIt (done s) 0
    | some t =>
      if x.rbase = 0 then (done s).setTenant { t with posts := t.posts ++ [(handbackMessage k h, noThread)] }
      else
        let va := x.rbase + x.handbacks % 2 ^ x.rsz * 64
        match (s.hubTranslate t va .write).bind fun dp => if s.inTile dp then some dp else none with
        | none => logIt (done s) t.num
        | some dp => if ! s.slotFree dp then s else match s.reachPosting t va with
          | .wait s _ => s
          | .ok s => (done s).putSlot dp (handbackMessage k h)

/-- The identity that a launched row takes from a tenant and a requested privilege (R368); no rule says which ASID of the tenant. -/
def launchIdent (t : Tenant) (priv : Nat) : Nat :=
  t.num % 64 + (t.asidFirst + Config.launchAsid t.num % max 1 t.asidCount) % 1024 * 2 ^ 6 + priv * 2 ^ 16

/-- A sequence number lies behind the expected one (R368). -/
def behind (expected n : Nat) : Bool := n != expected && decide ((expected + 2 ^ 32 - n) % 2 ^ 32 < 2 ^ 31)

/-- The slot of a launch queue as the queue logic reads it (R259, R272, R368, R394): its address and word 0; none where it has no mapping, or while its
walk or its row cannot be reached. -/
def packetWord (s : State) (t : Tenant) (i : Nat) : State × Option (Nat × Word) :=
  match s.reachPosting t (ringVa t.lqb i) with
  | .wait s _ => (s, none)
  | .ok s => match s.hubTranslate t (ringVa t.lqb i) .rmw with
    | none => (s, none)
    | some dp => match s.reach (hubParty (rowOf dp)) dp false with
      | .wait s _ => (s, none)
      | .ok s => (s, some (dp, s.word64 dp))

/-- Slot i of a tenant's launch queue is examined (R368, R370): a packet behind the expected sequence is logged as a violation, once. -/
def examineSlot (s : State) (tenant i : Nat) : State :=
  match s.tenant? tenant with
  | none => s
  | some t => match s.packetWord t i with
    | (s, none) => s
    | (s, some (dp, w)) =>
      let others := t.staleLaunch.filter (·.1 != i)
      if field w 63 1 = 1 ∧ behind (t.lqSeq % 2 ^ 32) (field w 0 32) then
        (if t.staleLaunch.contains (i, w) then s else
          (s.setTenant { t with staleLaunch := (i, w) :: others }).violate tenant 10 (.ofNat 64 dp) 0 tenant (s.modid.toNat % 4096) false)
      else s.setTenant { t with staleLaunch := others }

/-- The slots of a launch queue are examined (R368). -/
def logStale (s : State) (tenant : Nat) : State :=
  match s.tenant? tenant with
  | none => s
  | some t => (List.range (2 ^ ringLog t.lqb)).foldl (fun s i => s.examineSlot tenant i) s

/-- The status that the hub writes into a packet's word 0 (R368). -/
def launchStatus (w : Word) (n : Nat) : Word := setField (setField w 63 1 0) 32 8 n

/-- The next packet of a launch queue is taken (R368). -/
def takePacket (s : State) (t : Tenant) : State :=
  s.setTenant { t with lqSeq := (t.lqSeq + 1) % 2 ^ 32, lqTaken := (t.lqTaken + 1) % 2 ^ 32 }

/-- A packet is refused (R368). -/
def refusePacket (s : State) (t : Tenant) (dp : Nat) (w : Word) : State :=
  let s := (s.takePacket t).hubPoke dp (wordBytes (launchStatus w 2))
  let s := s.violate t.num 10 (.ofNat 64 dp) 0 t.num (s.modid.toNat % 4096) false
  if field w 62 1 = 1 then s.raise t.num 0 else s

/-- A packet is launched in a row placed with a handle (R368). -/
def launchPacket (s : State) (t : Tenant) (dp row handle : Nat) : State :=
  let w := s.word64 dp
  let desc := s.word64 (dp + 16)
  let xs := (List.range 4).map fun i => s.word64 (dp + 32 + 8 * i)
  let s := (s.takePacket t).placeRow row handle (launchIdent t (field desc 9 2)) (field desc 0 8) (s.word64 (dp + 8)).toNat
    (field desc 11 1 == 1) xs
  let va := match s.threadAt? row with
    | some u => s.rowVa u
    | none => 0
  let s := s.hubPoke dp (wordBytes (launchStatus w 1) ++ wordBytes va)
  if field w 62 1 = 1 then s.raise t.num 2 else s

/-- A packet asks for a privilege that the tenant may not launch, or the tenant is being scrubbed (R368, R371). -/
def packetBanned (s : State) (t : Tenant) (dp : Nat) : Bool :=
  let priv := field (s.word64 (dp + 16)) 9 2
  decide (field t.lqp 0 2 < priv) || priv == 3 || (s.scrub.map (·.tenant)) == some t.num

/-- The packet that the next slot of a launch queue holds is served (R368): refused for its privilege, or as TH.SPAWN is, its hint walked (R272,
R394): a row placed with a handle, or (handle 0) a refusal. -/
def servePacket (s : State) (t : Tenant) (dp row handle : Nat) : State :=
  let tier := field (s.word64 (dp + 16)) 8 1
  let hintVa := (s.word64 (dp + 24)).toNat
  let hint := s.hubTranslate t hintVa .read
  if s.packetBanned t dp then s.refusePacket t dp (s.word64 dp)
  else if handle = 0 then
    (if ! s.refuses hint tier then s else match s.reachPosting t hintVa with
      | .wait s _ => s
      | .ok s => s.refusePacket t dp (s.word64 dp))
  else if ! s.chosen hint tier row ∨ ! s.handleFree handle then s
  else match s.reachPosting t hintVa with
    | .wait s _ => s
    | .ok s => match s.reach (hubParty row) row true with
      | .wait s _ => s
      | .ok s => s.launchPacket t dp row handle

/-- The queue logic examines a tenant's launch queue (R368, R394): packets behind the expected sequence are logged, and the packet that has
the expected one is taken. -/
def launch (s : State) (tenant row handle : Nat) : State :=
  let s := s.logStale tenant
  match s.tenant? tenant with
  | none => s
  | some t =>
    let va := ringVa t.lqb t.lqSeq
    match s.reachPosting t va with
    | .wait s _ => s
    | .ok s => match s.hubTranslate t va .rmw with
      | none => s.logRec .launch [.ofNat 64 va]
      | some dp => match s.reach (hubParty (rowOf dp)) dp false with
        | .wait s _ => s
        | .ok s =>
          let w := s.word64 dp
          if field w 63 1 = 1 ∧ field w 0 32 = t.lqSeq % 2 ^ 32 then s.servePacket t dp row handle else s

/-- Whether a page may begin to move (R365): not PIN, with no THREAD or HELD buffer, no group shadow and no access waiting at its entry. -/
def mayMove (s : State) (page : Nat) : Bool :=
  let inPage (l : BankLoc) : Bool := (List.range 32).any fun i => s.locate (page * pageBytes + 2048 * i) == some l
  ! (s.dpitOf page).pin && (s.dpitOf page).waiting.isEmpty &&
    s.subs.all (fun b => match b.buf with
      | .thread r | .held r _ => ! inPage ⟨b.sub / 131072, b.sub / 8, b.sub % 8, r, b.sub % 131072 / 2048⟩
      | _ => true) &&
    s.shadows.all (fun h => h.row / pageBytes != page)

/-- A frame that the tracker may take: one of the pool that device firmware has donated, mapped by no entry (R365). -/
def frameFree (s : State) (stack frame : Nat) : Bool :=
  s.trackerPool.contains (stack, frame) &&
    s.dpit.all fun d => d.loc1 != .frame stack frame && (d.loc2 != .frame stack frame || d.st == .home || d.st == .far)

/-- What the tracker has seen of a page in the period that ends (R365). -/
def useOf (s : State) (page : Nat) : Option PageUse := s.pageUse.find? (·.page == page)

/-- One choice of the tracker (R365): a hot FAR page, one accessed in the period, a cold HOME page, one that was not, or a page that two stacks
have read and nobody has written. -/
def trackerMove (s : State) : TrackerMove → State
  | .toFrame page stack frame =>
    let d := s.dpitOf page
    if d.st = .far ∧ (s.useOf page).isSome ∧ s.mayMove page ∧ s.frameFree stack frame then s.setDpit { d with st := .moving, loc2 := .frame stack frame } else s
  | .toFar page fpn =>
    let d := s.dpitOf page
    (match d.loc1 with
     | .frame st _ =>
       if d.st = .home ∧ (s.useOf page).isNone ∧ s.mayMove page ∧ fpn * pageBytes < s.fars.toNat ∧
          ((s.trackerPool.filter fun p => p.1 == st && s.frameFree st p.2).length < Config.trackerWatermark st) then
         s.setDpit { d with st := .moving, loc2 := .far fpn } else s
     | .far _ => s)
  | .duplicate page stack frame =>
    let d := s.dpitOf page
    if d.st = .home ∧ (s.useOf page).any (fun u => ! u.wrote && decide (2 ≤ u.readers.length)) ∧ s.mayMove page ∧
        s.frameFree stack frame then s.setDpit { d with st := .dup, loc2 := .frame stack frame } else s

/-- The stack that a choice of the tracker is counted for. -/
def moveStack (s : State) : TrackerMove → Nat
  | .toFrame _ stack _ => stack
  | .duplicate _ stack _ => stack
  | .toFar page _ => match (s.dpitOf page).loc1 with
    | .frame st _ => st
    | .far _ => 24

/-- Device firmware gives the tracker a frame (R365): one that no entry maps but its own page's, which lies in no tenant's window. -/
def donateFrame (s : State) (stack frame : Nat) : State :=
  let home := stack * 2 ^ 20 + frame
  let d := s.dpitOf home
  if 24 ≤ stack ∨ 2 ^ 20 ≤ frame ∨ s.trackerPool.contains (stack, frame) ∨ d.st ≠ .home ∨
     (s.tenants.any fun t => (t.window? (home * pageBytes)).isSome) ∨
     s.dpit.any (fun e => e.page != home && (e.loc1 == .frame stack frame || (e.loc2 == .frame stack frame && e.st != .home))) then s
  else { s with trackerPool := s.trackerPool ++ [(stack, frame)] }

/-- A period of the tracker, of 1 ms (R365): at most 256 moves of a stack. -/
def trackerPeriod (s : State) (ms : List TrackerMove) : State :=
  if s.now < s.trackerAt + 1000000 ∨ (List.range 24).any fun k => decide (256 < (ms.filter fun m => s.moveStack m == k).length) then s
  else { ms.foldl trackerMove s with pageUse := [], trackerAt := s.now }

/-- A move of a page is finished (R365): the destination's in one rewrite, and the source frame goes back to the pool. -/
def moveDone (s : State) (page : Nat) : State :=
  let d := s.dpitOf page
  if d.st ≠ .moving then s else
    let s := match d.loc1 with
      | .frame st f => { s with trackerPool := (st, f) :: s.trackerPool.filter (· != (st, f)) }
      | .far _ => s
    let s := match d.loc2 with
      | .frame st f => { s with trackerPool := s.trackerPool.filter (· != (st, f)) }
      | .far _ => s
    s.setDpit { d with st := match d.loc2 with
                         | .frame _ _ => .home
                         | .far _ => .far, loc1 := d.loc2, loc2 := .frame 0 0 }

/-- The buffers that hold a row of a page at a location leave it (R365). -/
def freeCopies (s : State) (page : Nat) (loc : PageLoc) : State :=
  (List.range 32).foldl (fun s i => match s.locateIn loc (page * pageBytes + rowBytes * i) with
    | some l => if (s.subarray l.subId).buf = .opened l.rown then s.setBuf l.subId .free else s
    | none => s) s

/-- A reverted page is HOME at its primary (R365), every buffer that held a row of the copy having given it up. -/
def revertDone (s : State) (page : Nat) : State :=
  let d := s.dpitOf page
  if d.st ≠ .revert then s else (s.freeCopies page d.loc2).setDpit { d with st := .home, loc2 := .frame 0 0 }

/-- The device-physical ranges of a tenant's windows. -/
def windowRanges (ws : List (Nat × Word × Word)) : List (Nat × Nat) :=
  ws.filterMap fun w =>
    let n := field w.2.2 0 32
    if n = 0 then none else some (field w.2.1 16 32 * 2 ^ 16, n * pageBytes)

/-- The rows of a page that exist (R363). -/
def rowsOfPage (s : State) (a : Nat) : Nat :=
  ((List.range 32).filter fun i => match s.region (a + rowBytes * i) with
    | .hole | .control | .core => false
    | _ => true).length

/-- The bytes of a receipt before its signature (R372). -/
def receiptBody (s : State) (sc : Scrub) (t : Tenant) : List Byte :=
  let keys := (List.range t.keyCount).foldl (fun n i => n + 2 ^ ((t.keyFirst + i) % 256)) 0
  let windows := (List.range 64).flatMap fun w =>
    let r := ((sc.windows.find? (·.1 == w)).map (·.2)).getD (0, 0)
    wordBytes r.1 ++ wordBytes r.2
  leBytes 4 1 ++ leBytes 1 t.num ++ List.replicate 3 0 ++ wordBytes t.engagement ++
    leBytes 8 (Config.receiptSerial + s.receiptCount) ++ leBytes 8 sc.startTime ++ leBytes 8 s.now ++
    leBytes 8 sc.tileRows ++ leBytes 8 sc.dramRows ++ leBytes 4 sc.accTiles ++ leBytes 4 sc.poolEntries ++
    leBytes 32 keys ++ sha384 windows ++ leBytes 48 Config.certificateDigest.toNat ++
    s.mem.bytes (sc.area + 0xC0) 32 ++ List.replicate 32 0

/-- Step 3 of a scrub is over: no element, HAPPLY or thread of the tenant is left at work (R371). -/
def scrubQuiet (s : State) (tenant : Nat) : Bool :=
  s.oneSided.all (·.tenant != tenant) && s.parts.all (·.tenant != tenant) &&
    s.threads.all fun t => s.tenantOf t.row != tenant || (t.slot.isNone && t.closing.isNone && s.code t.row == 0)

/-- Steps 4 to 6 of a scrub (R371): the tenant's rows are zeroed, each one of the stacks with its activate charged, and its units, keys and
counts cleared. -/
def scrubErase (s : State) (t : Tenant) (sc : Scrub) : State :=
  let ranges := windowRanges sc.windows
  let mine := s.threads.filter fun th => s.tenantOf th.row == t.num
  let outside := mine.filter fun th => ! ranges.any fun r => decide (r.1 ≤ th.row ∧ th.row < r.1 + r.2)
  let all := ranges ++ outside.map fun th => (th.row, rowBytes)
  let zeroed (a : Nat) : Bool := all.any fun r => decide (r.1 ≤ a ∧ a < r.1 + r.2)
  let pages := ranges.flatMap fun r => (List.range (r.2 / pageBytes)).map fun i => r.1 + pageBytes * i
  let tileRows := ((pages.filter s.inTile).map s.rowsOfPage).sum + (outside.filter fun th => s.inTile th.row).length
  let dramRows := ((pages.filter fun p => ! s.inTile p).map s.rowsOfPage).sum + (outside.filter fun th => ! s.inTile th.row).length
  let gone := mine.map (·.id)
  let allot (k : Nat) : Bool := decide (field t.allot 16 9 ≤ k ∧ k < field t.allot 16 9 + field t.allot 25 10)
  let keep := s.threads.filter fun th => ! gone.contains th.id
  let placed := (mine.filter fun th => s.tagOf th.row == .placed && ! th.evicted).map (·.row)
  let dramOnes := ((pages.filter fun p => ! s.inTile p).flatMap fun p => (List.range 32).map fun i => p + rowBytes * i) ++
    (outside.filter fun th => ! s.inTile th.row).map (·.row)
  let s := dramOnes.foldl (fun s a => match s.locate a with
    | some l => s.charge l.stack l.pch
    | none => s) s
  let clean (th : Thread) : Thread := { th with view := th.view.filter fun v => ! zeroed v.1 }
  let s : State := { s with
    mem := s.mem.filter fun c => ! zeroed c.1
    hist := s.hist.filter fun h => ! zeroed h.line
    gran := s.gran.filter fun g => ! zeroed g.1
    bad := s.bad.filter fun b => ! zeroed b
    tags := s.tags.filter fun g => ! zeroed g.1
    threads := keep.map clean
    freeRows := s.freeRows ++ placed
    queues := s.queues.filter (·.tenant != t.num)
    ringWrites := s.ringWrites.filter (·.tenant != t.num)
    syncs := s.syncs.filter fun o => o.1.1 != t.num
    domains := s.domains.filter (·.tenant != t.num)
    shadows := s.shadows.filter fun h => ! gone.contains h.thread
    ctxs := s.ctxs.filter fun c => ! allot c.1
    keys := s.keys.filter fun k => ! decide (t.keyFirst ≤ k.1 ∧ k.1 < t.keyFirst + t.keyCount)
    scrub := some { sc with tileRows := tileRows, dramRows := dramRows } }
  (s.setTenant { t with wacnt := [] }).dropClaims (hubParty (2 ^ 60 + t.num))

/-- Steps 4 to 7 of a scrub (R371, R372): the rows are zeroed, the receipt is written and its counter moves, and the tenant is free. The receipt's
area lies in one row, which is reached for its write (R259, R272), between two issues where it is an open thread row (R76). -/
def scrubComplete (s : State) : State :=
  match s.scrub with
  | none => s
  | some sc =>
    if ! s.scrubQuiet sc.tenant then s else
      match s.tenant? sc.tenant with
      | none => { s with scrub := none }
      | some t => if s.outsideHeld sc.area then s else match s.reach (hubParty sc.area) sc.area true with
      | .wait s _ => s
      | .ok s =>
        let s := s.scrubErase t sc
        let body := s.receiptBody (s.scrub.getD sc) t
        let sig := Config.deviceSign (.ofNat 384 (leNat (sha384 body)))
        let receipt := body ++ leBytes 48 (sig.extractLsb' 0 384).toNat ++ leBytes 48 (sig.extractLsb' 384 384).toNat
        let s := (((s.pokeAll sc.area receipt).setGran sc.area receipt.length .full).counterMove (sc.area + 0x1F0) 1 []).outsideTaken sc.area
        { s with scrub := none, tenants := s.tenants.filter (·.num != sc.tenant), receiptCount := s.receiptCount + 1
                 receipts := assocSet s.receipts sc.tenant receipt }

end State

/-- TRANSLATION_MISS_POST (R170, R358). -/
def execTranslationMissPost (s : State) : Host.Outcome State Fault Refusal :=
  .next (match s.inp with
    | .unit id => s.postMessage id
    | _ => s)

/-- TRANSLATION_REPLY (R358). -/
def execTranslationReply (s : State) : Host.Outcome State Fault Refusal :=
  .next (match s.inp with
    | .unit id => s.translationReply id
    | _ => s)

/-- TLB_ACK (R360). -/
def execTlbAck (s : State) : Host.Outcome State Fault Refusal :=
  .next (match s.inp with
    | .pair iv u => s.tlbAck iv u
    | _ => s)

/-- INVALIDATION_COUNTER_MOVE (R359). -/
def execInvalidationCounterMove (s : State) : Host.Outcome State Fault Refusal :=
  .next (match s.inp with
    | .unit iv => s.invalidationMove iv
    | _ => s)

/-- STRAGGLER_RESET (R362). -/
def execStragglerReset (s : State) : Host.Outcome State Fault Refusal :=
  .next (match s.inp with
    | .pair iv u => s.straggler iv u
    | _ => s)

/-- SUBARRAY_REFRESH (R268). -/
def execSubarrayRefresh (s : State) : Host.Outcome State Fault Refusal :=
  .next (match s.inp with
    | .unit sub => s.refreshSub sub
    | _ => s)

/-- REFRESH_REACTIVATE (R268). -/
def execRefreshReactivate (s : State) : Host.Outcome State Fault Refusal :=
  .next (match s.inp with
    | .unit sub => s.reactivate sub
    | _ => s)

/-- ACTIVATE_GRANT (R270). -/
def execActivateGrant (s : State) : Host.Outcome State Fault Refusal :=
  .next (match s.inp with
    | .unit stack => s.grant stack
    | _ => s)

/-- CLAIM_TIMEOUT (R261). -/
def execClaimTimeout (s : State) : Host.Outcome State Fault Refusal :=
  .next (match s.inp with
    | .unit sub => s.claimTimeout sub
    | _ => s)

/-- ENCKE_WATCHDOG (R283). -/
def execEnckeWatchdog (s : State) : Host.Outcome State Fault Refusal :=
  .next (match s.inp with
    | .unit id => s.encke id
    | _ => s)

/-- CHANNEL_RESET (R283). -/
def execChannelReset (s : State) : Host.Outcome State Fault Refusal :=
  .next (match s.inp with
    | .pair stack ch => s.channelReset stack ch
    | _ => s)

/-- SLOT_BOUNDARY (R331). -/
def execSlotBoundary (s : State) : Host.Outcome State Fault Refusal :=
  .next (match s.inp with
    | .unit name => s.slotBoundary name
    | _ => s)

/-- DEADLOCK_GUARD (R337). -/
def execDeadlockGuard (s : State) : Host.Outcome State Fault Refusal :=
  .next (match s.inp with
    | .unit c => s.deadlockGuard c
    | _ => s)

/-- HANDBACK_POST (R322). -/
def execHandbackPost (s : State) : Host.Outcome State Fault Refusal :=
  .next (match s.inp with
    | .unit k => s.handbackPost k
    | _ => s)

/-- LAUNCH_PACKET (R368). -/
def execLaunchPacket (s : State) : Host.Outcome State Fault Refusal :=
  .next (match s.inp with
    | .triple t row handle => s.launch t row handle
    | _ => s)

/-- TRACKER_PERIOD (R365), and the frames that device firmware gives the tracker. -/
def execTrackerPeriod (s : State) : Host.Outcome State Fault Refusal :=
  .next (match s.inp with
    | .tracker ms => s.trackerPeriod ms
    | .donate stack frame => s.donateFrame stack frame
    | _ => s)

/-- DPIT_MOVE_DONE (R365). -/
def execDpitMoveDone (s : State) : Host.Outcome State Fault Refusal :=
  .next (match s.inp with
    | .unit page => s.moveDone page
    | _ => s)

/-- DPIT_REVERT_DONE (R365). -/
def execDpitRevertDone (s : State) : Host.Outcome State Fault Refusal :=
  .next (match s.inp with
    | .unit page => s.revertDone page
    | _ => s)

/-- SCRUB_COMPLETE (R371). -/
def execScrubComplete (s : State) : Host.Outcome State Fault Refusal := .next s.scrubComplete

end Sys2Proof.Machine
end

