-- ==== Sys2Proof/Machine/Hub.lean ====
section
/-!
DEFINITION. What the host and the power supply do to the module: resets and the boot (R22 to R28), the mailbox (R25, R26, R374), CXL.mem
(R26, R88, R373), and SPDM (R367, R373).
-/
namespace Sys2Proof.Machine

namespace State

/-- The module restarts at stage 0 (R22, R23, R26): what is not volatile stays, the flash, the rollback counter and the device log. -/
def restart (s : State) (powered : Bool) : State :=
  { State.reset with
    agenda := s.agenda, fresh := s.fresh, now := s.now, log := s.log, receiptCount := s.receiptCount
    boot := { Boot.reset with powered := powered, flash := s.boot.flash, rollback := s.boot.rollback } }

/-- Islands come up (R22). -/
def raiseIslands (s : State) (ns : List Nat) : State :=
  ns.foldl (fun s n => s.updIsland n fun i => { i with req := 0, st := 0 }) s

/-- The verification of image k (R24, R28): 0, or the ERR code of what failed. -/
def verifyImage (s : State) (k : Nat) (img : FwImage) : Nat :=
  let err :=
    if ! Config.signatureHolds img.digest img.signature then 1
    else if img.version.toNat < s.boot.rollback.toNat then 2
    else 0
  if err ≠ 0 ∧ k = 4 then 7 else err

/-- The boot stops at its stage and waits for an image (R25), with the host link up: in stage 1 mask ROM brings it up for this, and in stage 2 its
island comes up before a later image is read (R22). -/
def enterRecovery (s : State) (err : Nat) : State :=
  let s := if s.boot.stage = 1 ∨ s.boot.stage = 2 then s.raiseIslands [29] else s
  let s : State := { s with boot := { s.boot with recov := true, err := err } }
  s.logRec .boot [.ofNat 64 err, .ofNat 64 s.boot.stage]

/-- Images of the flash are verified in turn (R24, R25): the state, and whether all have verified. -/
def verifyImages (s : State) : List Nat → State × Bool
  | [] => (s, true)
  | k :: ks => match s.boot.flash[k]? with
    | none => (s.enterRecovery 3, false)
    | some img =>
      let err := s.verifyImage k img
      if err ≠ 0 then (s.enterRecovery err, false)
      else
        let s : State := { s with boot := { s.boot with verified := s.boot.verified ++ [img.version] } }
        s.verifyImages ks

/-- A stage begins (R22). -/
def toStage (s : State) (n : Nat) : State := { s with boot := { s.boot with stage := n } }

/-- The boot stops for good (R27). -/
def fatalStop (s : State) (err : Nat) : State :=
  let s : State := { s with boot := { s.boot with stage := 15, err := err, fatalPin := true } }
  s.logRec .boot [.ofNat 64 err, 15]

/-- Memory of some addresses is as boot writes it: zero, with every granule F and every row a data row (R22, R90). -/
def clearMemory (s : State) (p : Nat → Bool) : State :=
  { s with mem := s.mem.filter fun c => ! p c.1
           hist := s.hist.filter fun h => ! p h.line
           gran := s.gran.filter fun g => ! p g.1
           tags := s.tags.filter fun g => ! p g.1
           bad := s.bad.filter fun b => ! p b
           threads := s.threads.filter fun t => ! p t.row }

/-- Stage 3 (R22): DRAM is zero, the DPIT is the identity and no key is left. -/
def clearStackMemory (s : State) : State :=
  { s.clearMemory fun a => s.region a == .dram with dpit := [], trackerPool := [], keys := [], shadows := [], subs := [] }

/-- Stage 4 (R22): tile memory is zero, and accumulators, latches and queue pools are cleared. -/
def clearTileMemory (s : State) : State :=
  { s.clearMemory s.inTile with queues := [] }

/-- READY (R22, R24): CXL.mem is decoded, and the rollback counter follows the images that have run to here. -/
def toReady (s : State) : State :=
  let top := s.boot.verified.foldl (fun m v => if m.toNat < v.toNat then v else m) s.boot.rollback
  { s with boot := { s.boot with stage := 6, err := 0, memoryActive := true, rollback := top } }

/-- The work of the current stage ends (R22). -/
def stageWorkDone (s : State) : State :=
  match s.boot.stage with
  | 0 => { s.toStage 1 with boot := { s.boot with stage := 1, verified := [] } }
  | 1 =>
    let (s, ok) := s.verifyImages [0]
    if ok then s.toStage 2 else s
  | 2 =>
    let (s, ok) := (s.raiseIslands [29]).verifyImages [1, 2, 3, 4]
    if ok then s.toStage 3 else s
  | 3 => ((s.raiseIslands ([30, 31] ++ (List.range 8).map (16 + ·))).clearStackMemory).toStage 4
  | 4 => ((s.raiseIslands (List.range 16)).clearTileMemory).toStage 5
  | 5 =>
    let s := s.raiseIslands [24, 25, 26, 27]
    let s : State := { s with acl := [], ports := s.ports.map fun p => { Port.reset p.num with st := .normal } }
    s.toReady
  | _ => s

/-- A boot stage ends (R22, R25, R27): done, with an image that could not be read, or with a failure. -/
def stageDone (s : State) (r : StageResult) : State :=
  let b := s.boot
  if ! b.powered ∨ b.recov ∨ 6 ≤ b.stage ∨ b.thermTrip then s else
    match r with
    | .done => s.stageWorkDone
    | .readError => if b.stage = 1 ∨ b.stage = 2 then s.enterRecovery 3 else s
    | .fatal err => if b.stage ≠ 1 ∧ 4 ≤ err.toNat ∧ err.toNat ≤ 6 then s.fatalStop err.toNat else s

/-- What the mailbox returns. -/
def mailReply (s : State) (r : MailReply) : State := { s with mailbox := r }

/-- A command that the mailbox does not take before READY (R25, R26): Busy, and logged. -/
def mailBusy (s : State) : State := (s.mailReply .busy).logRec .host [.ofNat 64 s.boot.stage]

/-- A mailbox command that is taken at READY only (R25, R26). -/
def readyCommand (s : State) (f : State → State) : State :=
  if ! s.hostLink then s else if s.boot.stage ≠ 6 then s.mailBusy else f s

/-- A mailbox command that recovery takes too (R25). -/
def anyCommand (s : State) (f : State → State) : State := if s.hostLink then f s else s

/-- Two spans of numbers have one in common. -/
def spansMeet (a n b m : Nat) : Bool := decide (0 < n ∧ 0 < m ∧ a < b + m ∧ b < a + n)

end State

/-- ALLOT of a request (R353). -/
def tenantAllot (r : TenantReq) : Word :=
  .ofNat 64 (r.objects % 2 ^ 16 + r.ctxFirst % 2 ^ 9 * 2 ^ 16 + r.ctxCount % 2 ^ 10 * 2 ^ 25)

namespace State

/-- A request that can be allotted (R18, R353): ranges that exist, and nothing another tenant holds. -/
def tenantFits (s : State) (r : TenantReq) : Bool :=
  decide (1 ≤ r.tenant ∧ r.tenant < 64) && (s.tenant? r.tenant).isNone &&
    decide (1 ≤ r.asidCount ∧ r.asidFirst + r.asidCount ≤ 1024) && decide (1 ≤ r.vecCount ∧ r.vecCount ≤ 64) &&
    decide (r.vecFirst + r.vecCount ≤ 4096 ∧ 1 ≤ r.keyCount ∧ r.keyFirst + r.keyCount ≤ 256) &&
    decide (r.objects < 65536 ∧ r.ctxFirst + r.ctxCount ≤ 512) &&
    r.domains.all (fun d => decide (d.1 ≤ 648)) &&
    s.tenants.all fun t =>
      ! spansMeet t.asidFirst t.asidCount r.asidFirst r.asidCount && ! spansMeet t.vecFirst t.vecCount r.vecFirst r.vecCount &&
        ! spansMeet t.keyFirst t.keyCount r.keyFirst r.keyCount &&
        ! spansMeet (field t.allot 16 9) (field t.allot 25 10) r.ctxFirst r.ctxCount &&
        r.domains.all fun d => (assoc t.doma d.1).getD 0 &&& d.2 == 0

/-- A tenant at its creation (R353): its registers are zero, PASID apart. -/
def newTenant (r : TenantReq) : Tenant :=
  { Tenant.firmware with
    num := r.tenant, asidFirst := r.asidFirst, asidCount := r.asidCount, vecFirst := r.vecFirst, vecCount := r.vecCount
    keyFirst := r.keyFirst, keyCount := r.keyCount, engagement := r.engagement, pasid := .ofNat 64 r.asidFirst
    allot := tenantAllot r, doma := r.domains }

/-- Create Tenant (R374). -/
def createTenant (s : State) (r : TenantReq) : State :=
  if ! s.tenantFits r then s.mailReply .refused
  else
    let s : State := { s with tenants := s.tenants ++ [newTenant r] }
    (s.allotFresh r.tenant 0 (tenantAllot r)).mailReply .success

/-- The span of a window (R369): its base and its length in bytes. -/
def windowSpan (winb wins : Word) : Nat × Nat := (field winb 16 32 * 2 ^ 16, field wins 0 32 * pageBytes)

/-- Set Window (R369, R374): no two windows of all tenants overlap. -/
def hostWindow (s : State) (tenant win : Nat) (winb wins : Word) : State :=
  match s.tenant? tenant with
  | none => s.mailReply .refused
  | some t =>
    let b := winb &&& maskAt 16 32
    let z := wins &&& maskAt 0 46
    let (a, n) := windowSpan b z
    let clash := s.tenants.any fun u => u.windows.any fun w =>
      ! (u.num == tenant && w.1 == win) && (let (a', n') := windowSpan w.2.1 w.2.2; spansMeet a n a' n')
    if 64 ≤ win || clash then s.mailReply .refused
    else ((s.setTenant (t.setWindow win b z)).clearBankWindows tenant).mailReply .success

/-- Load Key (R367, R374): only from a secured session, and only into a slot of the tenant. -/
def loadKey (s : State) (tenant slot : Nat) (key : BitVec 512) : State :=
  match s.tenant? tenant with
  | none => s.mailReply .refused
  | some t =>
    if s.secured && decide (t.keyFirst ≤ slot ∧ slot < t.keyFirst + t.keyCount) then
      ({ s with keys := assocSet s.keys slot key } : State).mailReply .success
    else s.mailReply .refused

/-- An address lies in a window of a tenant other than device firmware. -/
def anyWindow (s : State) (a : Nat) : Bool := s.tenants.any fun t => t.num != 0 && (t.window? a).isSome

/-- Scrub Tenant (R371, R374): the hub writes the host's nonce to the receipt area, in tenant 0's memory, as it can reach it (R259). -/
def hostScrub (s : State) (tenant area : Nat) (nonce : BitVec 256) : State :=
  let ok : Bool := area % 512 == 0 && ! s.anyWindow area && (s.region area == .dram || s.inTile area)
  if ! ok then s.mailReply .refused
  else
    let (s', code) := s.startScrub tenant area
    if code = 0 then (s'.hubPoke (area + 0xC0) (leBytes 32 nonce.toNat)).mailReply (.words [0])
    else s.mailReply (.words [.ofNat 64 code])

/-- Get Receipt (R374). -/
def getReceipt (s : State) (tenant : Nat) : State :=
  s.mailReply (match assoc s.receipts tenant with
    | some b => .bytes b
    | none => .refused)

/-- Set ACL and Set Route (R353, R374). -/
def fabricEntry (s : State) (route : Bool) (index : Nat) (value : Word) : State :=
  let cr := if route then 0x91 else 0x90
  if crIndexOk none cr index then
    match crInfo cr with
    | some c => (s.writeCr cr index (value &&& c.mask)).mailReply .success
    | none => s
  else s.mailReply .refused

/-- Transfer FW (R25). -/
def transferFw (s : State) (img : FwImage) : State :=
  ({ s with boot := { s.boot with supplied := some img } } : State).mailReply .success

/-- Activate FW (R25): the image supplied is verified; a good one is written to its flash slot, and in recovery restarts the boot. -/
def activateFw (s : State) (slot : Nat) : State :=
  match s.boot.supplied with
  | none => s.mailReply .refused
  | some img =>
    if 5 ≤ slot then s.mailReply .refused
    else
      let err := s.verifyImage slot img
      if err = 0 then
        let b := { s.boot with flash := setAt s.boot.flash slot img, supplied := none }
        let b := if b.recov then { b with recov := false, err := 0, stage := 1, verified := [] } else b
        ({ s with boot := b } : State).mailReply .success
      else
        let b := if s.boot.recov then { s.boot with err := err } else s.boot
        (({ s with boot := b } : State).mailReply .refused).logRec .boot [.ofNat 64 err, .ofNat 64 slot]

/-- The tenant whose window refuses a host access to an address (R369, R371, R373). -/
def hostBlocked (s : State) (a : Nat) (k : AccKind) (ide : Bool) : Option Nat :=
  match s.tenants.find? fun t => (t.window? a).isSome with
  | none => none
  | some t => match t.window? a with
    | none => none
    | some w =>
      if s.scrub.any (·.tenant == t.num) || field w.2.2 45 1 == 0 || ! windowGrants w k || (windowSealed w && ! ide) then some t.num else none

/-- The tenant whose window holds an address. -/
def windowTenant (s : State) (a : Nat) : Nat := ((s.tenants.find? fun t => (t.window? a).isSome).map (·.num)).getD 0

/-- The violation of a host access (R370, R373). -/
def hostViolation (s : State) (tenant a : Nat) : State := s.violate tenant 6 (.ofNat 64 a) 0 0 (s.modid.toNat % 4096) true

/-- A completion to the host: the bytes, or poison. -/
def hostCompletion (s : State) (bs : List Byte) (poison : Bool) : State := { s with hostData := s.hostData ++ [(bs, poison)] }

/-- Host-managed device memory (R373). -/
def hdm (a n : Nat) : Bool := decide (a + n ≤ 0x018000000000)

/-- A host read of a line (R69, R76, R88): it joins the outside queue of an open row, or completes with M's newest version, or poison. -/
def hostReadLine (s : State) (a n : Nat) : State :=
  match s.openAt? a with
  | some u => s.enqueue u.id (.hostRead a n)
  | none => if s.poisoned a n then s.hostCompletion [] true else s.hostCompletion (s.newest a n) false

/-- A CXL.mem read within one line (R26, R88, R373). -/
def memReadLine (s : State) (a n : Nat) (ide : Bool) : State :=
  if s.boot.stage ≠ 6 then (s.hostCompletion [] true).logRec .host [.ofNat 64 a]
  else match s.hostBlocked a .read ide with
    | some t => (s.hostCompletion [] true).hostViolation t a
    | none => (s.countWindow (s.windowTenant a) a false).hostReadLine a n

/-- The rows that a host read meets in their buffers: those of no open row. -/
def hostRows (s : State) (a n : Nat) : List Nat := ((lineParts a n).map (·.1)).filter fun x => (s.openAt? x).isNone

/-- A host read waits behind the writes to its lines that wait (R88), and until its rows can be reached (R259). -/
def hostReach (s : State) (a n : Nat) : Reach :=
  if (lineParts a n).any fun p => s.hubWrites.any fun w => lineOf w.dp == lineOf p.1 then .wait s 0
  else s.reachAll (hubParty (rowOf a)) false (s.hostRows a n)

/-- A CXL.mem write within one line (R26, R88, R373). -/
def memWriteLine (s : State) (a : Nat) (bs : List Byte) (ide : Bool) : State :=
  if s.boot.stage ≠ 6 then s.logRec .host [.ofNat 64 a]
  else match s.hostBlocked a .write ide with
    | some t => s.hostViolation t a
    | none => (s.countWindow (s.windowTenant a) a true).outsideStore a bs

/-- A CXL.mem read (R88): one move a line. -/
def memRead (s : State) (a n : Nat) (ide : Bool) : State :=
  if ! s.hostLink ∨ ! hdm a n then s
  else match (if s.boot.stage = 6 then s.hostReach a n else .ok s) with
    | .wait s _ => s
    | .ok s => (lineParts a n).foldl (fun s p => s.memReadLine p.1 p.2 ide) s

/-- A CXL.mem write (R88): one move a line. -/
def memWrite (s : State) (a : Nat) (bs : List Byte) (ide : Bool) : State :=
  if ! s.hostLink ∨ ! hdm a bs.length then s
  else (lineParts a bs.length).foldl (fun s p => s.memWriteLine p.1 ((bs.drop (p.1 - a)).take p.2) ide) s

/-- The device-physical address of bytes of the far tier that the host names by their host physical address (R363). -/
def farAddr (s : State) (a n : Nat) : Option Nat :=
  let o := a - s.farb.toNat
  if s.farb.toNat ≤ a ∧ o + n ≤ min s.fars.toNat 0x700000000000 then some (0x800000000000 + o) else none

/-- An access of the host through CXL.cache to the far tier (R88): one move a line. -/
def farAccess (s : State) (a n : Nat) (bytes : Option (List Byte)) : State :=
  if ! s.hostLink ∨ s.boot.stage ≠ 6 then s else
    match s.farAddr a (bytes.elim n List.length) with
    | none => s
    | some dp => match bytes with
      | some bs => s.outsideStore dp bs
      | none => (lineParts dp n).foldl (fun s p => s.hostReadLine p.1 p.2) s

/-- A host read of control space through CXL.io (R19, R363, R373): a register, or the row of a handle slot; of neither it completes with an
error. -/
def registerRead (s : State) (a n : Nat) : State :=
  if ! s.hostLink then s else
    match s.handleSlot? a with
    | some dp => (match s.hostReach dp n with
      | .wait s _ => s
      | .ok s => (lineParts dp n).foldl (fun s p => s.hostReadLine p.1 p.2) s)
    | none => match s.controlBytes a n with
      | some bs => s.hostCompletion bs false
      | none => s.hostCompletion [] true

/-- An SPDM request (R373): key exchange opens the secured session that Load Key needs. -/
def spdm (s : State) (r : SpdmReq) : State :=
  let s := s.mailReply (.bytes (Config.spdmAnswer r s.boot.flash s.boot.rollback))
  match r with
  | .keyExchange => { s with secured := true }
  | .endSession => { s with secured := false }
  | _ => s

end State

/-- POWER_GOOD (R22). -/
def execPowerGood (s : State) : Host.Outcome State Fault Refusal :=
  .next (if s.boot.powered then s else s.restart true)

/-- POWER_LOSS (R22, R27). -/
def execPowerLoss (s : State) : Host.Outcome State Fault Refusal := .next (s.restart false)

/-- PERST# is asserted (R26). -/
def execPerst (s : State) : Host.Outcome State Fault Refusal := .next (if s.hostLink then s.restart true else s)

/-- BOOT_STAGE_DONE (R22). -/
def execBootStageDone (s : State) : Host.Outcome State Fault Refusal :=
  .next (match s.inp with
    | .stage r => s.stageDone r
    | _ => s)

/-- GET_FW_INFO (R25). -/
def execGetFwInfo (s : State) : Host.Outcome State Fault Refusal :=
  .next (s.anyCommand fun s => s.mailReply (.words (Config.mailboxAnswer 0)))

/-- IDENTIFY (R25). -/
def execIdentify (s : State) : Host.Outcome State Fault Refusal :=
  .next (s.anyCommand fun s => s.mailReply (.words (Config.mailboxAnswer 1)))

/-- TRANSFER_FW (R25). -/
def execTransferFw (s : State) : Host.Outcome State Fault Refusal :=
  .next (match s.inp with
    | .image img => s.anyCommand fun s => s.transferFw img
    | _ => s)

/-- ACTIVATE_FW (R25). -/
def execActivateFw (s : State) : Host.Outcome State Fault Refusal :=
  .next (match s.inp with
    | .unit slot => s.anyCommand fun s => s.activateFw slot
    | _ => s)

/-- MAILBOX_BUSY (R26): a command other than those of R25, before READY. -/
def execMailboxBusy (s : State) : Host.Outcome State Fault Refusal := .next (s.readyCommand id)

/-- CREATE_TENANT (R374). -/
def execCreateTenant (s : State) : Host.Outcome State Fault Refusal :=
  .next (match s.inp with
    | .tenantReq r => s.readyCommand fun s => s.createTenant r
    | _ => s)

/-- SET_WINDOW (R374). -/
def execSetWindow (s : State) : Host.Outcome State Fault Refusal :=
  .next (match s.inp with
    | .window t w b z => s.readyCommand fun s => s.hostWindow t w b z
    | _ => s)

/-- LOAD_KEY (R367, R374). -/
def execLoadKey (s : State) : Host.Outcome State Fault Refusal :=
  .next (match s.inp with
    | .key t slot k => s.readyCommand fun s => s.loadKey t slot k
    | _ => s)

/-- SCRUB_TENANT (R374). -/
def execScrubTenant (s : State) : Host.Outcome State Fault Refusal :=
  .next (match s.inp with
    | .scrub t area nonce => s.readyCommand fun s => s.hostScrub t area nonce
    | _ => s)

/-- GET_RECEIPT (R374). -/
def execGetReceipt (s : State) : Host.Outcome State Fault Refusal :=
  .next (match s.inp with
    | .unit t => s.readyCommand fun s => s.getReceipt t
    | _ => s)

/-- SET_ACL_SET_ROUTE (R374). -/
def execSetAclSetRoute (s : State) : Host.Outcome State Fault Refusal :=
  .next (match s.inp with
    | .fabricEntry route i v => s.readyCommand fun s => s.fabricEntry route i v
    | _ => s)

/-- GET_LOG (R374): the records from a sequence number on. -/
def execGetLog (s : State) : Host.Outcome State Fault Refusal :=
  .next (match s.inp with
    | .unit n => s.readyCommand fun s => s.mailReply (.records (s.log.drop n))
    | _ => s)

/-- CXL_MEM_READ (R88), with the host's reads of the far tier and of control-space registers (R373). -/
def execCxlMemRead (s : State) : Host.Outcome State Fault Refusal :=
  .next (match s.inp with
    | .memRead a n ide => s.memRead a n ide
    | .farAccess a n none => s.farAccess a n none
    | .registerRead a n => s.registerRead a n
    | _ => s)

/-- CXL_MEM_WRITE (R88), with the host's writes to the far tier. -/
def execCxlMemWrite (s : State) : Host.Outcome State Fault Refusal :=
  .next (match s.inp with
    | .memWrite a bs ide => s.memWrite a bs ide
    | .farAccess a n (some bs) => s.farAccess a n (some bs)
    | _ => s)

/-- SPDM_REQUEST (R373). -/
def execSpdmRequest (s : State) : Host.Outcome State Fault Refusal :=
  .next (match s.inp with
    | .spdm r => s.anyCommand fun s => s.spdm r
    | _ => s)

end Sys2Proof.Machine
end

