-- ==== Sys2Proof/Machine/Fabric.lean ====
section
/-!
DEFINITION. The Axxel fabric (R375 to R379): flits and the states of a port, requests that other modules make here, and the answers to
requests made there.
-/
namespace Sys2Proof.Machine

/-- A NARROW or DRAIN port with every flit acknowledged goes on (R377). -/
def Port.drained (p : Port) : Port :=
  if p.replay.isEmpty ∧ (p.st = .drain ∨ p.st = .narrow) then { p with st := .repair } else p

/-- An ACK takes flits out of the replay buffer (R376). -/
def Port.takeAck (p : Port) (ack : BitVec 12) (now : Nat) : Port :=
  match p.replay.findIdx? (·.seq == ack) with
  | some i => ({ p with replay := p.replay.drop (i + 1), progressAt := now } : Port).drained
  | none => p

/-- Every unacknowledged flit is sent again (R376). -/
def Port.resend (p : Port) : Port := { p with sent := p.sent ++ p.replay.map flitBytes }

/-- A CRC failure (R376, R377): NAK, and in DRAIN the eighth one leaves the bad lane out. -/
def Port.crcFailed (p : Port) : Port :=
  let p := ({ p with crcErrors := p.crcErrors + 1 } : Port).answer true
  if p.st = .drain ∧ 8 ≤ p.crcErrors then { p with st := .narrow }.resend else p

/-- A lane is degraded (R377): no new message flits until every flit sent is acknowledged. -/
def Port.degrade (p : Port) : Port :=
  if p.st = .normal then ({ p with st := .drain, badLane := true, crcErrors := 0 } : Port).drained else p

/-- The other lane has been retrained, or not (R377). -/
def Port.retrained (p : Port) (good : Bool) : Port :=
  if p.st = .repair then { p with st := if good then .normal else .degraded, badLane := p.badLane && ! good } else p

/-- The host requests a retrain of a degraded port (R377). -/
def Port.retrain (p : Port) : Port := if p.st = .degraded then { p with st := .repair } else p

/-- A lost link has trained (R376): from SEQ 0, with the messages that have been given to the port since. -/
def Port.up (p : Port) : Port :=
  if p.st = .down then { Port.reset p.num with st := .normal, waiting := p.waiting, crcErrors := p.crcErrors } else p

/-- A lane check fails (R377): the sixteenth time within 1 ms degrades the lane. A failure is kept as twice its time, plus 1 for lane 1. -/
def Port.laneFail (p : Port) (lane : Bool) (now : Nat) : Port :=
  let fails := (2 * now + lane.toNat) :: p.laneFails.filter fun f => decide (now < f / 2 + 1000000)
  let p := { p with laneFails := fails }
  if 16 ≤ (fails.filter fun f => f % 2 == lane.toNat).length then ({ p with laneFails := [] } : Port).degrade else p

/-- The work of one instant on a port, and then whatever it may send. -/
def State.onPort (s : State) (n : Nat) (f : Port → Port) : State := s.updPort n fun p => (f p).pump s.now

namespace State

/-- A flit that a port has accepted (R375, R376): kept for its message, or sent on by the ROUTE entry of its destination, the whole message on the
port that its first flit takes. -/
def acceptFlit (s : State) (n : Nat) (f : Flit) : State :=
  if f.dst.toNat = s.modid.toNat % 4096 then
    s.updPort n fun p => { p with partialMsg := if f.typ = 1 then [f] else p.partialMsg ++ [f] }
  else
    let s := if f.typ = 1 then s.updPort n fun p => { p with through := s.routePort f.dst.toNat } else s
    match (s.ports[n]?).bind (·.through) with
    | some k => s.sendFlits k [{ f with hops := f.hops + 1 }]
    | none => s

/-- The bytes of a flit arrive (R375, R376). -/
def receiveFlit (s : State) (n : Nat) (bs : List Byte) : State :=
  match s.ports[n]? with
  | none => s
  | some p =>
    if p.st = .down then s
    else if ! flitCrcHolds bs then s.onPort n Port.crcFailed
    else
      let f := flitOf bs
      let s := s.onPort n fun p => p.takeAck f.ack s.now
      let s := if f.nak then s.onPort n Port.resend else s
      if f.typ ≠ 1 ∧ f.typ ≠ 2 then s
      else
        let gap := (f.seq.toNat + 4096 - p.expect) % 4096
        if gap = 0 then (s.updPort n fun p => ({ p with expect := nextSeq p.expect } : Port).answer false).acceptFlit n f
        else if 2048 ≤ gap then s
        else s.updPort n fun p => p.answer true

/-- A port has sent flits and seen no progress of ACK for a time in ns (R376). -/
def noProgress (s : State) (n ns : Nat) : Bool :=
  match s.ports[n]? with
  | none => false
  | some p => p.st != .down && ! p.replay.isEmpty && decide (p.progressAt + ns ≤ s.now)

/-- What an inbound request is for. -/
inductive Admission where
  | admitted (asid : Nat)
  | refused
  deriving DecidableEq, Repr

/-- The access-control table (R378): a valid entry that matches source module, source tenant and local tenant and allows every kind asked. -/
def admits (s : State) (m : Inbound) (bits : List Nat) : Admission :=
  let matching (w : Word) : Bool :=
    field w 38 1 == 1 && field w 0 12 == m.smod.toNat && field w 12 6 == m.stenant.toNat && field w 18 6 == m.dtenant.toNat &&
      bits.all fun b => field w b 1 == 1
  if s.scrub.any (·.tenant == m.dtenant.toNat) then .refused
  else match s.acl.find? fun e => matching e.2 with
    | some e => .admitted (field e.2 24 10)
    | none => .refused

/-- A message goes back to the requester, by the ROUTE entry of its module (R375). -/
def respond (s : State) (m : Inbound) (kind : Nat) (bytes : List Byte) : State :=
  s.sendMessage ((s.routePort m.smod.toNat).getD 128) kind m.smod.toNat m.dtenant.toNat m.tag m.va bytes

/-- An error goes back to the requester (R378). -/
def respondError (s : State) (m : Inbound) (ecode : Nat) : State := s.respond m 7 (leBytes 1 ecode)

/-- A request is refused (R378): ECODE 0x13, and a violation of kind 7. -/
def refuseInbound (s : State) (m : Inbound) (addr : Word) : State :=
  (s.violate m.dtenant.toNat 7 addr 0 m.stenant.toNat m.smod.toNat false).respondError m 0x13

/-- One line part of an admitted request, translated and checked as an element of the tenant would be (R378). -/
def inboundPart (s : State) (m : Inbound) (asid va : Nat) (k : AccKind) : Except XStop Nat :=
  if 2 ^ 56 ≤ va then .error (.code 0x1A)
  else match s.aperture m.dtenant.toNat 0 va with
    | some (.ok dp) => .ok dp
    | some _ => .error (.viol (.ofNat 64 (2 ^ 63 + va)))
    | none => match s.walk m.dtenant.toNat asid va with
      | none => .error (.code 0x1A)
      | some (leaf, size) =>
        match s.gateRow m.dtenant.toNat 0 (s.checkLeaf m.dtenant.toNat 0 leaf (leafAddr leaf size va) k) with
        | .ok dp => .ok dp
        | .violation w => .error (.viol w)
        | _ => .error (.code 0x12)

/-- The line parts of an admitted request. -/
def inboundParts (s : State) (m : Inbound) (asid n : Nat) (k : AccKind) : Except XStop (List (Nat × Nat)) :=
  (lineParts m.va.toNat n).mapM fun p => (s.inboundPart m asid p.1 k).map fun dp => (dp, p.2)

/-- A request is answered with what stopped it. -/
def stopInbound (s : State) (m : Inbound) : XStop → State
  | .code c => s.respondError m c
  | .viol w => s.refuseInbound m w
  | .miss _ => s.respondError m 0x1A
  | .remote _ _ => s.respondError m 0x12

/-- An open row that the request would reach is at no boundary for it (R76, R99): the request waits. -/
def inboundWaits (s : State) (ps : List (Nat × Nat)) : Bool := ps.any fun p => s.outsideHeld p.1

/-- A request has taken its move at the open rows that it reached. -/
def inboundTaken (s : State) (ps : List (Nat × Nat)) : State := ps.foldl (fun s p => s.outsideTaken p.1) s

/-- A request as a party (R261). -/
def inboundParty (m : Inbound) : Nat := hubParty (2 ^ 61 + m.port * 2 ^ 16 + m.tag % 2 ^ 16)

/-- The table entries that the walks for the slots of a launch queue read (R368, R394). -/
def slotReads (s : State) (tenant : Nat) : List Nat :=
  match s.tenant? tenant with
  | none => []
  | some t => if t.lqb = 0 then [] else
    (((List.range (2 ^ ringLog t.lqb)).map fun i => ringVa t.lqb i / pageBytes).eraseDups).flatMap fun p =>
      s.tableReads t.num (field t.pasid 0 10) (p * pageBytes)

/-- A request runs: admitted, translated by a walk that reaches its table rows and those of `also`, and served when the rows can be. -/
def serveInbound (s : State) (m : Inbound) (bits : List Nat) (n : Nat) (k : AccKind) (write : Bool) (also : List Nat)
    (f : State → List (Nat × Nat) → State) : State :=
  match s.admits m bits with
  | .refused => s.refuseInbound m (m.va ||| .ofNat 64 (2 ^ 63))
  | .admitted asid =>
    let tables := (lineParts m.va.toNat n).flatMap fun p => s.tableReads m.dtenant.toNat asid p.1
    match s.reachAll (inboundParty m) false (tables ++ also) with
    | .wait s _ => s
    | .ok s => match s.inboundParts m asid n k with
      | .error e => s.stopInbound m e
      | .ok ps =>
        if s.inboundWaits ps then s else
          match s.partsReach (inboundParty m) write ps with
          | .wait s _ => s
          | .ok s => f ((ps.foldl (fun s p => s.countWindow m.dtenant.toNat p.1 write) s).inboundTaken ps) ps

/-- The mark of a store that a request makes (R370). -/
def inboundMark (m : Inbound) : StoreMark := .outside m.stenant.toNat m.smod.toNat false

/-- The slots of the launch queue of a request's tenant (R368). -/
def launchSlots (s : State) (m : Inbound) : List Nat :=
  match s.tenant? m.dtenant.toNat with
  | none => []
  | some t => if t.lqb = 0 then [] else
    (List.range (2 ^ ringLog t.lqb)).filterMap fun i => s.hubTranslate t (ringVa t.lqb i) .rmw

/-- A GET of another module (R378): M's newest version. -/
def inboundGet (s : State) (m : Inbound) : State :=
  s.serveInbound m [35] m.n .read false [] fun s ps =>
    if ps.any fun p => s.poisoned p.1 p.2 then s.respondError m 0x15 else s.respond m 2 (s.partsBytes ps)

/-- A PUT of another module (R378): one that reaches the tenant's launch queue needs LAUNCH too. -/
def inboundPut (s : State) (m : Inbound) : State :=
  s.serveInbound m [36] m.bytes.length .write true (s.slotReads m.dtenant.toNat) fun s ps =>
    let queue := ps.any fun p => (s.launchSlots m).any fun a => decide (lineOf p.1 = a)
    if queue && s.admits m [34, 36] == .refused then s.refuseInbound m (m.va ||| .ofNat 64 (2 ^ 63))
    else (s.partsWrite (inboundMark m) ps m.bytes).respond m 4 []

/-- A peer launch (R378): a PUT of one packet into the tenant's launch queue, under PUT and LAUNCH; any other is refused. -/
def inboundLaunch (s : State) (m : Inbound) : State :=
  s.serveInbound m [34, 36] m.bytes.length .write true (s.slotReads m.dtenant.toNat) fun s ps =>
    match ps with
    | [(a, 64)] => if (s.launchSlots m).contains a then (s.partsWrite (inboundMark m) ps m.bytes).respond m 4 []
        else s.refuseInbound m (m.va ||| .ofNat 64 (2 ^ 63))
    | _ => s.refuseInbound m (m.va ||| .ofNat 64 (2 ^ 63))

/-- An atomic of another module (R379). -/
def inboundAtomic (s : State) (m : Inbound) : State :=
  s.serveInbound m [35, 36] m.n .rmw true [] fun s ps =>
    match ps with
    | [(dp, n)] => (match s.doAtomic none m.op dp n m.v.toNat m.w.toNat (inboundMark m) with
      | some (s, old) => s.respond m 9 (leBytes n old)
      | none => s.respondError m 0x15)
    | _ => s.respondError m 0x12

/-- System-scope sync traffic of another module (R80 to R82, R378): an acquire waits for its threshold. -/
def inboundSync (s : State) (m : Inbound) : State :=
  match s.admits m [37] with
  | .refused => s.refuseInbound m (m.va ||| .ofNat 64 (2 ^ 63))
  | .admitted _ =>
    let key := (m.dtenant.toNat, m.object)
    match s.syncs.find? fun o => o.1 == key with
    | none => s.refuseInbound m (m.va ||| .ofNat 64 (2 ^ 63))
    | some (_, x) =>
      if x.scope ≠ 4 then s.refuseInbound m (m.va ||| .ofNat 64 (2 ^ 63))
      else if m.acquire then
        (if m.w.toNat ≤ x.seq.toNat then s.respond m 6 (wordBytes x.seq) else s)
      else
        let x := { x with seq := x.seq + 1, pub := x.bnd.map fun l => (l, s.verOf l) }
        ({ s with syncs := s.syncs.map fun o => if o.1 = key then (key, x) else o } : State).respond m 6 (wordBytes x.seq)

/-- The request that a tag names. -/
def remote? (s : State) (tag : Nat) : Option Remote := s.remotes.find? (·.tag == tag)

/-- A transfer whose source bytes another module has sent: the destination is checked and written, or is itself in another module. Where it lies in an
open row the move is that row's, and else that of the row of the index that it has read (R84). -/
def deliver (s : State) (o : Owner) (x : Xfer) (who kind : Nat) (index : List (Nat × Nat)) (bs : List Byte) : XferResult :=
  match x.dst with
  | none => .done s [] bs
  | some (dva, dn) =>
    let out := x.bytes bs
    match s.ownerParts o dva dn .write with
    | .error (.miss v) => .wait (s.postOwnerMiss o v .write)
    | .error (.viol w) => .fail (s.violate o.tenant kind w 0 o.tenant (s.modid.toNat % 4096) false) 0x13 dva
    | .error (.code c) => .fail (s.dropNoMapping o) c dva
    | .error (.remote m v) => .remote s m true v out
    | .ok dst =>
      let rows := if dst.any fun p => (s.openAt? p.1).isSome then dst else index
      if s.inboundWaits rows then .wait s else
        match s.partsReach who true dst with
        | .wait s _ => .wait s
        | .ok s =>
          let s := (dst.foldl (fun s p => s.countWindow o.tenant p.1 true) s).inboundTaken rows
          let s := s.partsWrite (s.engineMark o.tenant) dst out
          .done s (dst.map fun p => (lineOf p.1, s.verOf (lineOf p.1))) bs

/-- How many source bytes a transfer has. -/
def sourceBytes (x : Xfer) : Nat := (x.src.map (·.2)).sum

/-- An access of a context's head command is made through another module. -/
def commandTaken (s : State) (k i : Nat) (lines : List (Nat × Nat)) (read : List Byte) : State :=
  let x := s.ctx k
  match x.cq with
  | [] => s
  | c :: rest =>
    let c := { c with taken := i :: c.taken, lines := c.lines ++ lines
                      loaded := if c.kind = .decLoad then c.loaded ++ [(i, leLine read)] else c.loaded }
    s.setCtx k { x with cq := c :: rest, wrote := x.wrote ++ lines.map fun l => (c.num, l.1, l.2) }

/-- An element is made through another module. -/
def elementTaken (s : State) (op i : Nat) (lines : List (Nat × Nat)) : State :=
  match s.oneSided.find? (·.id == op) with
  | none => s
  | some o => if o.taken.contains i then s else s.setOneSided { o with taken := i :: o.taken, wrote := o.wrote ++ lines }

/-- An index that another module has sent (R185). -/
def indexCame (s : State) (op i : Nat) (bs : List Byte) : State :=
  match s.oneSided.find? (·.id == op) with
  | none => s
  | some o => s.setOneSided { o with idxs := (i, leNat bs) :: o.idxs }

/-- The source bytes of an element have come from another module (R185): the element reads its index and writes its destination in this move. One whose
index names another source by now has its request made anew. -/
def elementData (s : State) (o : OneSided) (r : Remote) (i : Nat) (bs : List Byte) : State :=
  let own := o.owner s
  match s.indexParts o i with
  | .error (.miss v) => s.postOwnerMiss own v .read
  | .error (.code c) => ((s.dropNoMapping own).dropRemote r.tag).failElement o i c
  | .error (.viol w) => ((s.violate o.tenant 5 w 0 o.tenant (s.modid.toNat % 4096) false).dropRemote r.tag).failElement o i 0x13
  | .error (.remote _ _) => s.dropRemote r.tag
  | .ok index => match s.partsReach (opParty o.id) false index with
    | .wait s _ => s
    | .ok s => match s.elementIdx o i with
      | .error _ => if s.inboundWaits index then s else ((s.inboundTaken index).dropRemote r.tag).failElement o i 0x15
      | .ok j =>
        let x := o.xfer i j
        if ! r.bytes.isEmpty ∨ bs.length ≠ sourceBytes x then s
        else if x.src.map (·.1) ≠ [r.va] then s.dropRemote r.tag
        else match s.deliver own x (opParty o.id) 5 index bs with
          | .wait s => s
          | .fail s e _ => (s.dropRemote r.tag).failElement o i e
          | .remote s m _ va out => (s.dropRemote r.tag).sendRemote m va (.element o.id i) out
          | .done s lines _ => (s.dropRemote r.tag).elementTaken o.id i lines

/-- Data of a GET that this module had sent (R185, R321, R379). -/
def getData (s : State) (tag : Nat) (bs : List Byte) : State :=
  match s.remote? tag with
  | none => s
  | some r =>
    match r.kind with
    | .load id n =>
      let key := sizedKey (remoteKey r.va) n
      if bs.length = n then (s.dropRemote tag).answer id key (.data key bs) else s
    | .index op i => if bs.length = 4 then (s.dropRemote tag).indexCame op i bs else s
    | .element op i =>
      (match s.oneSided.find? (·.id == op) with
       | none => s.dropRemote tag
       | some o => if o.taken.contains i then s.dropRemote tag else s.elementData o r i bs)
    | .command k i =>
      (match (s.ctx k).cq with
       | [] => s.dropRemote tag
       | c :: _ =>
         let x := c.xfer (s.ctx k) i
         if ! r.bytes.isEmpty ∨ bs.length ≠ sourceBytes x then s
         else if (s.ctx k).halt then s.dropRemote tag
         else match s.deliver c.owner x (ctxParty k) 4 [] bs with
           | .wait s => s
           | .fail s e va => (s.dropRemote tag).handBack k c e va
           | .remote s m _ va out => (s.dropRemote tag).sendRemote m va (.command k i) out
           | .done s lines read => (s.dropRemote tag).commandTaken k i lines read)
    | _ => s

/-- The acknowledgement of a PUT that this module had sent (R73, R185, R379). -/
def putAck (s : State) (tag : Nat) : State :=
  match s.remote? tag with
  | none => s
  | some r => match r.kind with
    | .store id => ((s.dropRemote tag).updThread id fun t => { t with sb := t.sb.drop 1 }).progressClose id false
    | .element op i => if r.bytes.isEmpty then s else (s.dropRemote tag).elementTaken op i []
    | .command k i => if r.bytes.isEmpty then s else (s.dropRemote tag).commandTaken k i [] []
    | _ => s

/-- The reply to an atomic that this module had sent (R379). -/
def atomicReply (s : State) (tag : Nat) (w : Word) : State :=
  match s.remote? tag with
  | none => s
  | some r => match r.kind with
    | .atomic id _ n _ _ =>
      (s.dropRemote tag).answer id (remoteKey r.va) (.data (remoteKey r.va) (leBytes n w.toNat))
    | _ => s

/-- An error comes back for a request of this module (R187, R322, R379): 0x1A for no mapping. -/
def fabricError (s : State) (tag code : Nat) : State :=
  match s.remote? tag with
  | none => s
  | some r =>
    let s := s.dropRemote tag
    let cause : Cause := if code = 0x1A then .remotepage else .datapoison
    match r.kind with
    | .load id n => s.answer id (sizedKey (remoteKey r.va) n) (.fault (sizedKey (remoteKey r.va) n) cause)
    | .atomic id _ _ _ _ => s.answer id (remoteKey r.va) (.fault (remoteKey r.va) cause)
    | .store id => s.dropStore id r.va
    | .element op i | .index op i => (match s.oneSided.find? (·.id == op) with
      | none => s
      | some o => if o.taken.contains i then s else s.failElement o i code)
    | .command k _ => (match (s.ctx k).cq with
      | [] => s
      | c :: _ => if (s.ctx k).halt then s else s.handBack k c (if code = 0x1A then 0x11 else code) r.va)

end State

/-- FLIT_RECEIVE (R376). -/
def execFlitReceive (s : State) : Host.Outcome State Fault Refusal :=
  .next (match s.inp with
    | .flit n bs => s.receiveFlit n bs
    | _ => s)

/-- REPLAY_TIMEOUT (R376): 10 microseconds without progress of ACK. -/
def execReplayTimeout (s : State) : Host.Outcome State Fault Refusal :=
  .next (match s.inp with
    | .unit n => if s.noProgress n 10000 then s.onPort n Port.resend else s
    | _ => s)

/-- LINK_LOST (R376): 50 microseconds without progress of ACK. -/
def execLinkLost (s : State) : Host.Outcome State Fault Refusal :=
  .next (match s.inp with
    | .unit n => if ! s.noProgress n 50000 then s else match s.linkRows with
      | .wait s _ => s
      | .ok _ => s.linkLost n
    | _ => s)

/-- LINK_RETRAINED (R376): a lost link whose island is ON. -/
def execLinkRetrained (s : State) : Host.Outcome State Fault Refusal :=
  .next (match s.inp with
    | .unit n => if s.islandOn (24 + n / 32) then s.onPort n Port.up else s
    | _ => s)

/-- LANE_DEGRADED (R377): a lane check fails, and the sixteenth time within 1 ms degrades the lane. -/
def execLaneDegraded (s : State) : Host.Outcome State Fault Refusal :=
  .next (match s.inp with
    | .portFlag n lane => s.onPort n fun p => p.laneFail lane s.now
    | _ => s)

/-- RETRAIN_DONE (R377). -/
def execRetrainDone (s : State) : Host.Outcome State Fault Refusal :=
  .next (match s.inp with
    | .portFlag n good => s.onPort n fun p => p.retrained good
    | _ => s)

/-- PORT_RETRAIN (R377): at the host's request. -/
def execPortRetrain (s : State) : Host.Outcome State Fault Refusal :=
  .next (match s.inp with
    | .unit n => s.onPort n Port.retrain
    | _ => s)

/-- INBOUND_GET_REQUEST (R378). -/
def execInboundGetRequest (s : State) : Host.Outcome State Fault Refusal :=
  .next (match s.inp with
    | .inbound m => s.inboundGet m
    | _ => s)

/-- INBOUND_PUT (R378). -/
def execInboundPut (s : State) : Host.Outcome State Fault Refusal :=
  .next (match s.inp with
    | .inbound m => s.inboundPut m
    | _ => s)

/-- INBOUND_LAUNCH (R378): one packet for a launch queue, under PUT and LAUNCH. -/
def execInboundLaunch (s : State) : Host.Outcome State Fault Refusal :=
  .next (match s.inp with
    | .inbound m => s.inboundLaunch m
    | _ => s)

/-- INBOUND_SYNC (R82, R378). -/
def execInboundSync (s : State) : Host.Outcome State Fault Refusal :=
  .next (match s.inp with
    | .inbound m => s.inboundSync m
    | _ => s)

/-- INBOUND_ATOMIC_REQUEST (R379). -/
def execInboundAtomicRequest (s : State) : Host.Outcome State Fault Refusal :=
  .next (match s.inp with
    | .inbound m => s.inboundAtomic m
    | _ => s)

/-- GET_DATA (R379). -/
def execGetData (s : State) : Host.Outcome State Fault Refusal :=
  .next (match s.inp with
    | .replyData tag bs => s.getData tag bs
    | _ => s)

/-- PUT_ACKNOWLEDGEMENT (R379). -/
def execPutAcknowledgement (s : State) : Host.Outcome State Fault Refusal :=
  .next (match s.inp with
    | .unit tag => s.putAck tag
    | _ => s)

/-- ATOMIC_REPLY (R379). -/
def execAtomicReply (s : State) : Host.Outcome State Fault Refusal :=
  .next (match s.inp with
    | .replyWord tag w => s.atomicReply tag w
    | _ => s)

/-- FABRIC_ERROR (R379). -/
def execFabricError (s : State) : Host.Outcome State Fault Refusal :=
  .next (match s.inp with
    | .replyCode tag code => s.fabricError tag code.toNat
    | _ => s)

end Sys2Proof.Machine
end

