-- ==== Sys2Proof/Machine/ThreadControl.lean ====
section
/-!
DEFINITION. Class 0x0: starting, stopping and redirecting rows, spawning, yielding, waiting, ending, and looking at rows (R118 to R126).
-/
namespace Sys2Proof.Machine

/-- A command store made for the programmer (R119). -/
def commandStore (f : FA) (code : Nat) (withPc mark : Bool) : Exec Flow := do
  let a ← Exec.readX (xnum f.a)
  let pc ← Exec.readX (xnum f.b)
  Exec.require (a.toNat % rowBytes == 0) .align a
  let w0 : Word := .ofNat 64 (code * 2 ^ 4 + f.md.toNat * 2 ^ 8)
  let bs := wordBytes w0 ++ if withPc ∧ f.b ≠ .x 0 then wordBytes pc else []
  Exec.store a bs (if mark then .startData (f.md) a else .plain) (group := false)
  return .next

/-- TH.START (R119). -/
def execThStart (f : FA) (s : State) : Host.Outcome State Fault Refusal := asInstr (commandStore f 1 true true) s

/-- TH.STOP (R119). -/
def execThStop (f : FA) (s : State) : Host.Outcome State Fault Refusal := asInstr (commandStore f 2 false false) s

/-- TH.REDIRECT (R119). -/
def execThRedirect (f : FA) (s : State) : Host.Outcome State Fault Refusal := asInstr (commandStore f 3 true false) s

/-- TH.SPAWN (R120): the request is made, and the row waits for the allocator's reply. -/
def execThSpawn (f : FA) (s : State) : Host.Outcome State Fault Refusal := asInstr (do
  let pc ← Exec.readX (xnum f.a)
  let desc ← Exec.readX (xnum f.b)
  let hint ← Exec.readX (xnum f.c)
  let s ← get
  let th ← Exec.me
  let p := field desc 9 2
  Exec.require (p != 3 && decide (p ≤ s.privOf th.row)) .priv
  let q : SpawnReq := ⟨xnum f.d, pc, desc, if f.c = .x 0 then s.rowVa th else hint, false, 0, false⟩
  modify fun s => s.updThread th.id fun t => { t with spawn := some q }
  return .stay 0xA 0 .spawn) s

/-- TH.YIELD (R122): the row closes when a READY row waits with at least its base priority; else its quantum renews. -/
def execThYield (_ : FA) (s : State) : Host.Outcome State Fault Refusal := asInstr (do
  let s ← get
  let th ← Exec.me
  if (s.waitingRows th).any fun u => decide (s.prio th.row ≤ s.effective u) then return .close 2
  else
    set (s.updThread th.id fun t => { t with openedAt := s.ticksOf th })
    return .next) s

/-- TH.WAIT (R123). -/
def execThWait (f : FI) (s : State) : Host.Outcome State Fault Refusal := asInstr (do
  let line := f.imm.toNat % 32
  let timeout := f.imm.toNat / 2 ^ 16
  let a ← Exec.readX (xnum f.a)
  let s ← get
  let th ← Exec.me
  if line ≠ 0 ∧ leWord (s.newest (th.row + 64 * line) 8) ≠ a then
    Exec.writeX (xnum f.d) 1
    return .next
  else if timeout = 0 ∧ line = 0 then
    Exec.writeX (xnum f.d) 0
    return .next
  else
    let warg := xnum f.a * 32 + line
    set ((s.setCtrl th.row 0 32 32 timeout).updThread th.id fun t => { t with stall := some ⟨1, warg, .watch (xnum f.d)⟩, tickAt := s.ticksOf th })
    return .close (State.waitBits 1 warg)) s

/-- TH.EXIT (R124). -/
def execThExit (f : FA) (s : State) : Host.Outcome State Fault Refusal := asInstr (do
  Exec.sbEmpty
  if f.a ≠ .x 0 then
    let a ← Exec.readX (xnum f.a)
    let _ ← Exec.atomic .add a 8 1 0
  let th ← Exec.me
  modify fun s => s.killState th
  return .close 0) s

/-- The location of an executor and its slot (R125). A service core has no tile number: its core number stands in bits 15..0 and its slot in
18..16 (R64; DESIGN CHOICE, log entry 106). -/
def locationWord (s : State) (th : Thread) : Word :=
  match th.exec with
  | .bank =>
    let sub := match s.locate th.row with
      | some l => l.sub
      | none => 0
    .ofNat 64 (th.place + sub * 2 ^ 19 + 2 ^ 63)
  | _ => .ofNat 64 (th.place % 2 ^ 16 + th.slot.getD 0 * 2 ^ 16)

/-- TH.SELF (R125). -/
def execThSelf (f : FA) (s : State) : Host.Outcome State Fault Refusal := asInstr (do
  let s ← get
  let th ← Exec.me
  Exec.writeX (xnum f.d) (match f.md.toNat with
    | 0 => s.rowVa th
    | 1 => s.ctrl th.row 2
    | _ => locationWord s th)
  return .next) s

/-- A read of M's newest bytes that joins no outside queue (R126). -/
def peek (va : Word) (n : Nat) : Exec (List Byte) := do
  Exec.require (va.toNat % n == 0) .align va
  let s ← get
  let th ← Exec.me
  let read (dp : Nat) (own : Bool) : Exec (List Byte) := do
    if ! own then
      Exec.checkHold dp va
      Exec.reachRow dp false
    let s ← get
    if s.poisoned dp n then Exec.fault .datapoison va
    if ! own then
      modify fun s => ((s.noteBankWindow th va.toNat dp).countWindow (s.tenantOf th.row) dp false).viewNewest th.id (lineOf dp)
    return s.newest dp n
  match s.check th va .read with
  | .own dp => read dp true
  | .ok dp => (match s.region dp with
    | .control => match s.controlBytes dp n with
      | some bs => pure bs
      | none => Exec.faultLogged .datapoison va 0 (.ofNat 64 dp)
    | _ => read dp false)
  | .fault c => Exec.fault c va
  | .miss => Exec.missAt va .read
  | .violation a => Exec.faultLogged .datapoison va 0 a
  | .remote _ => Exec.fault .protect va

/-- TH.PEEK (R126). -/
def execThPeek (f : FM) (s : State) : Host.Outcome State Fault Refusal := asInstr (do
  let a ← Exec.ea f
  if f.sz = 3 then
    let bs ← peek a 8
    Exec.writeX (xnum f.t) (leWord bs)
    return .next
  else
    let bs ← peek a 64
    Exec.writeV (vnum f.t) (leLine bs)
    return .next) s

end Sys2Proof.Machine
end

