-- ==== Sys2Proof/Machine/Walker.lean ====
section
/-!
DEFINITION. Class 0x9: the instructions of a Skink walk (R252).
-/
namespace Sys2Proof.Machine

/-- An address register moves on after its load (R252). -/
def walkerInc (f : FA) (a : Word) (n : Nat) : Exec Unit :=
  if f.md.toNat % 2 = 1 then Exec.writeX (xnum f.a) (wordAdd a n) else pure ()

/-- W.LDI (R252). -/
def execWLdi (f : FA) (s : State) : Host.Outcome State Fault Refusal := asInstr (do
  let a ← Exec.readX (xnum f.a)
  let n := f.ty.bytes
  let bs ← Exec.load a n
  Exec.writeX (xnum f.d) (if f.md.toNat / 2 % 2 = 1 then wordOfInt (signed (8 * n) (leNat bs)) else leWord bs)
  walkerInc f a n
  return .next) s

/-- W.LDV (R252). -/
def execWLdv (f : FA) (s : State) : Host.Outcome State Fault Refusal := asInstr (do
  let a ← Exec.readX (xnum f.a)
  let bs ← Exec.load a 64
  Exec.writeV (vnum f.d) (leLine bs)
  walkerInc f a 64
  return .next) s

/-- A row emitted, replacing an earlier emission (R252). -/
def emitRow (f : FA) (mask : Nat) : Exec Flow := do
  let a ← Exec.readX (xnum f.a)
  let v ← Exec.readV (vnum f.b)
  let th ← Exec.me
  modify fun s =>
    let k := s.skink th.place
    match k.cur with
    | none => s
    | some q =>
      let r := a.toNat % 32
      let bs := (lineToBytes v).take (32 * q.tya.bytes)
      s.setSkink { k with emitted := k.emitted.filter (·.1 != r) ++ [(r, mask, bs)] }
  return .next

/-- W.EMIT (R252). -/
def execWEmit (f : FA) (s : State) : Host.Outcome State Fault Refusal := asInstr (emitRow f (2 ^ 32 - 1)) s

/-- W.EMITZ (R252). -/
def execWEmitz (f : FA) (s : State) : Host.Outcome State Fault Refusal := asInstr (do
  let c ← Exec.readX (xnum f.c)
  emitRow f (c.toNat % 2 ^ 32)) s

/-- W.ADV (R252). -/
def execWAdv (f : FA) (s : State) : Host.Outcome State Fault Refusal := asInstr (do
  let a ← Exec.readX (xnum f.a)
  let b ← Exec.readX (xnum f.b)
  let ones := ((List.range 32).filter fun i => b.toNat.testBit i).length
  Exec.writeX (xnum f.d) (wordAdd a (ones * f.ty.bytes))
  return .next) s

/-- The lanes of W.SEL (R252): the next unused element where the mask's bit is set, and zero elsewhere. -/
def selectLanes (mask : Nat) (next : Nat → Nat) : Nat → Nat → Nat → List Nat
  | 0, _, _ => []
  | n + 1, k, used =>
    if mask.testBit k then next used :: selectLanes mask next n (k + 1) (used + 1)
    else 0 :: selectLanes mask next n (k + 1) used

/-- W.SEL (R252). -/
def execWSel (f : FA) (s : State) : Host.Outcome State Fault Refusal := asInstr (do
  let v ← Exec.readV (vnum f.a)
  let b ← Exec.readX (xnum f.b)
  let w := f.ty.width
  Exec.writeV (vnum f.d) (ofLanes w (selectLanes b.toNat (lane v w) 32 0 0))
  return .next) s

/-- W.END (R251, R252): the walk ends, and the row returns to STOPPED. -/
def execWEnd (_ : FA) (s : State) : Host.Outcome State Fault Refusal := asInstr (do
  let th ← Exec.me
  modify fun s =>
    let k := s.skink th.place
    match k.cur with
    | none => s
    | some q => s.setSkink { k with cur := none, emitted := [], issues := 0
                                    ends := if q.thread = noThread then k.ends else k.ends ++ [(q.thread, .rows k.emitted)] }
  return .close 1) s

end Sys2Proof.Machine
end

