-- ==== Sys2Proof/Machine/Dispatch.lean ====
section
/-!
DEFINITION. Each instruction and event of the table with its meaning, arm by arm.
-/
namespace Sys2Proof.Machine

def exec (i : Instr) (s : State) : Host.Outcome State Fault Refusal :=
  match i with
  | .powerGood => Sys2Proof.Machine.execPowerGood s
  | .perst => Sys2Proof.Machine.execPerst s
  | .bootStageDone => Sys2Proof.Machine.execBootStageDone s
  | .getFwInfo => Sys2Proof.Machine.execGetFwInfo s
  | .transferFw => Sys2Proof.Machine.execTransferFw s
  | .activateFw => Sys2Proof.Machine.execActivateFw s
  | .identify => Sys2Proof.Machine.execIdentify s
  | .mailboxBusy => Sys2Proof.Machine.execMailboxBusy s
  | .createTenant => Sys2Proof.Machine.execCreateTenant s
  | .setWindow => Sys2Proof.Machine.execSetWindow s
  | .loadKey => Sys2Proof.Machine.execLoadKey s
  | .scrubTenant => Sys2Proof.Machine.execScrubTenant s
  | .getReceipt => Sys2Proof.Machine.execGetReceipt s
  | .setAclSetRoute => Sys2Proof.Machine.execSetAclSetRoute s
  | .getLog => Sys2Proof.Machine.execGetLog s
  | .cxlMemRead => Sys2Proof.Machine.execCxlMemRead s
  | .cxlMemWrite => Sys2Proof.Machine.execCxlMemWrite s
  | .islctlReqOn => Sys2Proof.Machine.execIslctlReqOn s
  | .islctlReqCgated => Sys2Proof.Machine.execIslctlReqCgated s
  | .islctlReqPgated => Sys2Proof.Machine.execIslctlReqPgated s
  | .islctlReqReserved => Sys2Proof.Machine.execIslctlReqReserved s
  | .islandTransitionDone => Sys2Proof.Machine.execIslandTransitionDone s
  | .gatedRowMove => Sys2Proof.Machine.execGatedRowMove s
  | .plimWrite => Sys2Proof.Machine.execPlimWrite s
  | .controlRegisterWrite => Sys2Proof.Machine.execControlRegisterWrite s
  | .farTierRegisterWrite => Sys2Proof.Machine.execFarTierRegisterWrite s
  | .rowhctlApply => Sys2Proof.Machine.execRowhctlApply s
  | .rowhashApplyDone => Sys2Proof.Machine.execRowhashApplyDone s
  | .powerInterval => Sys2Proof.Machine.execPowerInterval s
  | .fastGuard => Sys2Proof.Machine.execFastGuard s
  | .thermalLimit => Sys2Proof.Machine.execThermalLimit s
  | .thermalRelease => Sys2Proof.Machine.execThermalRelease s
  | .thermalTrip => Sys2Proof.Machine.execThermalTrip s
  | .start => Sys2Proof.Machine.execStart s
  | .stop => Sys2Proof.Machine.execStop s
  | .redirect => Sys2Proof.Machine.execRedirect s
  | .resume => Sys2Proof.Machine.execResume s
  | .kill => Sys2Proof.Machine.execKill s
  | .step => Sys2Proof.Machine.execStep s
  | .commandReserved => Sys2Proof.Machine.execCommandReserved s
  | .drain => Sys2Proof.Machine.execDrain s
  | .refresh => Sys2Proof.Machine.execRefresh s
  | .apply => Sys2Proof.Machine.execApply s
  | .engacc => Sys2Proof.Machine.execEngacc s
  | .complete => Sys2Proof.Machine.execComplete s
  | .happly => Sys2Proof.Machine.execHapply s
  | .counterMove => Sys2Proof.Machine.execCounterMove s
  | .fetchFill => Sys2Proof.Machine.execFetchFill s
  | .streamPrefetch => Sys2Proof.Machine.execStreamPrefetch s
  | .rowSchedOpen => Sys2Proof.Machine.execRowSchedOpen s
  | .quantumClose => Sys2Proof.Machine.execQuantumClose s
  | .priorityClose => Sys2Proof.Machine.execPriorityClose s
  | .spinWindowExpiry => Sys2Proof.Machine.execSpinWindowExpiry s
  | .waitWake => Sys2Proof.Machine.execWaitWake s
  | .thWaitTick => Sys2Proof.Machine.execThWaitTick s
  | .spawnReply => Sys2Proof.Machine.execSpawnReply s
  | .rowEviction => Sys2Proof.Machine.execRowEviction s
  | .rowReload => Sys2Proof.Machine.execRowReload s
  | .rowReclaim => Sys2Proof.Machine.execRowReclaim s
  | .post => Sys2Proof.Machine.execPost s
  | .translationMissPost => Sys2Proof.Machine.execTranslationMissPost s
  | .translationReply => Sys2Proof.Machine.execTranslationReply s
  | .tlbAck => Sys2Proof.Machine.execTlbAck s
  | .invalidationCounterMove => Sys2Proof.Machine.execInvalidationCounterMove s
  | .stragglerReset => Sys2Proof.Machine.execStragglerReset s
  | .matrixArithComplete => Sys2Proof.Machine.execMatrixArithComplete s
  | .walkBegin => Sys2Proof.Machine.execWalkBegin s
  | .walkerWatchdog => Sys2Proof.Machine.execWalkerWatchdog s
  | .subarrayRefresh => Sys2Proof.Machine.execSubarrayRefresh s
  | .refreshReactivate => Sys2Proof.Machine.execRefreshReactivate s
  | .activateGrant => Sys2Proof.Machine.execActivateGrant s
  | .claimTimeout => Sys2Proof.Machine.execClaimTimeout s
  | .enckeWatchdog => Sys2Proof.Machine.execEnckeWatchdog s
  | .channelReset => Sys2Proof.Machine.execChannelReset s
  | .slotBoundary => Sys2Proof.Machine.execSlotBoundary s
  | .deadlockGuard => Sys2Proof.Machine.execDeadlockGuard s
  | .handbackPost => Sys2Proof.Machine.execHandbackPost s
  | .launchPacket => Sys2Proof.Machine.execLaunchPacket s
  | .trackerPeriod => Sys2Proof.Machine.execTrackerPeriod s
  | .dpitMoveDone => Sys2Proof.Machine.execDpitMoveDone s
  | .dpitRevertDone => Sys2Proof.Machine.execDpitRevertDone s
  | .scrubComplete => Sys2Proof.Machine.execScrubComplete s
  | .flitReceive => Sys2Proof.Machine.execFlitReceive s
  | .replayTimeout => Sys2Proof.Machine.execReplayTimeout s
  | .linkLost => Sys2Proof.Machine.execLinkLost s
  | .laneDegraded => Sys2Proof.Machine.execLaneDegraded s
  | .retrainDone => Sys2Proof.Machine.execRetrainDone s
  | .portRetrain => Sys2Proof.Machine.execPortRetrain s
  | .inboundGetRequest => Sys2Proof.Machine.execInboundGetRequest s
  | .inboundPut => Sys2Proof.Machine.execInboundPut s
  | .inboundLaunch => Sys2Proof.Machine.execInboundLaunch s
  | .inboundSync => Sys2Proof.Machine.execInboundSync s
  | .inboundAtomicRequest => Sys2Proof.Machine.execInboundAtomicRequest s
  | .getData => Sys2Proof.Machine.execGetData s
  | .putAcknowledgement => Sys2Proof.Machine.execPutAcknowledgement s
  | .atomicReply => Sys2Proof.Machine.execAtomicReply s
  | .fabricError => Sys2Proof.Machine.execFabricError s
  | .thSpawn f => Sys2Proof.Machine.execThSpawn f s
  | .thStart f => Sys2Proof.Machine.execThStart f s
  | .thStop f => Sys2Proof.Machine.execThStop f s
  | .thRedirect f => Sys2Proof.Machine.execThRedirect f s
  | .thYield f => Sys2Proof.Machine.execThYield f s
  | .thWait f => Sys2Proof.Machine.execThWait f s
  | .thExit f => Sys2Proof.Machine.execThExit f s
  | .thSelf f => Sys2Proof.Machine.execThSelf f s
  | .thPeek f => Sys2Proof.Machine.execThPeek f s
  | .nop f => Sys2Proof.Machine.execNop f s
  | .br f => Sys2Proof.Machine.execBr f s
  | .bcmp f => Sys2Proof.Machine.execBcmp f s
  | .bri f => Sys2Proof.Machine.execBri f s
  | .jt f => Sys2Proof.Machine.execJt f s
  | .lpad f => Sys2Proof.Machine.execLpad f s
  | .call f => Sys2Proof.Machine.execCall f s
  | .calli f => Sys2Proof.Machine.execCalli f s
  | .ret f => Sys2Proof.Machine.execRet f s
  | .loop f => Sys2Proof.Machine.execLoop f s
  | .fsync f => Sys2Proof.Machine.execFsync f s
  | .pand f => Sys2Proof.Machine.execPand f s
  | .por f => Sys2Proof.Machine.execPor f s
  | .pxor f => Sys2Proof.Machine.execPxor f s
  | .pnot f => Sys2Proof.Machine.execPnot f s
  | .addFa f => Sys2Proof.Machine.execAddFa f s
  | .addFi f => Sys2Proof.Machine.execAddFi f s
  | .sub f => Sys2Proof.Machine.execSub f s
  | .andFa f => Sys2Proof.Machine.execAndFa f s
  | .andFi f => Sys2Proof.Machine.execAndFi f s
  | .orFa f => Sys2Proof.Machine.execOrFa f s
  | .orFi f => Sys2Proof.Machine.execOrFi f s
  | .xorFa f => Sys2Proof.Machine.execXorFa f s
  | .xorFi f => Sys2Proof.Machine.execXorFi f s
  | .andn f => Sys2Proof.Machine.execAndn f s
  | .minFa f => Sys2Proof.Machine.execMinFa f s
  | .minFi f => Sys2Proof.Machine.execMinFi f s
  | .maxFa f => Sys2Proof.Machine.execMaxFa f s
  | .maxFi f => Sys2Proof.Machine.execMaxFi f s
  | .minuFa f => Sys2Proof.Machine.execMinuFa f s
  | .minuFi f => Sys2Proof.Machine.execMinuFi f s
  | .maxuFa f => Sys2Proof.Machine.execMaxuFa f s
  | .maxuFi f => Sys2Proof.Machine.execMaxuFi f s
  | .adds f => Sys2Proof.Machine.execAdds f s
  | .subs f => Sys2Proof.Machine.execSubs f s
  | .cmpFa f => Sys2Proof.Machine.execCmpFa f s
  | .cmpFi f => Sys2Proof.Machine.execCmpFi f s
  | .sel f => Sys2Proof.Machine.execSel f s
  | .movFa f => Sys2Proof.Machine.execMovFa f s
  | .movFi f => Sys2Proof.Machine.execMovFi f s
  | .movhi f => Sys2Proof.Machine.execMovhi f s
  | .lea f => Sys2Proof.Machine.execLea f s
  | .rowa f => Sys2Proof.Machine.execRowa f s
  | .mulFa f => Sys2Proof.Machine.execMulFa f s
  | .mulFi f => Sys2Proof.Machine.execMulFi f s
  | .mulh f => Sys2Proof.Machine.execMulh f s
  | .mulhu f => Sys2Proof.Machine.execMulhu f s
  | .div f => Sys2Proof.Machine.execDiv f s
  | .divu f => Sys2Proof.Machine.execDivu f s
  | .rem f => Sys2Proof.Machine.execRem f s
  | .remu f => Sys2Proof.Machine.execRemu f s
  | .muls f => Sys2Proof.Machine.execMuls f s
  | .shlFa f => Sys2Proof.Machine.execShlFa f s
  | .shlFi f => Sys2Proof.Machine.execShlFi f s
  | .shrFa f => Sys2Proof.Machine.execShrFa f s
  | .shrFi f => Sys2Proof.Machine.execShrFi f s
  | .sraFa f => Sys2Proof.Machine.execSraFa f s
  | .sraFi f => Sys2Proof.Machine.execSraFi f s
  | .rolFa f => Sys2Proof.Machine.execRolFa f s
  | .rolFi f => Sys2Proof.Machine.execRolFi f s
  | .rorFa f => Sys2Proof.Machine.execRorFa f s
  | .rorFi f => Sys2Proof.Machine.execRorFi f s
  | .bextFa f => Sys2Proof.Machine.execBextFa f s
  | .bextFi f => Sys2Proof.Machine.execBextFi f s
  | .binsFa f => Sys2Proof.Machine.execBinsFa f s
  | .binsFi f => Sys2Proof.Machine.execBinsFi f s
  | .popc f => Sys2Proof.Machine.execPopc f s
  | .clz f => Sys2Proof.Machine.execClz f s
  | .ctz f => Sys2Proof.Machine.execCtz f s
  | .ld f => Sys2Proof.Machine.execLd f s
  | .lds f => Sys2Proof.Machine.execLds f s
  | .st f => Sys2Proof.Machine.execSt f s
  | .ldv f => Sys2Proof.Machine.execLdv f s
  | .stv f => Sys2Proof.Machine.execStv f s
  | .ldfe f => Sys2Proof.Machine.execLdfe f s
  | .stfe f => Sys2Proof.Machine.execStfe f s
  | .sete f => Sys2Proof.Machine.execSete f s
  | .sset f => Sys2Proof.Machine.execSset f s
  | .srst f => Sys2Proof.Machine.execSrst f s
  | .spos f => Sys2Proof.Machine.execSpos f s
  | .pref f => Sys2Proof.Machine.execPref f s
  | .get f => Sys2Proof.Machine.execGet f s
  | .put f => Sys2Proof.Machine.execPut f s
  | .ccrd f => Sys2Proof.Machine.execCcrd f s
  | .aadd f => Sys2Proof.Machine.execAadd f s
  | .aand f => Sys2Proof.Machine.execAand f s
  | .aor f => Sys2Proof.Machine.execAor f s
  | .axor f => Sys2Proof.Machine.execAxor f s
  | .amin f => Sys2Proof.Machine.execAmin f s
  | .amax f => Sys2Proof.Machine.execAmax f s
  | .aswp f => Sys2Proof.Machine.execAswp f s
  | .acas f => Sys2Proof.Machine.execAcas f s
  | .afadd f => Sys2Proof.Machine.execAfadd f s
  | .fship f => Sys2Proof.Machine.execFship f s
  | .vadd f => Sys2Proof.Machine.execVadd f s
  | .vsub f => Sys2Proof.Machine.execVsub f s
  | .vmul f => Sys2Proof.Machine.execVmul f s
  | .vfma f => Sys2Proof.Machine.execVfma f s
  | .vmin f => Sys2Proof.Machine.execVmin f s
  | .vmax f => Sys2Proof.Machine.execVmax f s
  | .vabs f => Sys2Proof.Machine.execVabs f s
  | .vneg f => Sys2Proof.Machine.execVneg f s
  | .vrcp f => Sys2Proof.Machine.execVrcp f s
  | .vrsq f => Sys2Proof.Machine.execVrsq f s
  | .vexp f => Sys2Proof.Machine.execVexp f s
  | .vlog f => Sys2Proof.Machine.execVlog f s
  | .vand f => Sys2Proof.Machine.execVand f s
  | .vor f => Sys2Proof.Machine.execVor f s
  | .vxor f => Sys2Proof.Machine.execVxor f s
  | .vshl f => Sys2Proof.Machine.execVshl f s
  | .vshr f => Sys2Proof.Machine.execVshr f s
  | .vsra f => Sys2Proof.Machine.execVsra f s
  | .vcmp f => Sys2Proof.Machine.execVcmp f s
  | .vsel f => Sys2Proof.Machine.execVsel f s
  | .vadds f => Sys2Proof.Machine.execVadds f s
  | .vsubs f => Sys2Proof.Machine.execVsubs f s
  | .vmulh f => Sys2Proof.Machine.execVmulh f s
  | .vcvt f => Sys2Proof.Machine.execVcvt f s
  | .vbcast f => Sys2Proof.Machine.execVbcast f s
  | .vperm f => Sys2Proof.Machine.execVperm f s
  | .vrot f => Sys2Proof.Machine.execVrot f s
  | .vzip f => Sys2Proof.Machine.execVzip f s
  | .vunzip f => Sys2Proof.Machine.execVunzip f s
  | .vrsum f => Sys2Proof.Machine.execVrsum f s
  | .vrmax f => Sys2Proof.Machine.execVrmax f s
  | .vrmin f => Sys2Proof.Machine.execVrmin f s
  | .vscan f => Sys2Proof.Machine.execVscan f s
  | .vqnt f => Sys2Proof.Machine.execVqnt f s
  | .vdqnt f => Sys2Proof.Machine.execVdqnt f s
  | .vbscale f => Sys2Proof.Machine.execVbscale f s
  | .vmovx f => Sys2Proof.Machine.execVmovx f s
  | .vins f => Sys2Proof.Machine.execVins f s
  | .vpack f => Sys2Proof.Machine.execVpack f s
  | .mMma f => Sys2Proof.Machine.execMMma f s
  | .mMmag f => Sys2Proof.Machine.execMMmag f s
  | .mGath f => Sys2Proof.Machine.execMGath f s
  | .mMvs f => Sys2Proof.Machine.execMMvs f s
  | .mSacc f => Sys2Proof.Machine.execMSacc f s
  | .mZero f => Sys2Proof.Machine.execMZero f s
  | .mLdacc f => Sys2Proof.Machine.execMLdacc f s
  | .mStacc f => Sys2Proof.Machine.execMStacc f s
  | .mSpmm f => Sys2Proof.Machine.execMSpmm f s
  | .mTdir f => Sys2Proof.Machine.execMTdir f s
  | .mDrain f => Sys2Proof.Machine.execMDrain f s
  | .wLdi f => Sys2Proof.Machine.execWLdi f s
  | .wLdv f => Sys2Proof.Machine.execWLdv f s
  | .wEmit f => Sys2Proof.Machine.execWEmit f s
  | .wEmitz f => Sys2Proof.Machine.execWEmitz f s
  | .wAdv f => Sys2Proof.Machine.execWAdv f s
  | .wSel f => Sys2Proof.Machine.execWSel f s
  | .wEnd f => Sys2Proof.Machine.execWEnd f s
  | .rowOpen f => Sys2Proof.Machine.execRowOpen f s
  | .rowHold f => Sys2Proof.Machine.execRowHold f s
  | .rowRel f => Sys2Proof.Machine.execRowRel f s
  | .txBegin f => Sys2Proof.Machine.execTxBegin f s
  | .txCommit f => Sys2Proof.Machine.execTxCommit f s
  | .txAbort f => Sys2Proof.Machine.execTxAbort f s
  | .attn f => Sys2Proof.Machine.execAttn f s
  | .safeptPoint f => Sys2Proof.Machine.execSafeptPoint f s
  | .safeptBegin f => Sys2Proof.Machine.execSafeptBegin f s
  | .safeptEnd f => Sys2Proof.Machine.execSafeptEnd f s
  | .hSig f => Sys2Proof.Machine.execHSig f s
  | .hProbe f => Sys2Proof.Machine.execHProbe f s
  | .hIns f => Sys2Proof.Machine.execHIns f s
  | .hDel f => Sys2Proof.Machine.execHDel f s
  | .hRehash f => Sys2Proof.Machine.execHRehash f s
  | .hDedup f => Sys2Proof.Machine.execHDedup f s
  | .hUsn f => Sys2Proof.Machine.execHUsn f s
  | .hWusn f => Sys2Proof.Machine.execHWusn f s
  | .synBind f => Sys2Proof.Machine.execSynBind f s
  | .synAcq f => Sys2Proof.Machine.execSynAcq f s
  | .synRel f => Sys2Proof.Machine.execSynRel f s
  | .synWtl f => Sys2Proof.Machine.execSynWtl f s
  | .synTlTl f => Sys2Proof.Machine.execSynTlTl f s
  | .synTlSub f => Sys2Proof.Machine.execSynTlSub f s
  | .synTlFl f => Sys2Proof.Machine.execSynTlFl f s
  | .synTlMark f => Sys2Proof.Machine.execSynTlMark f s
  | .synStep f => Sys2Proof.Machine.execSynStep f s
  | .synSend f => Sys2Proof.Machine.execSynSend f s
  | .synRecv f => Sys2Proof.Machine.execSynRecv f s
  | .synVote f => Sys2Proof.Machine.execSynVote f s
  | .synPollab f => Sys2Proof.Machine.execSynPollab f s
  | .synAbort f => Sys2Proof.Machine.execSynAbort f s
  | .synDomBind f => Sys2Proof.Machine.execSynDomBind f s
  | .synDomUnbind f => Sys2Proof.Machine.execSynDomUnbind f s
  | .synQcfgCreate f => Sys2Proof.Machine.execSynQcfgCreate f s
  | .synQcfgDel f => Sys2Proof.Machine.execSynQcfgDel f s
  | .ceCopy f => Sys2Proof.Machine.execCeCopy f s
  | .ceFill f => Sys2Proof.Machine.execCeFill f s
  | .ceGath f => Sys2Proof.Machine.execCeGath f s
  | .ceScat f => Sys2Proof.Machine.execCeScat f s
  | .ceCtxRead f => Sys2Proof.Machine.execCeCtxRead f s
  | .ceCtxRing f => Sys2Proof.Machine.execCeCtxRing f s
  | .ceCtxRetry f => Sys2Proof.Machine.execCeCtxRetry f s
  | .ceCtxClr f => Sys2Proof.Machine.execCeCtxClr f s
  | .ceCancel f => Sys2Proof.Machine.execCeCancel f s
  | .decLoad f => Sys2Proof.Machine.execDecLoad f s
  | .decStrm f => Sys2Proof.Machine.execDecStrm f s
  | .sysRdcr f => Sys2Proof.Machine.execSysRdcr f s
  | .sysWrcr f => Sys2Proof.Machine.execSysWrcr f s
  | .rtabLoad f => Sys2Proof.Machine.execRtabLoad f s
  | .rtabEmpty f => Sys2Proof.Machine.execRtabEmpty f s
  | .clhaltWrite f => Sys2Proof.Machine.execClhaltWrite f s
  | .wacntWrite f => Sys2Proof.Machine.execWacntWrite f s
  | .sysTlbinv f => Sys2Proof.Machine.execSysTlbinv f s
  | .sysTlbwr f => Sys2Proof.Machine.execSysTlbwr f s
  | .sysTrap f => Sys2Proof.Machine.execSysTrap f s
  | .sysScrub f => Sys2Proof.Machine.execSysScrub f s
  | .sysLog f => Sys2Proof.Machine.execSysLog f s
  | .sysMpostHost f => Sys2Proof.Machine.execSysMpostHost f s
  | .sysMpostMbox f => Sys2Proof.Machine.execSysMpostMbox f s
  | .powerLoss => Sys2Proof.Machine.execPowerLoss s
  | .spdmRequest => Sys2Proof.Machine.execSpdmRequest s
  | .linkRetrained => Sys2Proof.Machine.execLinkRetrained s

end Sys2Proof.Machine
end

