-- ==== Sys2Proof/Machine/Pairs.lean ====
section
/-!
DEFINITION. Two instructions that a T-executor issues together (R59 to R61): which pairs it may issue, and the two issues with no
instruction boundary between them. Whether it issues a pair that it may is the schedule's choice (log entry 20).
-/
namespace Sys2Proof.Machine

/-- The first slots of the pairs that a template names (R59). -/
def pairSlots : Nat → List Nat
  | 1 => [0]
  | 2 => [1]
  | 3 => [2]
  | 4 => [3]
  | 5 => [0, 2]
  | 6 => [0, 3]
  | 7 => [1, 3]
  | _ => []

/-- The opcode of a word (R45). -/
def opOf (w : IWord) : Nat := bitsAt w.toNat 86 10

/-- CMP, whose destination field names a predicate (R154). -/
def isCmp (w : IWord) : Bool := [0x08C, 0x0AC].contains (opOf w)

/-- PAND, POR, PXOR and PNOT, whose fields name predicates (R131). -/
def isPredOp (w : IWord) : Bool := decide (0x04B ≤ opOf w ∧ opOf w ≤ 0x04E)

/-- The lowest bits of the fields in which a word of the classes of R60 names registers (R50, R62). -/
def specLows (w : IWord) : List Nat :=
  let cls := opOf w / 64
  let o := opOf w % 64
  let d := if isCmp w then [] else [76]
  if isPredOp w then []
  else if cls = 1 ∨ ((cls = 2 ∨ cls = 3) ∧ 0x20 ≤ o) then d ++ [70]
  else if cls = 4 ∨ (cls = 5 ∧ 8 ≤ o ∧ o ≤ 0x10) then [76, 70, 64]
  else d ++ [70, 64, 58]

/-- The specifiers of the registers that a word reads or writes: its fields, the register after that of ACAS, and the second index vector of
M.MMAG and M.GATH (R47, R190, R242). -/
def specsOf (w : IWord) : List Nat :=
  let at_ (k : Nat) : Nat := bitsAt w.toNat k 6
  (specLows w).map at_ ++ (if opOf w = 0x14F then [at_ 76 + 1] else if opOf w = 0x201 ∨ opOf w = 0x202 then [at_ 58 + 1] else [])

/-- The specifiers of the registers that a word of a class that may stand first in a pair writes; x0 discards (R47). -/
def writesOf (w : IWord) : List Nat :=
  let d := bitsAt w.toNat 76 6
  let op := opOf w
  if d = 0 ∨ isCmp w ∨ [0x102, 0x104, 0x106, 0x107, 0x108, 0x109, 0x10A, 0x10B, 0x140, 0x141, 0x202, 0x207].contains op then []
  else if op = 0x204 then [d, bitsAt w.toNat 70 6]
  else [d]

/-- The predicate that a word writes: CMP and VCMP (R154, R210). -/
def predOf (w : IWord) : Option Nat :=
  if isCmp w then some (bitsAt w.toNat 76 3) else if opOf w = 0x192 then some (bitsAt w.toNat 50 3) else none

/-- The predicates that a word reads or writes: its guard's, and those of CMP, VCMP, SEL and the predicate instructions (R46). -/
def predsOf (w : IWord) : List Nat :=
  bitsAt w.toNat 82 3 :: (predOf w).toList ++ (if opOf w = 0x08D then [bitsAt w.toNat 46 3] else []) ++
    (if isPredOp w then [76, 70, 64].map fun k => bitsAt w.toNat k 3 else [])

/-- The stream slots that a word names: its operands, and the slot of SSET, SRST and SPOS (R180). -/
def slotsOf (w : IWord) : List Nat :=
  ((specsOf w).filter fun e => decide (0x28 ≤ e ∧ e < 0x2C)).map (· - 0x28) ++
    (if 0x108 ≤ opOf w ∧ opOf w ≤ 0x10A then [bitsAt w.toNat 54 2] else [])

/-- The queue ports that a word names (R47). -/
def portsOf (w : IWord) : List Nat := ((specsOf w).filter fun e => decide (0x2C ≤ e ∧ e < 0x30)).map (· - 0x2C)

/-- The classes of a pair (R60). -/
def pairClasses (a b : IWord) : Bool :=
  let ca := bitsAt a.toNat 92 4
  let cb := bitsAt b.toNat 92 4
  let mem (c : Nat) : Bool := decide (2 ≤ c ∧ c ≤ 5)
  let vec (c : Nat) : Bool := decide (6 ≤ c ∧ c ≤ 8)
  (mem ca && vec cb) || (vec ca && (mem cb || cb == 1))

/-- The second of two words touches no register, predicate or accumulator that the first writes, and they name no common stream slot (R60). -/
def pairApart (a b : IWord) : Bool :=
  (writesOf a).all (fun e => ! (specsOf b).contains e) && (predOf a).all (fun p => p == 0 || ! (predsOf b).contains p) &&
    (slotsOf a).all fun n => ! (slotsOf b).contains n

namespace State

/-- Two words of a row name no common queue (R60). -/
def queuesApart (s : State) (row : Nat) (a b : IWord) : Bool :=
  let named (w : IWord) : List Nat := (portsOf w).map fun n => s.qport row n % 2 ^ 8
  (named a).all fun q => ! (named b).contains q

/-- The instruction at a thread's address may issue together with the one after it (R59, R60). -/
def mayPair (s : State) (th : Thread) : Bool :=
  let slot := th.ip.toNat % 8
  match th.fbuf.find? fun f => f.va == lineOf th.ip.toNat with
  | none => false
  | some f =>
    th.exec == .tile && f.bad.isNone && (pairSlots (pairCode (lineWord f.data))).contains slot && s.ctrlField th.row 7 13 1 == 0 &&
      pairClasses (slotWord f.data slot) (slotWord f.data (slot + 1)) && pairApart (slotWord f.data slot) (slotWord f.data (slot + 1)) &&
      s.queuesApart th.row (slotWord f.data slot) (slotWord f.data (slot + 1))

/-- A row's next instruction is the latched end of an active loop: it issues with no second (R141). -/
def loopEnd (s : State) (row : Nat) : Bool := s.ctrlField row 4 32 1 == 1 && s.ctrlField row 4 48 16 == 0

/-- The end of a pair, or of an instruction that was to be the first of one: the commands that the two have posted to their own row are taken in
their order. -/
def endPair (s : State) (id first : Nat) : State :=
  let s := s.updThread id fun t => { t with pairing := false }
  let s := match s.thread? id with
    | some th => if first = 0 then s else s.command th (some id) first
    | none => s
  (s.takeOwnCommand id).progressClose id false

/-- The second of a pair stalls: it has not issued with the first. -/
def secondStalls (s : State) (id : Nat) (ip : Word) : Bool :=
  (s.thread? id).any fun th => th.ip == ip && th.stall.isSome && th.closing.isNone

/-- The second instruction of a pair, after the first has completed (R61): a move of its own, with no boundary before it. One that would stall
is not issued with the first (R60). -/
def issueSecond (s : State) (th : Thread) : Host.Outcome State Fault Refusal :=
  let s' := { (s.updThread th.id fun t => { t with ownCmd := 0 }).doomGroups with touched := [] }
  let ended (u : State) : Host.Outcome State Fault Refusal :=
    .next (if u.secondStalls th.id th.ip then s.endPair th.id 0 else u.endPair th.id th.ownCmd)
  match s'.prepareIssue th.id with
  | .done u => ended u
  | .run i u => match exec i u with
    | .next u => ended u
    | r => r

/-- After the first of a pair the second issues, where the first has gone on to the next slot with no close begun. -/
def issueRest (u : State) (th : Thread) : Host.Outcome State Fault Refusal :=
  match u.thread? th.id with
  | some v => if v.ip = pcNext th.ip ∧ v.closing.isNone ∧ v.stall.isNone then u.issueSecond v else .next (u.endPair th.id 0)
  | none => .next u

/-- A pair issues (R61): the first, which its guard may leave without effect, and then the second. -/
def issuePair (s : State) (id : Nat) : Host.Outcome State Fault Refusal :=
  match s.thread? id with
  | none => .next s
  | some th => match s.prepareIssue id with
    | .done u => (match u.thread? id with
      | some v => if v.ip = pcNext th.ip ∧ ! s.loopEnd th.row ∧ u.mayPair { v with ip := th.ip } then u.issueRest th else .next u
      | none => .next u)
    | .run i u => match u.thread? id with
      | none => exec i u
      | some v =>
        if s.loopEnd th.row ∨ ! u.mayPair v then exec i u
        else match exec i (u.updThread id fun t => { t with pairing := true }) with
          | .next w => w.issueRest th
          | r => r

end State

end Sys2Proof.Machine
end

