-- ==== Sys2Proof/Machine/Due.lean ====
section
/-!
DEFINITION. The beginning of a move: how much hub time passes before it, which is never so much that a wake, an open or an issue would come too
late (R103, R104, R106, R108, R112, R123, R127, R343).
-/
namespace Sys2Proof.Machine

namespace State

/-- The bound of R108 on a row that stays READY, in cycles of its executor. -/
def openBound (s : State) (th : Thread) : Nat :=
  (255 - s.prio th.row) * 4096 + (s.threads.filter (sameExecutor th)).length * 4096 + 2048

/-- A READY row is one that its executor opens now (R105). -/
def opensNow (s : State) (th : Thread) : Bool :=
  s.isReady th && th.closing.isNone && s.islandOn th.island && ! s.halted th && (match s.freeSlot th with
    | none => false
    | some k => s.firstReady th k && (th.exec != .bank || (match s.openBank th with
      | .ok _ => true
      | .wait _ _ => false)))

/-- A WAITING row's condition holds (R104). -/
def wakesNow (s : State) (th : Thread) : Bool :=
  th.slot.isNone && s.code th.row == 4 && th.stall.any fun w => s.condHolds th w.cond

/-- An EVICTED row that is due comes back now (R112): a tile row of its die is free. -/
def reloadsNow (s : State) (th : Thread) : Bool :=
  s.code th.row == 6 && th.evicted && s.reloadDue th &&
    ((s.candidates none 0).any fun r => match s.region r with
      | .tile t => dieOfTile t == th.die
      | _ => false) &&
    (match s.reach (hubParty th.row) th.row false with
     | .ok _ => true
     | .wait _ _ => false)

/-- What a row is owed now (R104, R108, R112, R127): a wake, a reload, an open or an issue; the number tells one issue, or one time of being READY,
from the next. -/
def owed (s : State) (th : Thread) : Option (DueKind × Nat) :=
  if s.wakesNow th then some (.wake, 0)
  else if s.reloadsNow th then some (.reload, 0)
  else if s.opensNow th then some (.open_, th.readyAt)
  else if s.canIssue th && th.stall.all (fun w => s.condHolds th w.cond) then some (.issue, th.issued)
  else none

/-- The bound on what a row is owed, in cycles of its executor: 512 for a wake (R104), 4 for an open of a T-thread (R127) and that of R108 for another,
and 8 for an issue (R108). -/
def dueBound (s : State) (th : Thread) : DueKind → Nat
  | .wake => 512
  | .open_ => if th.exec = .tile then 4 else s.openBound th
  | .issue => 8
  | .reload => 0

/-- What every row is owed, each since when it has been owed first. -/
def noteDue (s : State) : State :=
  { s with dues := s.threads.filterMap fun th => (s.owed th).map fun k =>
      (s.dues.find? fun d => d.thread == th.id && d.kind == k.1 && d.key == k.2).getD ⟨th.id, k.1, k.2, if k.1 = .reload then s.now else s.ticksOf th⟩ }

/-- The ns that may pass before a tick count of a row's executor is some cycles after another; none where its clock stands still. -/
def nsLeft (s : State) (th : Thread) (since cycles : Nat) : Option Nat :=
  match (s.islands[th.island]?).map (·.fnow) with
  | none | some 0 => none
  | some f => some ((since + 1000 * cycles - s.ticksOf th) / f)

/-- The ns that may pass before the boundary of a slot that a row waits for (R331, R343). -/
def slotLeft (s : State) (th : Thread) : Option Nat :=
  match th.waitsFor with
  | some (.slot name k i ended) => ((s.domain? name).bind fun d => (assoc d.begun k).map fun t0 =>
      (t0 + 5 * d.width * (i + ended.toNat) + 17) / 18 - s.now).filter (· != 0)
  | _ => none

/-- The ns that may pass before the unit that a row waits for is free (R165, R225). -/
def unitLeft (s : State) (th : Thread) : Option Nat :=
  match th.waitsFor, (s.islands[th.island]?).map (·.fnow) with
  | some (.unitBusy kind), some f =>
    if f = 0 ∨ ! s.unitBusy th kind then none
    else (s.units.find? fun b => b.kind == kind && b.exec == th.exec && b.place == th.place).map fun b => (b.freeAt - s.ticksOf th + f - 1) / f
  | _, _ => none

/-- The ns after which what is to happen some cycles after a tick count of a row's executor is to happen; none where its clock stands still. -/
def nsUntil (s : State) (th : Thread) (since cycles : Nat) : Option Nat :=
  match (s.islands[th.island]?).map (·.fnow) with
  | none | some 0 => none
  | some f => some ((since + 1000 * cycles - s.ticksOf th + f - 1) / f)

/-- The ns that may pass before what a row is owed comes too late: 20 microseconds for a reload (R112). -/
def dueLeft (s : State) (th : Thread) : Option Nat :=
  (s.dues.find? (·.thread == th.id)).bind fun d =>
    if d.kind = .reload then some (d.since + 20000 - s.now) else s.nsLeft th d.since (s.dueBound th d.kind)

/-- The ns until an open row closes, renews its quantum or faults at the latest (R103, R106, R261, R283). -/
def closeLeft (s : State) (th : Thread) : List Nat :=
  (if s.stalled th then (s.nsUntil th th.stalledAt (s.spinWindow th)).toList else []) ++
    (if s.scheduled th then (s.nsUntil th th.openedAt 4096).toList else []) ++ (if s.priorityDue th then [0] else []) ++
    (s.claimsOn th).filterMap (fun t => s.nsUntil th t 2048) ++ ((deferredAt th).bind fun t => s.nsUntil th t (s.enckeLimits th).1).toList

/-- A READY row cannot be opened for a reason that R108 does not count: its island is not ON, its cluster is halted (R361), its buffer or the regulator
keeps it waiting (R261, R271), or every row in its way is closing, in an exchange (R331) or deferred (R282). -/
def heldReady (s : State) (th : Thread) : Bool :=
  s.isReady th && (! s.islandOn th.island || s.halted th || (match s.freeSlot th with
    | some _ => th.exec == .bank && (match s.openBank th with
      | .ok _ => false
      | .wait _ _ => true)
    | none => ((s.openRows th).filter fun u => th.exec != .bank || (s.locate th.row).map (·.sub) == u.slot).all fun u => ! s.mayPreempt u))

/-- The ticks that R108 leaves out of a row's bound, in this time of being READY. -/
def withheldTicks (th : Thread) : Nat := if th.withheld.1 = th.readyAt then th.withheld.2 else 0

/-- The ns that may pass before a READY row is opened too late (R108). -/
def readyLeft (s : State) (th : Thread) : Option Nat :=
  if s.isReady th && ! s.heldReady th then s.nsLeft th (th.readyAt + withheldTicks th) (s.openBound th) else none

/-- The ns until the next tick of a TH.WAIT (R123). -/
def tickLeft (s : State) (th : Thread) : Option Nat := if s.ticking th then s.nsUntil th th.tickAt 256 else none

/-- The ns that may pass with nothing of a row's come too late. -/
def timeLeft (s : State) (th : Thread) : List Nat :=
  (s.dueLeft th).toList ++ (s.slotLeft th).toList ++ (s.unitLeft th).toList ++ s.closeLeft th ++ (s.readyLeft th).toList ++ (s.tickLeft th).toList

/-- As much of some ns as may pass. -/
def passable (s : State) (dt : Nat) : Nat := (s.threads.flatMap s.timeLeft).foldl min dt

/-- Hub time passes (R70): as much of it as the rows' bounds allow, so that what is owed comes before more. -/
def passTime (s : State) (dt : Nat) : State :=
  if dt = 0 then s else
    let s := s.noteDue
    let n := s.passable dt
    let hold (th : Thread) : Thread :=
      if s.heldReady th then { th with withheld := (th.readyAt, withheldTicks th + n * ((s.islands[th.island]?).map (·.fnow)).getD 0) } else th
    { s with now := s.now + n, threads := s.threads.map hold, islands := s.islands.map fun i => { i with ticks := i.ticks + n * i.fnow } }

/-- The row that a move would issue from. -/
def issuer? (m : Move) : Option Nat :=
  match m.act with
  | .issue id | .pair id => some id
  | .event _ _ => none

/-- A move begins: hub time passes, errors have come up, no line has taken a version in it, and an issue that it makes or tries is owed no more; what
else the row is owed stays owed (R345, R346). -/
def beginMove (s : State) (m : Move) : State :=
  let s := s.passTime m.dt
  m.errors.foldl (fun s a => s.strike a)
    { s with touched := [], cur := none, inp := .none, dues := s.dues.filter fun d => d.kind != .issue || some d.thread != issuer? m }

end State

end Sys2Proof.Machine
end

