-- ==== Sys2Proof/Machine/Step.lean ====
section
/-!
DEFINITION. One step of the module: the next move of the schedule (R70), an issue, the issue of a pair or an event, and what follows it.
-/
namespace Sys2Proof.Machine

/-- One step. -/
def step (s : State) : Host.Outcome State Fault Refusal :=
  let m := s.takeMove
  let s := m.2.beginMove m.1
  match m.1.act with
  | .issue id => (match s.prepareIssue id with
    | .done s => .next s.settle
    | .run i s => settleOutcome (exec i s))
  | .pair id => settleOutcome (s.issuePair id)
  | .event e inp => settleOutcome (exec e { s with inp := inp })

/-- The state whose next step fetches and runs the instruction of nbits bits whose bits are w (log entry 3). -/
def State.withFetchWord (s : State) (nbits w : Nat) : State := s.placeWord (w % 2 ^ nbits)

end Sys2Proof.Machine
end

