-- ==== Sys2Proof/Laws/Encoding.lean ====
section
/-!
SUPPORT. The fields of a word read back from it: codes of specifiers, types and guards, and every format (R45, R47, R49, R50).
-/
namespace Sys2Proof

@[simp] theorem Specifier.ofCode_toCode (r : Specifier) : Specifier.ofCode r.toCode = r := by
  cases r with
  | x n => revert n; decide
  | v n => revert n; decide
  | s n => revert n; decide
  | q n => revert n; decide
  | a n => revert n; decide
  | reserved n => revert n; decide

theorem Specifier.toCode_lt (r : Specifier) : r.toCode < 64 := by
  cases r <;> simp only [Specifier.toCode] <;> omega

@[simp] theorem ElemType.ofCode_toCode (t : ElemType) : ElemType.ofCode t.toCode = t := by
  cases t with
  | reserved n => revert n; decide
  | _ => rfl

theorem ElemType.toCode_lt (t : ElemType) : t.toCode < 16 := by
  cases t <;> simp only [ElemType.toCode] <;> omega

theorem Guard.toCode_lt (g : Guard) : g.toCode < 16 := by
  obtain ⟨n, p⟩ := g
  cases n <;> simp [Guard.toCode] <;> omega

/-- Format FA read back from a word, with the bits the format reserves zero (R50, R51). -/
theorem unpackFA_pack (h : Nat) (f : FA) : unpackFA (h * 2 ^ 82 + packFA f) = f ∧ reservedZero .fa (h * 2 ^ 82 + packFA f) = true ∧
    packFA f < 2 ^ 82 := by
  have h_d := f.d.toCode_lt
  have h_a := f.a.toCode_lt
  have h_b := f.b.toCode_lt
  have h_c := f.c.toCode_lt
  have h_ty := f.ty.toCode_lt
  have h_md := f.md.isLt
  have e (lo k v : Nat) (hv : (h * 2 ^ 82 + packFA f) / 2 ^ lo % 2 ^ k = v) : bitsAt (h * 2 ^ 82 + packFA f) lo k = v := hv
  have e_d : bitsAt (h * 2 ^ 82 + packFA f) 76 6 = f.d.toCode := e _ _ _ (by unfold packFA; omega)
  have e_a : bitsAt (h * 2 ^ 82 + packFA f) 70 6 = f.a.toCode := e _ _ _ (by unfold packFA; omega)
  have e_b : bitsAt (h * 2 ^ 82 + packFA f) 64 6 = f.b.toCode := e _ _ _ (by unfold packFA; omega)
  have e_c : bitsAt (h * 2 ^ 82 + packFA f) 58 6 = f.c.toCode := e _ _ _ (by unfold packFA; omega)
  have e_ty : bitsAt (h * 2 ^ 82 + packFA f) 54 4 = f.ty.toCode := e _ _ _ (by unfold packFA; omega)
  have e_md : bitsAt (h * 2 ^ 82 + packFA f) 46 8 = f.md.toNat := e _ _ _ (by unfold packFA; omega)
  have e_r : bitsAt (h * 2 ^ 82 + packFA f) 0 46 = 0 := e _ _ _ (by unfold packFA; omega)
  refine ⟨?_, by simp only [reservedZero, e_r, beq_self_eq_true], by unfold packFA; omega⟩
  simp only [unpackFA, specAt, e_d, e_a, e_b, e_c, e_ty, e_md, Specifier.ofCode_toCode, ElemType.ofCode_toCode, BitVec.ofNat_toNat, BitVec.setWidth_eq]

/-- Format FI read back from a word, with the bits the format reserves zero (R50, R51). -/
theorem unpackFI_pack (h : Nat) (f : FI) : unpackFI (h * 2 ^ 82 + packFI f) = f ∧ reservedZero .fi (h * 2 ^ 82 + packFI f) = true ∧
    packFI f < 2 ^ 82 := by
  have h_d := f.d.toCode_lt
  have h_a := f.a.toCode_lt
  have h_ty := f.ty.toCode_lt
  have h_imm := f.imm.isLt
  have e (lo k v : Nat) (hv : (h * 2 ^ 82 + packFI f) / 2 ^ lo % 2 ^ k = v) : bitsAt (h * 2 ^ 82 + packFI f) lo k = v := hv
  have e_d : bitsAt (h * 2 ^ 82 + packFI f) 76 6 = f.d.toCode := e _ _ _ (by unfold packFI; omega)
  have e_a : bitsAt (h * 2 ^ 82 + packFI f) 70 6 = f.a.toCode := e _ _ _ (by unfold packFI; omega)
  have e_ty : bitsAt (h * 2 ^ 82 + packFI f) 66 4 = f.ty.toCode := e _ _ _ (by unfold packFI; omega)
  have e_imm : bitsAt (h * 2 ^ 82 + packFI f) 0 48 = f.imm.toNat := e _ _ _ (by unfold packFI; omega)
  have e_r : bitsAt (h * 2 ^ 82 + packFI f) 48 18 = 0 := e _ _ _ (by unfold packFI; omega)
  refine ⟨?_, by simp only [reservedZero, e_r, beq_self_eq_true], by unfold packFI; omega⟩
  simp only [unpackFI, specAt, e_d, e_a, e_ty, e_imm, Specifier.ofCode_toCode, ElemType.ofCode_toCode, BitVec.ofNat_toNat, BitVec.setWidth_eq]

/-- Format FM read back from a word, with the bits the format reserves zero (R50, R51). -/
theorem unpackFM_pack (h : Nat) (f : FM) : unpackFM (h * 2 ^ 82 + packFM f) = f ∧ reservedZero .fm (h * 2 ^ 82 + packFM f) = true ∧
    packFM f < 2 ^ 82 := by
  have h_t := f.t.toCode_lt
  have h_base := f.base.toCode_lt
  have h_idx := f.idx.toCode_lt
  have h_sc := f.sc.isLt
  have h_sz := f.sz.isLt
  have h_ql := f.ql.isLt
  have h_od := f.od.isLt
  have h_disp := f.disp.isLt
  have e (lo k v : Nat) (hv : (h * 2 ^ 82 + packFM f) / 2 ^ lo % 2 ^ k = v) : bitsAt (h * 2 ^ 82 + packFM f) lo k = v := hv
  have e_t : bitsAt (h * 2 ^ 82 + packFM f) 76 6 = f.t.toCode := e _ _ _ (by unfold packFM; omega)
  have e_base : bitsAt (h * 2 ^ 82 + packFM f) 70 6 = f.base.toCode := e _ _ _ (by unfold packFM; omega)
  have e_idx : bitsAt (h * 2 ^ 82 + packFM f) 64 6 = f.idx.toCode := e _ _ _ (by unfold packFM; omega)
  have e_sc : bitsAt (h * 2 ^ 82 + packFM f) 61 3 = f.sc.toNat := e _ _ _ (by unfold packFM; omega)
  have e_sz : bitsAt (h * 2 ^ 82 + packFM f) 58 3 = f.sz.toNat := e _ _ _ (by unfold packFM; omega)
  have e_ql : bitsAt (h * 2 ^ 82 + packFM f) 54 4 = f.ql.toNat := e _ _ _ (by unfold packFM; omega)
  have e_od : bitsAt (h * 2 ^ 82 + packFM f) 50 4 = f.od.toNat := e _ _ _ (by unfold packFM; omega)
  have e_disp : bitsAt (h * 2 ^ 82 + packFM f) 0 32 = f.disp.toNat := e _ _ _ (by unfold packFM; omega)
  have e_r : bitsAt (h * 2 ^ 82 + packFM f) 32 18 = 0 := e _ _ _ (by unfold packFM; omega)
  refine ⟨?_, by simp only [reservedZero, e_r, beq_self_eq_true], by unfold packFM; omega⟩
  simp only [unpackFM, specAt, e_t, e_base, e_idx, e_sc, e_sz, e_ql, e_od, e_disp, Specifier.ofCode_toCode, BitVec.ofNat_toNat, BitVec.setWidth_eq]

/-- Format FB read back from a word, with the bits the format reserves zero (R50, R51). -/
theorem unpackFB_pack (h : Nat) (f : FB) : unpackFB (h * 2 ^ 82 + packFB f) = f ∧ reservedZero .fb (h * 2 ^ 82 + packFB f) = true ∧
    packFB f < 2 ^ 82 := by
  have h_a := f.a.toCode_lt
  have h_b := f.b.toCode_lt
  have h_cc := f.cc.isLt
  have h_md := f.md.isLt
  have h_disp := f.disp.isLt
  have e (lo k v : Nat) (hv : (h * 2 ^ 82 + packFB f) / 2 ^ lo % 2 ^ k = v) : bitsAt (h * 2 ^ 82 + packFB f) lo k = v := hv
  have e_a : bitsAt (h * 2 ^ 82 + packFB f) 76 6 = f.a.toCode := e _ _ _ (by unfold packFB; omega)
  have e_b : bitsAt (h * 2 ^ 82 + packFB f) 70 6 = f.b.toCode := e _ _ _ (by unfold packFB; omega)
  have e_cc : bitsAt (h * 2 ^ 82 + packFB f) 66 4 = f.cc.toNat := e _ _ _ (by unfold packFB; omega)
  have e_md : bitsAt (h * 2 ^ 82 + packFB f) 58 8 = f.md.toNat := e _ _ _ (by unfold packFB; omega)
  have e_disp : bitsAt (h * 2 ^ 82 + packFB f) 0 40 = f.disp.toNat := e _ _ _ (by unfold packFB; omega)
  have e_r : bitsAt (h * 2 ^ 82 + packFB f) 40 18 = 0 := e _ _ _ (by unfold packFB; omega)
  refine ⟨?_, by simp only [reservedZero, e_r, beq_self_eq_true], by unfold packFB; omega⟩
  simp only [unpackFB, specAt, e_a, e_b, e_cc, e_md, e_disp, Specifier.ofCode_toCode, BitVec.ofNat_toNat, BitVec.setWidth_eq]

/-- Format FX read back from a word, with the bits the format reserves zero (R50, R51). -/
theorem unpackFX_pack (h : Nat) (f : FX) : unpackFX (h * 2 ^ 82 + packFX f) = f ∧ reservedZero .fx (h * 2 ^ 82 + packFX f) = true ∧
    packFX f < 2 ^ 82 := by
  have h_d := f.d.toCode_lt
  have h_a := f.a.toCode_lt
  have h_b := f.b.toCode_lt
  have h_c := f.c.toCode_lt
  have h_tya := f.tya.toCode_lt
  have h_tyb := f.tyb.toCode_lt
  have h_md := f.md.isLt
  have h_imm := f.imm.isLt
  have e (lo k v : Nat) (hv : (h * 2 ^ 82 + packFX f) / 2 ^ lo % 2 ^ k = v) : bitsAt (h * 2 ^ 82 + packFX f) lo k = v := hv
  have e_d : bitsAt (h * 2 ^ 82 + packFX f) 76 6 = f.d.toCode := e _ _ _ (by unfold packFX; omega)
  have e_a : bitsAt (h * 2 ^ 82 + packFX f) 70 6 = f.a.toCode := e _ _ _ (by unfold packFX; omega)
  have e_b : bitsAt (h * 2 ^ 82 + packFX f) 64 6 = f.b.toCode := e _ _ _ (by unfold packFX; omega)
  have e_c : bitsAt (h * 2 ^ 82 + packFX f) 58 6 = f.c.toCode := e _ _ _ (by unfold packFX; omega)
  have e_tya : bitsAt (h * 2 ^ 82 + packFX f) 54 4 = f.tya.toCode := e _ _ _ (by unfold packFX; omega)
  have e_tyb : bitsAt (h * 2 ^ 82 + packFX f) 50 4 = f.tyb.toCode := e _ _ _ (by unfold packFX; omega)
  have e_md : bitsAt (h * 2 ^ 82 + packFX f) 42 8 = f.md.toNat := e _ _ _ (by unfold packFX; omega)
  have e_imm : bitsAt (h * 2 ^ 82 + packFX f) 26 16 = f.imm.toNat := e _ _ _ (by unfold packFX; omega)
  have e_r : bitsAt (h * 2 ^ 82 + packFX f) 0 26 = 0 := e _ _ _ (by unfold packFX; omega)
  refine ⟨?_, by simp only [reservedZero, e_r, beq_self_eq_true], by unfold packFX; omega⟩
  simp only [unpackFX, specAt, e_d, e_a, e_b, e_c, e_tya, e_tyb, e_md, e_imm, Specifier.ofCode_toCode, ElemType.ofCode_toCode, BitVec.ofNat_toNat, BitVec.setWidth_eq]

/-- Format FH read back from a word, with the bits the format reserves zero (R50, R51). -/
theorem unpackFH_pack (h : Nat) (f : FH) : unpackFH (h * 2 ^ 82 + packFH f) = f ∧ reservedZero .fh (h * 2 ^ 82 + packFH f) = true ∧
    packFH f < 2 ^ 82 := by
  have h_d := f.d.toCode_lt
  have h_a := f.a.toCode_lt
  have h_b := f.b.toCode_lt
  have h_c := f.c.toCode_lt
  have h_tbl := f.tbl.isLt
  have h_md := f.md.isLt
  have h_cnt := f.cnt.isLt
  have e (lo k v : Nat) (hv : (h * 2 ^ 82 + packFH f) / 2 ^ lo % 2 ^ k = v) : bitsAt (h * 2 ^ 82 + packFH f) lo k = v := hv
  have e_d : bitsAt (h * 2 ^ 82 + packFH f) 76 6 = f.d.toCode := e _ _ _ (by unfold packFH; omega)
  have e_a : bitsAt (h * 2 ^ 82 + packFH f) 70 6 = f.a.toCode := e _ _ _ (by unfold packFH; omega)
  have e_b : bitsAt (h * 2 ^ 82 + packFH f) 64 6 = f.b.toCode := e _ _ _ (by unfold packFH; omega)
  have e_c : bitsAt (h * 2 ^ 82 + packFH f) 58 6 = f.c.toCode := e _ _ _ (by unfold packFH; omega)
  have e_tbl : bitsAt (h * 2 ^ 82 + packFH f) 52 6 = f.tbl.toNat := e _ _ _ (by unfold packFH; omega)
  have e_md : bitsAt (h * 2 ^ 82 + packFH f) 48 4 = f.md.toNat := e _ _ _ (by unfold packFH; omega)
  have e_cnt : bitsAt (h * 2 ^ 82 + packFH f) 32 16 = f.cnt.toNat := e _ _ _ (by unfold packFH; omega)
  have e_r : bitsAt (h * 2 ^ 82 + packFH f) 0 32 = 0 := e _ _ _ (by unfold packFH; omega)
  refine ⟨?_, by simp only [reservedZero, e_r, beq_self_eq_true], by unfold packFH; omega⟩
  simp only [unpackFH, specAt, e_d, e_a, e_b, e_c, e_tbl, e_md, e_cnt, Specifier.ofCode_toCode, BitVec.ofNat_toNat, BitVec.setWidth_eq]

/-- Format FS read back from a word, with the bits the format reserves zero (R50, R51). -/
theorem unpackFS_pack (h : Nat) (f : FS) : unpackFS (h * 2 ^ 82 + packFS f) = f ∧ reservedZero .fs (h * 2 ^ 82 + packFS f) = true ∧
    packFS f < 2 ^ 82 := by
  have h_d := f.d.toCode_lt
  have h_a := f.a.toCode_lt
  have h_b := f.b.toCode_lt
  have h_sel := f.sel.isLt
  have h_imm := f.imm.isLt
  have e (lo k v : Nat) (hv : (h * 2 ^ 82 + packFS f) / 2 ^ lo % 2 ^ k = v) : bitsAt (h * 2 ^ 82 + packFS f) lo k = v := hv
  have e_d : bitsAt (h * 2 ^ 82 + packFS f) 76 6 = f.d.toCode := e _ _ _ (by unfold packFS; omega)
  have e_a : bitsAt (h * 2 ^ 82 + packFS f) 70 6 = f.a.toCode := e _ _ _ (by unfold packFS; omega)
  have e_b : bitsAt (h * 2 ^ 82 + packFS f) 64 6 = f.b.toCode := e _ _ _ (by unfold packFS; omega)
  have e_sel : bitsAt (h * 2 ^ 82 + packFS f) 48 16 = f.sel.toNat := e _ _ _ (by unfold packFS; omega)
  have e_imm : bitsAt (h * 2 ^ 82 + packFS f) 0 32 = f.imm.toNat := e _ _ _ (by unfold packFS; omega)
  have e_r : bitsAt (h * 2 ^ 82 + packFS f) 32 16 = 0 := e _ _ _ (by unfold packFS; omega)
  refine ⟨?_, by simp only [reservedZero, e_r, beq_self_eq_true], by unfold packFS; omega⟩
  simp only [unpackFS, specAt, e_d, e_a, e_b, e_sel, e_imm, Specifier.ofCode_toCode, BitVec.ofNat_toNat, BitVec.setWidth_eq]

/-- The opcode and the guard of a word (R45). -/
theorem head_of_word (op g b : Nat) (hg : g < 16) (hb : b < 2 ^ 82) (ho : op < 1024) :
    bitsAt ((op * 16 + g) * 2 ^ 82 + b) 86 10 = op ∧ bitsAt ((op * 16 + g) * 2 ^ 82 + b) 85 1 = g / 8 ∧
      bitsAt ((op * 16 + g) * 2 ^ 82 + b) 82 3 = g % 8 ∧ (op * 16 + g) * 2 ^ 82 + b < 2 ^ 96 := by
  unfold bitsAt
  omega

theorem Guard.code_parts (g : Guard) : ((g.toCode / 8 == 1) = g.neg) ∧ g.toCode % 8 = g.pred.val := by
  obtain ⟨n, p⟩ := g
  revert n p
  decide

theorem guardOf_word (op b : Nat) (g : Guard) (hb : b < 2 ^ 82) (ho : op < 1024) :
    guardOf ((op * 16 + g.toCode) * 2 ^ 82 + b) = g := by
  obtain ⟨-, h1, h2, -⟩ := head_of_word op g.toCode b g.toCode_lt hb ho
  obtain ⟨h3, h4⟩ := g.code_parts
  simp only [guardOf, h1, h2, h3, h4]

end Sys2Proof
end

