-- ==== Sys2Proof/Laws/PerInstr.lean ====
section
/-!
SUPPORT. The round trip of every instruction word: what the encoder writes for a well-formed instruction and a guard that a word may
hold, the decoder reads back, but for the word of all zeros (R43, R65).
-/
namespace Sys2Proof.Laws.WordRoundTrip

/-- An instruction's words decode to it and to the guard they hold. -/
def Statement (i : Instr) : Prop :=
  ∀ g : Guard, g.legal = true → i.isWord = true → i.wellFormed = true → encode g i ≠ 0 → decode (encode g i) = .ok (g, i)

theorem of_parts (i : Instr) (op b : Nat) (ho : i.opcode = some op) (hb : i.body = some b) (hlt : b < 2 ^ 82) (h1024 : op < 960)
    (hd : ∀ h, i.wellFormed = true → decodeOpcode op (h * 2 ^ 82 + b) = some i)
    (hr : ∀ h, reservedZero (formatOf op) (h * 2 ^ 82 + b) = true) (hs : i.shape.isSome = true) : Statement i := by
  intro g hg _ hw hz
  obtain ⟨h, hh⟩ := Option.isSome_iff_exists.1 hs
  have e : op * 2 ^ 86 + g.toCode * 2 ^ 82 + b = (op * 16 + g.toCode) * 2 ^ 82 + b := by omega
  have hword : encode g i = .ofNat 96 ((op * 16 + g.toCode) * 2 ^ 82 + b) := by
    rw [← e]
    unfold encode
    rw [ho, hb]
  obtain ⟨h1, -, -, h4⟩ := head_of_word op g.toCode b g.toCode_lt hlt (by omega)
  have hn : (encode g i).toNat = (op * 16 + g.toCode) * 2 ^ 82 + b := by
    rw [hword, BitVec.toNat_ofNat, Nat.mod_eq_of_lt h4]
  have h2 := guardOf_word op b g hlt (by omega)
  have h3 := hd (op * 16 + g.toCode) hw
  have h5 := hr (op * 16 + g.toCode)
  have hall : (op * 16 + g.toCode) * 2 ^ 82 + b ≠ 2 ^ 96 - 1 := by
    have := g.toCode_lt
    omega
  rw [← hn] at h1 h2 h3 h5 hall
  have hne : (encode g i).toNat ≠ 0 := fun h0 => hz (BitVec.eq_of_toNat_eq h0)
  unfold Instr.wellFormed at hw
  rw [hh] at hw
  obtain ⟨hf, hop⟩ := Bool.and_eq_true_iff.1 hw
  have hleg : g ≠ ⟨true, 0⟩ := by simpa [Guard.legal] using hg
  unfold decode decodeFor
  simp only [h1, h2, h3, h5, hh, hf, hop, hne, hall, hleg, or_self, if_false, Option.any_none, Bool.false_eq_true,
    Bool.and_self, Bool.not_true, Bool.and_false]

theorem of_event (i : Instr) (h : i.isWord = false) : Statement i := by
  intro g _ hi
  rw [h] at hi
  exact absurd hi (by decide)


theorem ofFA (mk : FA → Instr) (op : Nat) (f : FA) (ho : (mk f).opcode = some op) (hb : (mk f).body = some (packFA f)) (hlt : op < 960)
    (hd : ∀ n, unpackFA n = f → (mk f).wellFormed = true → decodeOpcode op n = some (mk f)) (hf : formatOf op = .fa)
    (hs : (mk f).shape.isSome = true) : Statement (mk f) :=
  of_parts (mk f) op (packFA f) ho hb (unpackFA_pack 0 f).2.2 hlt (fun h => hd _ (unpackFA_pack h f).1)
    (fun h => by rw [hf]; exact (unpackFA_pack h f).2.1) hs


theorem ofFI (mk : FI → Instr) (op : Nat) (f : FI) (ho : (mk f).opcode = some op) (hb : (mk f).body = some (packFI f)) (hlt : op < 960)
    (hd : ∀ n, unpackFI n = f → (mk f).wellFormed = true → decodeOpcode op n = some (mk f)) (hf : formatOf op = .fi)
    (hs : (mk f).shape.isSome = true) : Statement (mk f) :=
  of_parts (mk f) op (packFI f) ho hb (unpackFI_pack 0 f).2.2 hlt (fun h => hd _ (unpackFI_pack h f).1)
    (fun h => by rw [hf]; exact (unpackFI_pack h f).2.1) hs


theorem ofFM (mk : FM → Instr) (op : Nat) (f : FM) (ho : (mk f).opcode = some op) (hb : (mk f).body = some (packFM f)) (hlt : op < 960)
    (hd : ∀ n, unpackFM n = f → (mk f).wellFormed = true → decodeOpcode op n = some (mk f)) (hf : formatOf op = .fm)
    (hs : (mk f).shape.isSome = true) : Statement (mk f) :=
  of_parts (mk f) op (packFM f) ho hb (unpackFM_pack 0 f).2.2 hlt (fun h => hd _ (unpackFM_pack h f).1)
    (fun h => by rw [hf]; exact (unpackFM_pack h f).2.1) hs


theorem ofFB (mk : FB → Instr) (op : Nat) (f : FB) (ho : (mk f).opcode = some op) (hb : (mk f).body = some (packFB f)) (hlt : op < 960)
    (hd : ∀ n, unpackFB n = f → (mk f).wellFormed = true → decodeOpcode op n = some (mk f)) (hf : formatOf op = .fb)
    (hs : (mk f).shape.isSome = true) : Statement (mk f) :=
  of_parts (mk f) op (packFB f) ho hb (unpackFB_pack 0 f).2.2 hlt (fun h => hd _ (unpackFB_pack h f).1)
    (fun h => by rw [hf]; exact (unpackFB_pack h f).2.1) hs


theorem ofFX (mk : FX → Instr) (op : Nat) (f : FX) (ho : (mk f).opcode = some op) (hb : (mk f).body = some (packFX f)) (hlt : op < 960)
    (hd : ∀ n, unpackFX n = f → (mk f).wellFormed = true → decodeOpcode op n = some (mk f)) (hf : formatOf op = .fx)
    (hs : (mk f).shape.isSome = true) : Statement (mk f) :=
  of_parts (mk f) op (packFX f) ho hb (unpackFX_pack 0 f).2.2 hlt (fun h => hd _ (unpackFX_pack h f).1)
    (fun h => by rw [hf]; exact (unpackFX_pack h f).2.1) hs


theorem ofFH (mk : FH → Instr) (op : Nat) (f : FH) (ho : (mk f).opcode = some op) (hb : (mk f).body = some (packFH f)) (hlt : op < 960)
    (hd : ∀ n, unpackFH n = f → (mk f).wellFormed = true → decodeOpcode op n = some (mk f)) (hf : formatOf op = .fh)
    (hs : (mk f).shape.isSome = true) : Statement (mk f) :=
  of_parts (mk f) op (packFH f) ho hb (unpackFH_pack 0 f).2.2 hlt (fun h => hd _ (unpackFH_pack h f).1)
    (fun h => by rw [hf]; exact (unpackFH_pack h f).2.1) hs


theorem ofFS (mk : FS → Instr) (op : Nat) (f : FS) (ho : (mk f).opcode = some op) (hb : (mk f).body = some (packFS f)) (hlt : op < 960)
    (hd : ∀ n, unpackFS n = f → (mk f).wellFormed = true → decodeOpcode op n = some (mk f)) (hf : formatOf op = .fs)
    (hs : (mk f).shape.isSome = true) : Statement (mk f) :=
  of_parts (mk f) op (packFS f) ho hb (unpackFS_pack 0 f).2.2 hlt (fun h => hd _ (unpackFS_pack h f).1)
    (fun h => by rw [hf]; exact (unpackFS_pack h f).2.1) hs

theorem powerGood : Statement (.powerGood) := of_event _ rfl
theorem perst : Statement (.perst) := of_event _ rfl
theorem bootStageDone : Statement (.bootStageDone) := of_event _ rfl
theorem getFwInfo : Statement (.getFwInfo) := of_event _ rfl
theorem transferFw : Statement (.transferFw) := of_event _ rfl
theorem activateFw : Statement (.activateFw) := of_event _ rfl
theorem identify : Statement (.identify) := of_event _ rfl
theorem mailboxBusy : Statement (.mailboxBusy) := of_event _ rfl
theorem createTenant : Statement (.createTenant) := of_event _ rfl
theorem setWindow : Statement (.setWindow) := of_event _ rfl
theorem loadKey : Statement (.loadKey) := of_event _ rfl
theorem scrubTenant : Statement (.scrubTenant) := of_event _ rfl
theorem getReceipt : Statement (.getReceipt) := of_event _ rfl
theorem setAclSetRoute : Statement (.setAclSetRoute) := of_event _ rfl
theorem getLog : Statement (.getLog) := of_event _ rfl
theorem cxlMemRead : Statement (.cxlMemRead) := of_event _ rfl
theorem cxlMemWrite : Statement (.cxlMemWrite) := of_event _ rfl
theorem islctlReqOn : Statement (.islctlReqOn) := of_event _ rfl
theorem islctlReqCgated : Statement (.islctlReqCgated) := of_event _ rfl
theorem islctlReqPgated : Statement (.islctlReqPgated) := of_event _ rfl
theorem islctlReqReserved : Statement (.islctlReqReserved) := of_event _ rfl
theorem islandTransitionDone : Statement (.islandTransitionDone) := of_event _ rfl
theorem gatedRowMove : Statement (.gatedRowMove) := of_event _ rfl
theorem plimWrite : Statement (.plimWrite) := of_event _ rfl
theorem controlRegisterWrite : Statement (.controlRegisterWrite) := of_event _ rfl
theorem farTierRegisterWrite : Statement (.farTierRegisterWrite) := of_event _ rfl
theorem rowhctlApply : Statement (.rowhctlApply) := of_event _ rfl
theorem rowhashApplyDone : Statement (.rowhashApplyDone) := of_event _ rfl
theorem powerInterval : Statement (.powerInterval) := of_event _ rfl
theorem fastGuard : Statement (.fastGuard) := of_event _ rfl
theorem thermalLimit : Statement (.thermalLimit) := of_event _ rfl
theorem thermalRelease : Statement (.thermalRelease) := of_event _ rfl
theorem thermalTrip : Statement (.thermalTrip) := of_event _ rfl
theorem start : Statement (.start) := of_event _ rfl
theorem stop : Statement (.stop) := of_event _ rfl
theorem redirect : Statement (.redirect) := of_event _ rfl
theorem resume : Statement (.resume) := of_event _ rfl
theorem kill : Statement (.kill) := of_event _ rfl
theorem step : Statement (.step) := of_event _ rfl
theorem commandReserved : Statement (.commandReserved) := of_event _ rfl
theorem drain : Statement (.drain) := of_event _ rfl
theorem refresh : Statement (.refresh) := of_event _ rfl
theorem apply : Statement (.apply) := of_event _ rfl
theorem engacc : Statement (.engacc) := of_event _ rfl
theorem complete : Statement (.complete) := of_event _ rfl
theorem happly : Statement (.happly) := of_event _ rfl
theorem counterMove : Statement (.counterMove) := of_event _ rfl
theorem fetchFill : Statement (.fetchFill) := of_event _ rfl
theorem streamPrefetch : Statement (.streamPrefetch) := of_event _ rfl
theorem rowSchedOpen : Statement (.rowSchedOpen) := of_event _ rfl
theorem quantumClose : Statement (.quantumClose) := of_event _ rfl
theorem priorityClose : Statement (.priorityClose) := of_event _ rfl
theorem spinWindowExpiry : Statement (.spinWindowExpiry) := of_event _ rfl
theorem waitWake : Statement (.waitWake) := of_event _ rfl
theorem thWaitTick : Statement (.thWaitTick) := of_event _ rfl
theorem spawnReply : Statement (.spawnReply) := of_event _ rfl
theorem rowEviction : Statement (.rowEviction) := of_event _ rfl
theorem rowReload : Statement (.rowReload) := of_event _ rfl
theorem rowReclaim : Statement (.rowReclaim) := of_event _ rfl
theorem post : Statement (.post) := of_event _ rfl
theorem translationMissPost : Statement (.translationMissPost) := of_event _ rfl
theorem translationReply : Statement (.translationReply) := of_event _ rfl
theorem tlbAck : Statement (.tlbAck) := of_event _ rfl
theorem invalidationCounterMove : Statement (.invalidationCounterMove) := of_event _ rfl
theorem stragglerReset : Statement (.stragglerReset) := of_event _ rfl
theorem matrixArithComplete : Statement (.matrixArithComplete) := of_event _ rfl
theorem walkBegin : Statement (.walkBegin) := of_event _ rfl
theorem walkerWatchdog : Statement (.walkerWatchdog) := of_event _ rfl
theorem subarrayRefresh : Statement (.subarrayRefresh) := of_event _ rfl
theorem refreshReactivate : Statement (.refreshReactivate) := of_event _ rfl
theorem activateGrant : Statement (.activateGrant) := of_event _ rfl
theorem claimTimeout : Statement (.claimTimeout) := of_event _ rfl
theorem enckeWatchdog : Statement (.enckeWatchdog) := of_event _ rfl
theorem channelReset : Statement (.channelReset) := of_event _ rfl
theorem slotBoundary : Statement (.slotBoundary) := of_event _ rfl
theorem deadlockGuard : Statement (.deadlockGuard) := of_event _ rfl
theorem handbackPost : Statement (.handbackPost) := of_event _ rfl
theorem launchPacket : Statement (.launchPacket) := of_event _ rfl
theorem trackerPeriod : Statement (.trackerPeriod) := of_event _ rfl
theorem dpitMoveDone : Statement (.dpitMoveDone) := of_event _ rfl
theorem dpitRevertDone : Statement (.dpitRevertDone) := of_event _ rfl
theorem scrubComplete : Statement (.scrubComplete) := of_event _ rfl
theorem flitReceive : Statement (.flitReceive) := of_event _ rfl
theorem replayTimeout : Statement (.replayTimeout) := of_event _ rfl
theorem linkLost : Statement (.linkLost) := of_event _ rfl
theorem laneDegraded : Statement (.laneDegraded) := of_event _ rfl
theorem retrainDone : Statement (.retrainDone) := of_event _ rfl
theorem portRetrain : Statement (.portRetrain) := of_event _ rfl
theorem inboundGetRequest : Statement (.inboundGetRequest) := of_event _ rfl
theorem inboundPut : Statement (.inboundPut) := of_event _ rfl
theorem inboundLaunch : Statement (.inboundLaunch) := of_event _ rfl
theorem inboundSync : Statement (.inboundSync) := of_event _ rfl
theorem inboundAtomicRequest : Statement (.inboundAtomicRequest) := of_event _ rfl
theorem getData : Statement (.getData) := of_event _ rfl
theorem putAcknowledgement : Statement (.putAcknowledgement) := of_event _ rfl
theorem atomicReply : Statement (.atomicReply) := of_event _ rfl
theorem fabricError : Statement (.fabricError) := of_event _ rfl
theorem thSpawn (f : FA) : Statement (.thSpawn f) :=
  ofFA .thSpawn 0x000 f rfl rfl (by decide) (fun n h _ => by rw [← h]; rfl) rfl rfl
theorem thStart (f : FA) : Statement (.thStart f) :=
  ofFA .thStart 0x001 f rfl rfl (by decide) (fun n h _ => by rw [← h]; rfl) rfl rfl
theorem thStop (f : FA) : Statement (.thStop f) :=
  ofFA .thStop 0x002 f rfl rfl (by decide) (fun n h _ => by rw [← h]; rfl) rfl rfl
theorem thRedirect (f : FA) : Statement (.thRedirect f) :=
  ofFA .thRedirect 0x003 f rfl rfl (by decide) (fun n h _ => by rw [← h]; rfl) rfl rfl
theorem thYield (f : FA) : Statement (.thYield f) :=
  ofFA .thYield 0x004 f rfl rfl (by decide) (fun n h _ => by rw [← h]; rfl) rfl rfl
theorem thWait (f : FI) : Statement (.thWait f) :=
  ofFI .thWait 0x005 f rfl rfl (by decide) (fun n h _ => by rw [← h]; rfl) rfl rfl
theorem thExit (f : FA) : Statement (.thExit f) :=
  ofFA .thExit 0x006 f rfl rfl (by decide) (fun n h _ => by rw [← h]; rfl) rfl rfl
theorem thSelf (f : FA) : Statement (.thSelf f) :=
  ofFA .thSelf 0x007 f rfl rfl (by decide) (fun n h _ => by rw [← h]; rfl) rfl rfl
theorem thPeek (f : FM) : Statement (.thPeek f) :=
  ofFM .thPeek 0x008 f rfl rfl (by decide) (fun n h _ => by rw [← h]; rfl) rfl rfl
theorem nop (f : FB) : Statement (.nop f) :=
  ofFB .nop 0x040 f rfl rfl (by decide) (fun n h _ => by rw [← h]; rfl) rfl rfl
theorem br (f : FB) : Statement (.br f) :=
  ofFB .br 0x041 f rfl rfl (by decide) (fun n h _ => by rw [← h]; rfl) rfl rfl
theorem bcmp (f : FB) : Statement (.bcmp f) :=
  ofFB .bcmp 0x042 f rfl rfl (by decide) (fun n h _ => by rw [← h]; rfl) rfl rfl
theorem bri (f : FB) : Statement (.bri f) :=
  ofFB .bri 0x043 f rfl rfl (by decide) (fun n h _ => by rw [← h]; rfl) rfl rfl
theorem jt (f : FB) : Statement (.jt f) :=
  ofFB .jt 0x044 f rfl rfl (by decide) (fun n h _ => by rw [← h]; rfl) rfl rfl
theorem lpad (f : FB) : Statement (.lpad f) :=
  ofFB .lpad 0x045 f rfl rfl (by decide) (fun n h _ => by rw [← h]; rfl) rfl rfl
theorem call (f : FB) : Statement (.call f) :=
  ofFB .call 0x046 f rfl rfl (by decide) (fun n h _ => by rw [← h]; rfl) rfl rfl
theorem calli (f : FB) : Statement (.calli f) :=
  ofFB .calli 0x047 f rfl rfl (by decide) (fun n h _ => by rw [← h]; rfl) rfl rfl
theorem ret (f : FB) : Statement (.ret f) :=
  ofFB .ret 0x048 f rfl rfl (by decide) (fun n h _ => by rw [← h]; rfl) rfl rfl
theorem loop (f : FB) : Statement (.loop f) :=
  ofFB .loop 0x049 f rfl rfl (by decide) (fun n h _ => by rw [← h]; rfl) rfl rfl
theorem fsync (f : FB) : Statement (.fsync f) :=
  ofFB .fsync 0x04A f rfl rfl (by decide) (fun n h _ => by rw [← h]; rfl) rfl rfl
theorem pand (f : FA) : Statement (.pand f) :=
  ofFA .pand 0x04B f rfl rfl (by decide) (fun n h _ => by rw [← h]; rfl) rfl rfl
theorem por (f : FA) : Statement (.por f) :=
  ofFA .por 0x04C f rfl rfl (by decide) (fun n h _ => by rw [← h]; rfl) rfl rfl
theorem pxor (f : FA) : Statement (.pxor f) :=
  ofFA .pxor 0x04D f rfl rfl (by decide) (fun n h _ => by rw [← h]; rfl) rfl rfl
theorem pnot (f : FA) : Statement (.pnot f) :=
  ofFA .pnot 0x04E f rfl rfl (by decide) (fun n h _ => by rw [← h]; rfl) rfl rfl
theorem addFa (f : FA) : Statement (.addFa f) :=
  ofFA .addFa 0x080 f rfl rfl (by decide) (fun n h _ => by rw [← h]; rfl) rfl rfl
theorem addFi (f : FI) : Statement (.addFi f) :=
  ofFI .addFi 0x0A0 f rfl rfl (by decide) (fun n h _ => by rw [← h]; rfl) rfl rfl
theorem sub (f : FA) : Statement (.sub f) :=
  ofFA .sub 0x081 f rfl rfl (by decide) (fun n h _ => by rw [← h]; rfl) rfl rfl
theorem andFa (f : FA) : Statement (.andFa f) :=
  ofFA .andFa 0x082 f rfl rfl (by decide) (fun n h _ => by rw [← h]; rfl) rfl rfl
theorem andFi (f : FI) : Statement (.andFi f) :=
  ofFI .andFi 0x0A2 f rfl rfl (by decide) (fun n h _ => by rw [← h]; rfl) rfl rfl
theorem orFa (f : FA) : Statement (.orFa f) :=
  ofFA .orFa 0x083 f rfl rfl (by decide) (fun n h _ => by rw [← h]; rfl) rfl rfl
theorem orFi (f : FI) : Statement (.orFi f) :=
  ofFI .orFi 0x0A3 f rfl rfl (by decide) (fun n h _ => by rw [← h]; rfl) rfl rfl
theorem xorFa (f : FA) : Statement (.xorFa f) :=
  ofFA .xorFa 0x084 f rfl rfl (by decide) (fun n h _ => by rw [← h]; rfl) rfl rfl
theorem xorFi (f : FI) : Statement (.xorFi f) :=
  ofFI .xorFi 0x0A4 f rfl rfl (by decide) (fun n h _ => by rw [← h]; rfl) rfl rfl
theorem andn (f : FA) : Statement (.andn f) :=
  ofFA .andn 0x085 f rfl rfl (by decide) (fun n h _ => by rw [← h]; rfl) rfl rfl
theorem minFa (f : FA) : Statement (.minFa f) :=
  ofFA .minFa 0x086 f rfl rfl (by decide) (fun n h _ => by rw [← h]; rfl) rfl rfl
theorem minFi (f : FI) : Statement (.minFi f) :=
  ofFI .minFi 0x0A6 f rfl rfl (by decide) (fun n h _ => by rw [← h]; rfl) rfl rfl
theorem maxFa (f : FA) : Statement (.maxFa f) :=
  ofFA .maxFa 0x087 f rfl rfl (by decide) (fun n h _ => by rw [← h]; rfl) rfl rfl
theorem maxFi (f : FI) : Statement (.maxFi f) :=
  ofFI .maxFi 0x0A7 f rfl rfl (by decide) (fun n h _ => by rw [← h]; rfl) rfl rfl
theorem minuFa (f : FA) : Statement (.minuFa f) :=
  ofFA .minuFa 0x088 f rfl rfl (by decide) (fun n h _ => by rw [← h]; rfl) rfl rfl
theorem minuFi (f : FI) : Statement (.minuFi f) :=
  ofFI .minuFi 0x0A8 f rfl rfl (by decide) (fun n h _ => by rw [← h]; rfl) rfl rfl
theorem maxuFa (f : FA) : Statement (.maxuFa f) :=
  ofFA .maxuFa 0x089 f rfl rfl (by decide) (fun n h _ => by rw [← h]; rfl) rfl rfl
theorem maxuFi (f : FI) : Statement (.maxuFi f) :=
  ofFI .maxuFi 0x0A9 f rfl rfl (by decide) (fun n h _ => by rw [← h]; rfl) rfl rfl
theorem adds (f : FA) : Statement (.adds f) :=
  ofFA .adds 0x08A f rfl rfl (by decide) (fun n h _ => by rw [← h]; rfl) rfl rfl
theorem subs (f : FA) : Statement (.subs f) :=
  ofFA .subs 0x08B f rfl rfl (by decide) (fun n h _ => by rw [← h]; rfl) rfl rfl
theorem cmpFa (f : FA) : Statement (.cmpFa f) :=
  ofFA .cmpFa 0x08C f rfl rfl (by decide) (fun n h _ => by rw [← h]; rfl) rfl rfl
theorem cmpFi (f : FI) : Statement (.cmpFi f) :=
  ofFI .cmpFi 0x0AC f rfl rfl (by decide) (fun n h _ => by rw [← h]; rfl) rfl rfl
theorem sel (f : FA) : Statement (.sel f) :=
  ofFA .sel 0x08D f rfl rfl (by decide) (fun n h _ => by rw [← h]; rfl) rfl rfl
theorem movFa (f : FA) : Statement (.movFa f) :=
  ofFA .movFa 0x08E f rfl rfl (by decide) (fun n h _ => by rw [← h]; rfl) rfl rfl
theorem movFi (f : FI) : Statement (.movFi f) :=
  ofFI .movFi 0x0AE f rfl rfl (by decide) (fun n h _ => by rw [← h]; rfl) rfl rfl
theorem movhi (f : FI) : Statement (.movhi f) :=
  ofFI .movhi 0x0B0 f rfl rfl (by decide) (fun n h _ => by rw [← h]; rfl) rfl rfl
theorem lea (f : FA) : Statement (.lea f) :=
  ofFA .lea 0x08F f rfl rfl (by decide) (fun n h _ => by rw [← h]; rfl) rfl rfl
theorem rowa (f : FA) : Statement (.rowa f) :=
  ofFA .rowa 0x090 f rfl rfl (by decide) (fun n h _ => by rw [← h]; rfl) rfl rfl
theorem mulFa (f : FA) : Statement (.mulFa f) :=
  ofFA .mulFa 0x0C0 f rfl rfl (by decide) (fun n h _ => by rw [← h]; rfl) rfl rfl
theorem mulFi (f : FI) : Statement (.mulFi f) :=
  ofFI .mulFi 0x0E0 f rfl rfl (by decide) (fun n h _ => by rw [← h]; rfl) rfl rfl
theorem mulh (f : FA) : Statement (.mulh f) :=
  ofFA .mulh 0x0C1 f rfl rfl (by decide) (fun n h _ => by rw [← h]; rfl) rfl rfl
theorem mulhu (f : FA) : Statement (.mulhu f) :=
  ofFA .mulhu 0x0C2 f rfl rfl (by decide) (fun n h _ => by rw [← h]; rfl) rfl rfl
theorem div (f : FA) : Statement (.div f) :=
  ofFA .div 0x0C3 f rfl rfl (by decide) (fun n h _ => by rw [← h]; rfl) rfl rfl
theorem divu (f : FA) : Statement (.divu f) :=
  ofFA .divu 0x0C4 f rfl rfl (by decide) (fun n h _ => by rw [← h]; rfl) rfl rfl
theorem rem (f : FA) : Statement (.rem f) :=
  ofFA .rem 0x0C5 f rfl rfl (by decide) (fun n h _ => by rw [← h]; rfl) rfl rfl
theorem remu (f : FA) : Statement (.remu f) :=
  ofFA .remu 0x0C6 f rfl rfl (by decide) (fun n h _ => by rw [← h]; rfl) rfl rfl
theorem muls (f : FA) : Statement (.muls f) :=
  ofFA .muls 0x0C7 f rfl rfl (by decide) (fun n h _ => by rw [← h]; rfl) rfl rfl
theorem shlFa (f : FA) : Statement (.shlFa f) :=
  ofFA .shlFa 0x0C8 f rfl rfl (by decide) (fun n h _ => by rw [← h]; rfl) rfl rfl
theorem shlFi (f : FI) : Statement (.shlFi f) :=
  ofFI .shlFi 0x0E8 f rfl rfl (by decide) (fun n h _ => by rw [← h]; rfl) rfl rfl
theorem shrFa (f : FA) : Statement (.shrFa f) :=
  ofFA .shrFa 0x0C9 f rfl rfl (by decide) (fun n h _ => by rw [← h]; rfl) rfl rfl
theorem shrFi (f : FI) : Statement (.shrFi f) :=
  ofFI .shrFi 0x0E9 f rfl rfl (by decide) (fun n h _ => by rw [← h]; rfl) rfl rfl
theorem sraFa (f : FA) : Statement (.sraFa f) :=
  ofFA .sraFa 0x0CA f rfl rfl (by decide) (fun n h _ => by rw [← h]; rfl) rfl rfl
theorem sraFi (f : FI) : Statement (.sraFi f) :=
  ofFI .sraFi 0x0EA f rfl rfl (by decide) (fun n h _ => by rw [← h]; rfl) rfl rfl
theorem rolFa (f : FA) : Statement (.rolFa f) :=
  ofFA .rolFa 0x0CB f rfl rfl (by decide) (fun n h _ => by rw [← h]; rfl) rfl rfl
theorem rolFi (f : FI) : Statement (.rolFi f) :=
  ofFI .rolFi 0x0EB f rfl rfl (by decide) (fun n h _ => by rw [← h]; rfl) rfl rfl
theorem rorFa (f : FA) : Statement (.rorFa f) :=
  ofFA .rorFa 0x0CC f rfl rfl (by decide) (fun n h _ => by rw [← h]; rfl) rfl rfl
theorem rorFi (f : FI) : Statement (.rorFi f) :=
  ofFI .rorFi 0x0EC f rfl rfl (by decide) (fun n h _ => by rw [← h]; rfl) rfl rfl
theorem bextFa (f : FA) : Statement (.bextFa f) :=
  ofFA .bextFa 0x0CD f rfl rfl (by decide) (fun n h _ => by rw [← h]; rfl) rfl rfl
theorem bextFi (f : FI) : Statement (.bextFi f) :=
  ofFI .bextFi 0x0ED f rfl rfl (by decide) (fun n h _ => by rw [← h]; rfl) rfl rfl
theorem binsFa (f : FA) : Statement (.binsFa f) :=
  ofFA .binsFa 0x0CE f rfl rfl (by decide) (fun n h _ => by rw [← h]; rfl) rfl rfl
theorem binsFi (f : FI) : Statement (.binsFi f) :=
  ofFI .binsFi 0x0EE f rfl rfl (by decide) (fun n h _ => by rw [← h]; rfl) rfl rfl
theorem popc (f : FA) : Statement (.popc f) :=
  ofFA .popc 0x0CF f rfl rfl (by decide) (fun n h _ => by rw [← h]; rfl) rfl rfl
theorem clz (f : FA) : Statement (.clz f) :=
  ofFA .clz 0x0D0 f rfl rfl (by decide) (fun n h _ => by rw [← h]; rfl) rfl rfl
theorem ctz (f : FA) : Statement (.ctz f) :=
  ofFA .ctz 0x0D1 f rfl rfl (by decide) (fun n h _ => by rw [← h]; rfl) rfl rfl
theorem ld (f : FM) : Statement (.ld f) :=
  ofFM .ld 0x100 f rfl rfl (by decide) (fun n h _ => by rw [← h]; rfl) rfl rfl
theorem lds (f : FM) : Statement (.lds f) :=
  ofFM .lds 0x101 f rfl rfl (by decide) (fun n h _ => by rw [← h]; rfl) rfl rfl
theorem st (f : FM) : Statement (.st f) :=
  ofFM .st 0x102 f rfl rfl (by decide) (fun n h _ => by rw [← h]; rfl) rfl rfl
theorem ldv (f : FM) : Statement (.ldv f) :=
  ofFM .ldv 0x103 f rfl rfl (by decide) (fun n h _ => by rw [← h]; rfl) rfl rfl
theorem stv (f : FM) : Statement (.stv f) :=
  ofFM .stv 0x104 f rfl rfl (by decide) (fun n h _ => by rw [← h]; rfl) rfl rfl
theorem ldfe (f : FM) : Statement (.ldfe f) :=
  ofFM .ldfe 0x105 f rfl rfl (by decide) (fun n h _ => by rw [← h]; rfl) rfl rfl
theorem stfe (f : FM) : Statement (.stfe f) :=
  ofFM .stfe 0x106 f rfl rfl (by decide) (fun n h _ => by rw [← h]; rfl) rfl rfl
theorem sete (f : FM) : Statement (.sete f) :=
  ofFM .sete 0x107 f rfl rfl (by decide) (fun n h _ => by rw [← h]; rfl) rfl rfl
theorem sset (f : FM) : Statement (.sset f) :=
  ofFM .sset 0x108 f rfl rfl (by decide) (fun n h _ => by rw [← h]; rfl) rfl rfl
theorem srst (f : FM) : Statement (.srst f) :=
  ofFM .srst 0x109 f rfl rfl (by decide) (fun n h _ => by rw [← h]; rfl) rfl rfl
theorem spos (f : FM) : Statement (.spos f) :=
  ofFM .spos 0x10A f rfl rfl (by decide) (fun n h _ => by rw [← h]; rfl) rfl rfl
theorem pref (f : FM) : Statement (.pref f) :=
  ofFM .pref 0x10B f rfl rfl (by decide) (fun n h _ => by rw [← h]; rfl) rfl rfl
theorem get (f : FA) : Statement (.get f) :=
  ofFA .get 0x140 f rfl rfl (by decide) (fun n h _ => by rw [← h]; rfl) rfl rfl
theorem put (f : FA) : Statement (.put f) :=
  ofFA .put 0x141 f rfl rfl (by decide) (fun n h _ => by rw [← h]; rfl) rfl rfl
theorem ccrd (f : FA) : Statement (.ccrd f) :=
  ofFA .ccrd 0x142 f rfl rfl (by decide) (fun n h _ => by rw [← h]; rfl) rfl rfl
theorem aadd (f : FM) : Statement (.aadd f) :=
  ofFM .aadd 0x148 f rfl rfl (by decide) (fun n h _ => by rw [← h]; rfl) rfl rfl
theorem aand (f : FM) : Statement (.aand f) :=
  ofFM .aand 0x149 f rfl rfl (by decide) (fun n h _ => by rw [← h]; rfl) rfl rfl
theorem aor (f : FM) : Statement (.aor f) :=
  ofFM .aor 0x14A f rfl rfl (by decide) (fun n h _ => by rw [← h]; rfl) rfl rfl
theorem axor (f : FM) : Statement (.axor f) :=
  ofFM .axor 0x14B f rfl rfl (by decide) (fun n h _ => by rw [← h]; rfl) rfl rfl
theorem amin (f : FM) : Statement (.amin f) :=
  ofFM .amin 0x14C f rfl rfl (by decide) (fun n h _ => by rw [← h]; rfl) rfl rfl
theorem amax (f : FM) : Statement (.amax f) :=
  ofFM .amax 0x14D f rfl rfl (by decide) (fun n h _ => by rw [← h]; rfl) rfl rfl
theorem aswp (f : FM) : Statement (.aswp f) :=
  ofFM .aswp 0x14E f rfl rfl (by decide) (fun n h _ => by rw [← h]; rfl) rfl rfl
theorem acas (f : FM) : Statement (.acas f) :=
  ofFM .acas 0x14F f rfl rfl (by decide) (fun n h _ => by rw [← h]; rfl) rfl rfl
theorem afadd (f : FM) : Statement (.afadd f) :=
  ofFM .afadd 0x150 f rfl rfl (by decide) (fun n h _ => by rw [← h]; rfl) rfl rfl
theorem fship (f : FA) : Statement (.fship f) :=
  ofFA .fship 0x158 f rfl rfl (by decide) (fun n h _ => by rw [← h]; rfl) rfl rfl
theorem vadd (f : FA) : Statement (.vadd f) :=
  ofFA .vadd 0x180 f rfl rfl (by decide) (fun n h _ => by rw [← h]; rfl) rfl rfl
theorem vsub (f : FA) : Statement (.vsub f) :=
  ofFA .vsub 0x181 f rfl rfl (by decide) (fun n h _ => by rw [← h]; rfl) rfl rfl
theorem vmul (f : FA) : Statement (.vmul f) :=
  ofFA .vmul 0x182 f rfl rfl (by decide) (fun n h _ => by rw [← h]; rfl) rfl rfl
theorem vfma (f : FA) : Statement (.vfma f) :=
  ofFA .vfma 0x183 f rfl rfl (by decide) (fun n h _ => by rw [← h]; rfl) rfl rfl
theorem vmin (f : FA) : Statement (.vmin f) :=
  ofFA .vmin 0x184 f rfl rfl (by decide) (fun n h _ => by rw [← h]; rfl) rfl rfl
theorem vmax (f : FA) : Statement (.vmax f) :=
  ofFA .vmax 0x185 f rfl rfl (by decide) (fun n h _ => by rw [← h]; rfl) rfl rfl
theorem vabs (f : FA) : Statement (.vabs f) :=
  ofFA .vabs 0x186 f rfl rfl (by decide) (fun n h _ => by rw [← h]; rfl) rfl rfl
theorem vneg (f : FA) : Statement (.vneg f) :=
  ofFA .vneg 0x187 f rfl rfl (by decide) (fun n h _ => by rw [← h]; rfl) rfl rfl
theorem vrcp (f : FA) : Statement (.vrcp f) :=
  ofFA .vrcp 0x188 f rfl rfl (by decide) (fun n h _ => by rw [← h]; rfl) rfl rfl
theorem vrsq (f : FA) : Statement (.vrsq f) :=
  ofFA .vrsq 0x189 f rfl rfl (by decide) (fun n h _ => by rw [← h]; rfl) rfl rfl
theorem vexp (f : FA) : Statement (.vexp f) :=
  ofFA .vexp 0x18A f rfl rfl (by decide) (fun n h _ => by rw [← h]; rfl) rfl rfl
theorem vlog (f : FA) : Statement (.vlog f) :=
  ofFA .vlog 0x18B f rfl rfl (by decide) (fun n h _ => by rw [← h]; rfl) rfl rfl
theorem vand (f : FA) : Statement (.vand f) :=
  ofFA .vand 0x18C f rfl rfl (by decide) (fun n h _ => by rw [← h]; rfl) rfl rfl
theorem vor (f : FA) : Statement (.vor f) :=
  ofFA .vor 0x18D f rfl rfl (by decide) (fun n h _ => by rw [← h]; rfl) rfl rfl
theorem vxor (f : FA) : Statement (.vxor f) :=
  ofFA .vxor 0x18E f rfl rfl (by decide) (fun n h _ => by rw [← h]; rfl) rfl rfl
theorem vshl (f : FA) : Statement (.vshl f) :=
  ofFA .vshl 0x18F f rfl rfl (by decide) (fun n h _ => by rw [← h]; rfl) rfl rfl
theorem vshr (f : FA) : Statement (.vshr f) :=
  ofFA .vshr 0x190 f rfl rfl (by decide) (fun n h _ => by rw [← h]; rfl) rfl rfl
theorem vsra (f : FA) : Statement (.vsra f) :=
  ofFA .vsra 0x191 f rfl rfl (by decide) (fun n h _ => by rw [← h]; rfl) rfl rfl
theorem vcmp (f : FA) : Statement (.vcmp f) :=
  ofFA .vcmp 0x192 f rfl rfl (by decide) (fun n h _ => by rw [← h]; rfl) rfl rfl
theorem vsel (f : FA) : Statement (.vsel f) :=
  ofFA .vsel 0x193 f rfl rfl (by decide) (fun n h _ => by rw [← h]; rfl) rfl rfl
theorem vadds (f : FA) : Statement (.vadds f) :=
  ofFA .vadds 0x194 f rfl rfl (by decide) (fun n h _ => by rw [← h]; rfl) rfl rfl
theorem vsubs (f : FA) : Statement (.vsubs f) :=
  ofFA .vsubs 0x195 f rfl rfl (by decide) (fun n h _ => by rw [← h]; rfl) rfl rfl
theorem vmulh (f : FA) : Statement (.vmulh f) :=
  ofFA .vmulh 0x196 f rfl rfl (by decide) (fun n h _ => by rw [← h]; rfl) rfl rfl
theorem vcvt (f : FA) : Statement (.vcvt f) :=
  ofFA .vcvt 0x1C0 f rfl rfl (by decide) (fun n h _ => by rw [← h]; rfl) rfl rfl
theorem vbcast (f : FA) : Statement (.vbcast f) :=
  ofFA .vbcast 0x1C1 f rfl rfl (by decide) (fun n h _ => by rw [← h]; rfl) rfl rfl
theorem vperm (f : FA) : Statement (.vperm f) :=
  ofFA .vperm 0x1C2 f rfl rfl (by decide) (fun n h _ => by rw [← h]; rfl) rfl rfl
theorem vrot (f : FA) : Statement (.vrot f) :=
  ofFA .vrot 0x1C3 f rfl rfl (by decide) (fun n h _ => by rw [← h]; rfl) rfl rfl
theorem vzip (f : FA) : Statement (.vzip f) :=
  ofFA .vzip 0x1C4 f rfl rfl (by decide) (fun n h _ => by rw [← h]; rfl) rfl rfl
theorem vunzip (f : FA) : Statement (.vunzip f) :=
  ofFA .vunzip 0x1C5 f rfl rfl (by decide) (fun n h _ => by rw [← h]; rfl) rfl rfl
theorem vrsum (f : FA) : Statement (.vrsum f) :=
  ofFA .vrsum 0x1C8 f rfl rfl (by decide) (fun n h _ => by rw [← h]; rfl) rfl rfl
theorem vrmax (f : FA) : Statement (.vrmax f) :=
  ofFA .vrmax 0x1C9 f rfl rfl (by decide) (fun n h _ => by rw [← h]; rfl) rfl rfl
theorem vrmin (f : FA) : Statement (.vrmin f) :=
  ofFA .vrmin 0x1CA f rfl rfl (by decide) (fun n h _ => by rw [← h]; rfl) rfl rfl
theorem vscan (f : FA) : Statement (.vscan f) :=
  ofFA .vscan 0x1CB f rfl rfl (by decide) (fun n h _ => by rw [← h]; rfl) rfl rfl
theorem vqnt (f : FA) : Statement (.vqnt f) :=
  ofFA .vqnt 0x1CC f rfl rfl (by decide) (fun n h _ => by rw [← h]; rfl) rfl rfl
theorem vdqnt (f : FA) : Statement (.vdqnt f) :=
  ofFA .vdqnt 0x1CD f rfl rfl (by decide) (fun n h _ => by rw [← h]; rfl) rfl rfl
theorem vbscale (f : FA) : Statement (.vbscale f) :=
  ofFA .vbscale 0x1CE f rfl rfl (by decide) (fun n h _ => by rw [← h]; rfl) rfl rfl
theorem vmovx (f : FA) : Statement (.vmovx f) :=
  ofFA .vmovx 0x1CF f rfl rfl (by decide) (fun n h _ => by rw [← h]; rfl) rfl rfl
theorem vins (f : FA) : Statement (.vins f) :=
  ofFA .vins 0x1D0 f rfl rfl (by decide) (fun n h _ => by rw [← h]; rfl) rfl rfl
theorem vpack (f : FA) : Statement (.vpack f) :=
  ofFA .vpack 0x1D1 f rfl rfl (by decide) (fun n h _ => by rw [← h]; rfl) rfl rfl
theorem mMma (f : FX) : Statement (.mMma f) :=
  ofFX .mMma 0x200 f rfl rfl (by decide) (fun n h _ => by rw [← h]; rfl) rfl rfl
theorem mMmag (f : FX) : Statement (.mMmag f) :=
  ofFX .mMmag 0x201 f rfl rfl (by decide) (fun n h _ => by rw [← h]; rfl) rfl rfl
theorem mGath (f : FX) : Statement (.mGath f) :=
  ofFX .mGath 0x202 f rfl rfl (by decide) (fun n h _ => by rw [← h]; rfl) rfl rfl
theorem mMvs (f : FX) : Statement (.mMvs f) :=
  ofFX .mMvs 0x203 f rfl rfl (by decide) (fun n h _ => by rw [← h]; rfl) rfl rfl
theorem mSacc (f : FX) : Statement (.mSacc f) :=
  ofFX .mSacc 0x204 f rfl rfl (by decide) (fun n h _ => by rw [← h]; rfl) rfl rfl
theorem mZero (f : FX) : Statement (.mZero f) :=
  ofFX .mZero 0x205 f rfl rfl (by decide) (fun n h _ => by rw [← h]; rfl) rfl rfl
theorem mLdacc (f : FX) : Statement (.mLdacc f) :=
  ofFX .mLdacc 0x206 f rfl rfl (by decide) (fun n h _ => by rw [← h]; rfl) rfl rfl
theorem mStacc (f : FX) : Statement (.mStacc f) :=
  ofFX .mStacc 0x207 f rfl rfl (by decide) (fun n h _ => by rw [← h]; rfl) rfl rfl
theorem mSpmm (f : FX) : Statement (.mSpmm f) :=
  ofFX .mSpmm 0x208 f rfl rfl (by decide) (fun n h _ => by rw [← h]; rfl) rfl rfl
theorem mTdir (f : FX) : Statement (.mTdir f) :=
  ofFX .mTdir 0x209 f rfl rfl (by decide) (fun n h _ => by rw [← h]; rfl) rfl rfl
theorem mDrain (f : FX) : Statement (.mDrain f) :=
  ofFX .mDrain 0x20A f rfl rfl (by decide) (fun n h _ => by rw [← h]; rfl) rfl rfl
theorem wLdi (f : FA) : Statement (.wLdi f) :=
  ofFA .wLdi 0x240 f rfl rfl (by decide) (fun n h _ => by rw [← h]; rfl) rfl rfl
theorem wLdv (f : FA) : Statement (.wLdv f) :=
  ofFA .wLdv 0x241 f rfl rfl (by decide) (fun n h _ => by rw [← h]; rfl) rfl rfl
theorem wEmit (f : FA) : Statement (.wEmit f) :=
  ofFA .wEmit 0x242 f rfl rfl (by decide) (fun n h _ => by rw [← h]; rfl) rfl rfl
theorem wEmitz (f : FA) : Statement (.wEmitz f) :=
  ofFA .wEmitz 0x243 f rfl rfl (by decide) (fun n h _ => by rw [← h]; rfl) rfl rfl
theorem wAdv (f : FA) : Statement (.wAdv f) :=
  ofFA .wAdv 0x244 f rfl rfl (by decide) (fun n h _ => by rw [← h]; rfl) rfl rfl
theorem wSel (f : FA) : Statement (.wSel f) :=
  ofFA .wSel 0x245 f rfl rfl (by decide) (fun n h _ => by rw [← h]; rfl) rfl rfl
theorem wEnd (f : FA) : Statement (.wEnd f) :=
  ofFA .wEnd 0x246 f rfl rfl (by decide) (fun n h _ => by rw [← h]; rfl) rfl rfl
theorem rowOpen (f : FM) : Statement (.rowOpen f) :=
  ofFM .rowOpen 0x280 f rfl rfl (by decide) (fun n h _ => by rw [← h]; rfl) rfl rfl
theorem rowHold (f : FM) : Statement (.rowHold f) :=
  ofFM .rowHold 0x281 f rfl rfl (by decide) (fun n h _ => by rw [← h]; rfl) rfl rfl
theorem rowRel (f : FM) : Statement (.rowRel f) :=
  ofFM .rowRel 0x282 f rfl rfl (by decide) (fun n h _ => by rw [← h]; rfl) rfl rfl
theorem txBegin (f : FS) : Statement (.txBegin f) :=
  ofFS .txBegin 0x288 f rfl rfl (by decide) (fun n h _ => by rw [← h]; rfl) rfl rfl
theorem txCommit (f : FS) : Statement (.txCommit f) :=
  ofFS .txCommit 0x289 f rfl rfl (by decide) (fun n h _ => by rw [← h]; rfl) rfl rfl
theorem txAbort (f : FS) : Statement (.txAbort f) :=
  ofFS .txAbort 0x28A f rfl rfl (by decide) (fun n h _ => by rw [← h]; rfl) rfl rfl
theorem attn (f : FA) : Statement (.attn f) :=
  ofFA .attn 0x290 f rfl rfl (by decide) (fun n h _ => by rw [← h]; rfl) rfl rfl
theorem safeptPoint (f : FS) : Statement (.safeptPoint f) :=
  ofFS .safeptPoint 0x298 f rfl rfl (by decide) (fun n h w => by
    simp [Instr.wellFormed, Instr.shape, Shape.fieldsOk] at w
    simp [decodeOpcode, decodeClass10, h, w]) rfl rfl
theorem safeptBegin (f : FS) : Statement (.safeptBegin f) :=
  ofFS .safeptBegin 0x298 f rfl rfl (by decide) (fun n h w => by
    simp [Instr.wellFormed, Instr.shape, Shape.fieldsOk] at w
    simp [decodeOpcode, decodeClass10, h, w]) rfl rfl
theorem safeptEnd (f : FS) : Statement (.safeptEnd f) :=
  ofFS .safeptEnd 0x298 f rfl rfl (by decide) (fun n h w => by
    simp [Instr.wellFormed, Instr.shape, Shape.fieldsOk] at w
    simp [decodeOpcode, decodeClass10, h, w]) rfl rfl
theorem hSig (f : FH) : Statement (.hSig f) :=
  ofFH .hSig 0x2C0 f rfl rfl (by decide) (fun n h _ => by rw [← h]; rfl) rfl rfl
theorem hProbe (f : FH) : Statement (.hProbe f) :=
  ofFH .hProbe 0x2C1 f rfl rfl (by decide) (fun n h _ => by rw [← h]; rfl) rfl rfl
theorem hIns (f : FH) : Statement (.hIns f) :=
  ofFH .hIns 0x2C2 f rfl rfl (by decide) (fun n h _ => by rw [← h]; rfl) rfl rfl
theorem hDel (f : FH) : Statement (.hDel f) :=
  ofFH .hDel 0x2C3 f rfl rfl (by decide) (fun n h _ => by rw [← h]; rfl) rfl rfl
theorem hRehash (f : FH) : Statement (.hRehash f) :=
  ofFH .hRehash 0x2C4 f rfl rfl (by decide) (fun n h _ => by rw [← h]; rfl) rfl rfl
theorem hDedup (f : FH) : Statement (.hDedup f) :=
  ofFH .hDedup 0x2C5 f rfl rfl (by decide) (fun n h _ => by rw [← h]; rfl) rfl rfl
theorem hUsn (f : FH) : Statement (.hUsn f) :=
  ofFH .hUsn 0x2C6 f rfl rfl (by decide) (fun n h _ => by rw [← h]; rfl) rfl rfl
theorem hWusn (f : FH) : Statement (.hWusn f) :=
  ofFH .hWusn 0x2C7 f rfl rfl (by decide) (fun n h _ => by rw [← h]; rfl) rfl rfl
theorem synBind (f : FS) : Statement (.synBind f) :=
  ofFS .synBind 0x300 f rfl rfl (by decide) (fun n h _ => by rw [← h]; rfl) rfl rfl
theorem synAcq (f : FA) : Statement (.synAcq f) :=
  ofFA .synAcq 0x301 f rfl rfl (by decide) (fun n h _ => by rw [← h]; rfl) rfl rfl
theorem synRel (f : FA) : Statement (.synRel f) :=
  ofFA .synRel 0x302 f rfl rfl (by decide) (fun n h _ => by rw [← h]; rfl) rfl rfl
theorem synWtl (f : FA) : Statement (.synWtl f) :=
  ofFA .synWtl 0x303 f rfl rfl (by decide) (fun n h _ => by rw [← h]; rfl) rfl rfl
theorem synTlTl (f : FA) : Statement (.synTlTl f) :=
  ofFA .synTlTl 0x304 f rfl rfl (by decide) (fun n h w => by
    simp [Instr.wellFormed, Instr.shape, Shape.fieldsOk] at w
    simp [decodeOpcode, decodeClass12, h, w]) rfl rfl
theorem synTlSub (f : FA) : Statement (.synTlSub f) :=
  ofFA .synTlSub 0x304 f rfl rfl (by decide) (fun n h w => by
    simp [Instr.wellFormed, Instr.shape, Shape.fieldsOk] at w
    simp [decodeOpcode, decodeClass12, h, w]) rfl rfl
theorem synTlFl (f : FA) : Statement (.synTlFl f) :=
  ofFA .synTlFl 0x304 f rfl rfl (by decide) (fun n h w => by
    simp [Instr.wellFormed, Instr.shape, Shape.fieldsOk] at w
    simp [decodeOpcode, decodeClass12, h, w]) rfl rfl
theorem synTlMark (f : FA) : Statement (.synTlMark f) :=
  ofFA .synTlMark 0x304 f rfl rfl (by decide) (fun n h w => by
    simp [Instr.wellFormed, Instr.shape, Shape.fieldsOk] at w
    simp [decodeOpcode, decodeClass12, h, w]) rfl rfl
theorem synStep (f : FS) : Statement (.synStep f) :=
  ofFS .synStep 0x308 f rfl rfl (by decide) (fun n h _ => by rw [← h]; rfl) rfl rfl
theorem synSend (f : FI) : Statement (.synSend f) :=
  ofFI .synSend 0x309 f rfl rfl (by decide) (fun n h _ => by rw [← h]; rfl) rfl rfl
theorem synRecv (f : FI) : Statement (.synRecv f) :=
  ofFI .synRecv 0x30A f rfl rfl (by decide) (fun n h _ => by rw [← h]; rfl) rfl rfl
theorem synVote (f : FA) : Statement (.synVote f) :=
  ofFA .synVote 0x30B f rfl rfl (by decide) (fun n h _ => by rw [← h]; rfl) rfl rfl
theorem synPollab (f : FA) : Statement (.synPollab f) :=
  ofFA .synPollab 0x30C f rfl rfl (by decide) (fun n h _ => by rw [← h]; rfl) rfl rfl
theorem synAbort (f : FA) : Statement (.synAbort f) :=
  ofFA .synAbort 0x30D f rfl rfl (by decide) (fun n h _ => by rw [← h]; rfl) rfl rfl
theorem synDomBind (f : FS) : Statement (.synDomBind f) :=
  ofFS .synDomBind 0x310 f rfl rfl (by decide) (fun n h w => by
    simp [Instr.wellFormed, Instr.shape, Shape.fieldsOk] at w
    simp [decodeOpcode, decodeClass12, h, w]) rfl rfl
theorem synDomUnbind (f : FS) : Statement (.synDomUnbind f) :=
  ofFS .synDomUnbind 0x310 f rfl rfl (by decide) (fun n h w => by
    simp [Instr.wellFormed, Instr.shape, Shape.fieldsOk] at w
    simp [decodeOpcode, decodeClass12, h, w]) rfl rfl
theorem synQcfgCreate (f : FS) : Statement (.synQcfgCreate f) :=
  ofFS .synQcfgCreate 0x311 f rfl rfl (by decide) (fun n h w => by
    simp [Instr.wellFormed, Instr.shape, Shape.fieldsOk] at w
    simp [decodeOpcode, decodeClass12, h, w]) rfl rfl
theorem synQcfgDel (f : FS) : Statement (.synQcfgDel f) :=
  ofFS .synQcfgDel 0x311 f rfl rfl (by decide) (fun n h w => by
    simp [Instr.wellFormed, Instr.shape, Shape.fieldsOk] at w
    simp [decodeOpcode, decodeClass12, h, w]) rfl rfl
theorem ceCopy (f : FA) : Statement (.ceCopy f) :=
  ofFA .ceCopy 0x340 f rfl rfl (by decide) (fun n h _ => by rw [← h]; rfl) rfl rfl
theorem ceFill (f : FA) : Statement (.ceFill f) :=
  ofFA .ceFill 0x341 f rfl rfl (by decide) (fun n h _ => by rw [← h]; rfl) rfl rfl
theorem ceGath (f : FA) : Statement (.ceGath f) :=
  ofFA .ceGath 0x342 f rfl rfl (by decide) (fun n h _ => by rw [← h]; rfl) rfl rfl
theorem ceScat (f : FA) : Statement (.ceScat f) :=
  ofFA .ceScat 0x343 f rfl rfl (by decide) (fun n h _ => by rw [← h]; rfl) rfl rfl
theorem ceCtxRead (f : FS) : Statement (.ceCtxRead f) :=
  ofFS .ceCtxRead 0x344 f rfl rfl (by decide) (fun n h w => by
    simp [Instr.wellFormed, Instr.shape, Shape.fieldsOk] at w
    simp [decodeOpcode, decodeClass13, h, w]) rfl rfl
theorem ceCtxRing (f : FS) : Statement (.ceCtxRing f) :=
  ofFS .ceCtxRing 0x344 f rfl rfl (by decide) (fun n h w => by
    simp [Instr.wellFormed, Instr.shape, Shape.fieldsOk] at w
    simp [decodeOpcode, decodeClass13, h, w]) rfl rfl
theorem ceCtxRetry (f : FS) : Statement (.ceCtxRetry f) :=
  ofFS .ceCtxRetry 0x344 f rfl rfl (by decide) (fun n h w => by
    simp [Instr.wellFormed, Instr.shape, Shape.fieldsOk] at w
    simp [decodeOpcode, decodeClass13, h, w]) rfl rfl
theorem ceCtxClr (f : FS) : Statement (.ceCtxClr f) :=
  ofFS .ceCtxClr 0x344 f rfl rfl (by decide) (fun n h w => by
    simp [Instr.wellFormed, Instr.shape, Shape.fieldsOk] at w
    simp [decodeOpcode, decodeClass13, h, w]) rfl rfl
theorem ceCancel (f : FS) : Statement (.ceCancel f) :=
  ofFS .ceCancel 0x345 f rfl rfl (by decide) (fun n h _ => by rw [← h]; rfl) rfl rfl
theorem decLoad (f : FA) : Statement (.decLoad f) :=
  ofFA .decLoad 0x348 f rfl rfl (by decide) (fun n h _ => by rw [← h]; rfl) rfl rfl
theorem decStrm (f : FA) : Statement (.decStrm f) :=
  ofFA .decStrm 0x349 f rfl rfl (by decide) (fun n h _ => by rw [← h]; rfl) rfl rfl
theorem sysRdcr (f : FS) : Statement (.sysRdcr f) :=
  ofFS .sysRdcr 0x380 f rfl rfl (by decide) (fun n h _ => by rw [← h]; rfl) rfl rfl
theorem sysWrcr (f : FS) : Statement (.sysWrcr f) :=
  ofFS .sysWrcr 0x381 f rfl rfl (by decide) (fun n h w => by
    simp [Instr.wellFormed, Instr.shape, Shape.fieldsOk] at w
    simp [decodeOpcode, decodeClass14, h, w]) rfl rfl
theorem rtabLoad (f : FS) : Statement (.rtabLoad f) := of_event _ rfl
theorem rtabEmpty (f : FS) : Statement (.rtabEmpty f) := of_event _ rfl
theorem clhaltWrite (f : FS) : Statement (.clhaltWrite f) :=
  ofFS .clhaltWrite 0x381 f rfl rfl (by decide) (fun n h w => by
    simp [Instr.wellFormed, Instr.shape, Shape.fieldsOk] at w
    simp [decodeOpcode, decodeClass14, h, w]) rfl rfl
theorem wacntWrite (f : FS) : Statement (.wacntWrite f) :=
  ofFS .wacntWrite 0x381 f rfl rfl (by decide) (fun n h w => by
    simp [Instr.wellFormed, Instr.shape, Shape.fieldsOk] at w
    simp [decodeOpcode, decodeClass14, h, w]) rfl rfl
theorem sysTlbinv (f : FS) : Statement (.sysTlbinv f) :=
  ofFS .sysTlbinv 0x382 f rfl rfl (by decide) (fun n h _ => by rw [← h]; rfl) rfl rfl
theorem sysTlbwr (f : FS) : Statement (.sysTlbwr f) :=
  ofFS .sysTlbwr 0x383 f rfl rfl (by decide) (fun n h _ => by rw [← h]; rfl) rfl rfl
theorem sysTrap (f : FS) : Statement (.sysTrap f) :=
  ofFS .sysTrap 0x384 f rfl rfl (by decide) (fun n h _ => by rw [← h]; rfl) rfl rfl
theorem sysScrub (f : FS) : Statement (.sysScrub f) :=
  ofFS .sysScrub 0x385 f rfl rfl (by decide) (fun n h _ => by rw [← h]; rfl) rfl rfl
theorem sysLog (f : FS) : Statement (.sysLog f) :=
  ofFS .sysLog 0x386 f rfl rfl (by decide) (fun n h _ => by rw [← h]; rfl) rfl rfl
theorem sysMpostHost (f : FS) : Statement (.sysMpostHost f) :=
  ofFS .sysMpostHost 0x387 f rfl rfl (by decide) (fun n h w => by
    simp [Instr.wellFormed, Instr.shape, Shape.fieldsOk] at w
    simp [decodeOpcode, decodeClass14, h, w]) rfl rfl
theorem sysMpostMbox (f : FS) : Statement (.sysMpostMbox f) :=
  ofFS .sysMpostMbox 0x387 f rfl rfl (by decide) (fun n h w => by
    simp [Instr.wellFormed, Instr.shape, Shape.fieldsOk] at w
    simp [decodeOpcode, decodeClass14, h, w]) rfl rfl
theorem powerLoss : Statement (.powerLoss) := of_event _ rfl
theorem spdmRequest : Statement (.spdmRequest) := of_event _ rfl
theorem linkRetrained : Statement (.linkRetrained) := of_event _ rfl

end Sys2Proof.Laws.WordRoundTrip
end

