-- ==== Sys2Proof/Safety.lean ====
section
/-!
DEFINITION. The terms that claims use: what counts as a safe step, a thread at issue, what a part of an instruction yields, and the
state after an instruction that completes.
-/
namespace Sys2Proof

open Sys2Proof.Machine

/-- The invariant that every step keeps: the memory is in its canonical form. -/
def SafeState (s : Machine.State) : Prop := s.mem.wf = true

/-- A thread stands at issue (R70). -/
def AtIssue (s : State) (th : Thread) : Prop := s.cur.bind s.thread? = some th

/-- A part of an instruction, run in a state, does not stop: it gives a value and leaves a state. -/
def Yields {α : Type} (m : Exec α) (s : State) (a : α) (t : State) : Prop := m.run s = .ok (a, t)

/-- A part of an instruction, run in a state, stops it: a fault, or a stall. -/
def Stops {α : Type} (m : Exec α) (s : State) (e : Stop) : Prop := m.run s = .error e

/-- The state after an instruction of a thread that completes: control goes on as its flow says, and a close that has begun goes on. -/
def completed (t : State) (th : Thread) (flow : Flow) : State := (t.finishIssue th flow).progressClose th.id false

/-- An instruction of the thread at issue completes: its effect leaves a state, and control goes on. -/
def Completes (i : Instr) (s : State) (th : Thread) (t : State) (flow : Flow) : Prop := exec i s = .next (completed t th flow)

/-- An instruction of the thread at issue faults with a cause and a fault datum (R113), and leaves the notes named. -/
def Faults (i : Instr) (s : State) (th : Thread) (c : Cause) (data : Word) (notes : List Note) : Prop :=
  exec i s = .next ((((notes.foldl (fun s n => s.applyNote th n) s).takeFault th.id c data).takeOwnCommand th.id).progressClose th.id false)

/-- An instruction of the thread at issue stalls with a wait kind and argument and takes no move (R103). -/
def Stalls (i : Instr) (s : State) (th : Thread) (wk wa : Nat) (c : WaitCond) : Prop :=
  exec i s = .next ((s.blockIssue th wk wa c).progressClose th.id false)

/-- Two states hold the same bytes outside some ranges, each an address and a length. -/
def SameBytesBut (rs : List (Nat × Nat)) (s t : State) : Prop :=
  ∀ a, (∀ r ∈ rs, a < r.1 ∨ r.1 + r.2 ≤ a) → t.mem.get a = s.mem.get a

/-- R152 for an instruction of two scalar sources: with its operands ready, both sources are read in order, and the value written is Ext of
a result that depends on the width and the unsigned views. -/
def TwoSources (mk : FA → Instr) (r : FA → Nat → Nat → Nat → Int) : Prop :=
  ∀ (s s1 s2 s3 : State) (th : Thread) (f : FA) (a b : Word), AtIssue s th →
    Yields (Exec.queuesReady [f.a, f.b] f.d) s () s → Yields (Exec.src f.a) s a s1 → Yields (Exec.src f.b) s1 b s2 →
    Yields (Exec.dst f.d (extResult (intWidth f.ty)
      (r f (intWidth f.ty) (a.toNat % 2 ^ intWidth f.ty) (b.toNat % 2 ^ intWidth f.ty)))) s2 () s3 →
    Completes (mk f) s th s3 .next

/-- R152 for an instruction of one scalar source. -/
def OneSource (mk : FA → Instr) (r : Nat → Nat → Int) : Prop :=
  ∀ (s s1 s2 : State) (th : Thread) (f : FA) (a : Word), AtIssue s th →
    Yields (Exec.queuesReady [f.a] f.d) s () s → Yields (Exec.src f.a) s a s1 →
    Yields (Exec.dst f.d (extResult (intWidth f.ty) (r (intWidth f.ty) (a.toNat % 2 ^ intWidth f.ty)))) s1 () s2 →
    Completes (mk f) s th s2 .next

/-- R152 for an instruction of one scalar source and an operand taken from the immediate. -/
def SourceAndImmediate (mk : FI → Instr) (operand : Nat → BitVec 48 → Nat) (r : Nat → Nat → Nat → Int) : Prop :=
  ∀ (s s1 s2 : State) (th : Thread) (f : FI) (a : Word), AtIssue s th →
    Yields (Exec.queuesReady [f.a] f.d) s () s → Yields (Exec.src f.a) s a s1 →
    Yields (Exec.dst f.d (extResult (intWidth f.ty)
      (r (intWidth f.ty) (a.toNat % 2 ^ intWidth f.ty) (operand (intWidth f.ty) f.imm)))) s1 () s2 →
    Completes (mk f) s th s2 .next

/-- R207 for a vector instruction of one source: the lanes of the result from the lanes of the source. -/
def VectorOne (mk : FA → Instr) (g : FA → Nat → Nat) : Prop :=
  ∀ (s s1 : State) (th u : Thread) (f : FA) (a : Line), AtIssue s th → Yields (Exec.vsrc f.a f.ty.width) s a s1 → AtIssue s1 u →
    Completes (mk f) s th (s1.setV u.row (vnum f.d) (vlanes f.ty fun i => g f (lane a f.ty.width i))) .next

/-- R207 for a vector instruction of two sources. -/
def VectorTwo (mk : FA → Instr) (g : FA → Nat → Nat → Nat) : Prop :=
  ∀ (s s1 s2 : State) (th u : Thread) (f : FA) (a b : Line), AtIssue s th → Yields (Exec.vsrc f.a f.ty.width) s a s1 →
    Yields (Exec.vsrc f.b f.ty.width) s1 b s2 → AtIssue s2 u →
    Completes (mk f) s th (s2.setV u.row (vnum f.d) (vlanes f.ty fun i =>
      g f (lane a f.ty.width i) (lane b f.ty.width i))) .next

/-- R207 for a vector instruction of three sources. -/
def VectorThree (mk : FA → Instr) (g : FA → Nat → Nat → Nat → Nat) : Prop :=
  ∀ (s s1 s2 s3 : State) (th u : Thread) (f : FA) (a b c : Line), AtIssue s th → Yields (Exec.vsrc f.a f.ty.width) s a s1 →
    Yields (Exec.vsrc f.b f.ty.width) s1 b s2 → Yields (Exec.vsrc f.c f.ty.width) s2 c s3 → AtIssue s3 u →
    Completes (mk f) s th (s3.setV u.row (vnum f.d) (vlanes f.ty fun i =>
      g f (lane a f.ty.width i) (lane b f.ty.width i) (lane c f.ty.width i))) .next

/-- A move of lanes (R214): the whole result from two sources read at the width of the type. -/
def VectorMove (mk : FA → Instr) (g : FA → Line → Line → Nat → Nat) : Prop :=
  ∀ (s s1 s2 : State) (th u : Thread) (f : FA) (a b : Line), AtIssue s th → Yields (Exec.vsrc f.a f.ty.width) s a s1 →
    Yields (Exec.vsrc f.b f.ty.width) s1 b s2 → AtIssue s2 u →
    Completes (mk f) s th (s2.setV u.row (vnum f.d) (vlanes f.ty fun i => g f a b i)) .next

/-- R215 for a reduction: a unit that is not the last leaves a progress point, and the last unit folds when it is asked to. -/
def Reduces (mk : FA → Instr) (k : Reduce) : Prop :=
  ∀ (s s1 : State) (th u : Thread) (f : FA) (src : Line), AtIssue s th → AtIssue s1 u →
    let n := reductionUnits s th.row f.a
    let done := s.prog th.row
    let w := reduceWidth k f.ty
    let old := s1.getV u.row (vnum f.d)
    let run := if done = 0 ∧ mdBit f 1 = false then ofLanes w (List.replicate (512 / w) (reduceIdentity k f.ty (mdBit f 2))) else old
    let s2 := s1.setV u.row (vnum f.d) (reduceUnit k f.ty (mdBit f 2) run src)
    done < n → Yields (Exec.vsrc f.a f.ty.width) s src s1 → th.row = u.row →
    (done + 1 < n → Completes (mk f) s th (s2.setCtrl th.row 0 32 32 (done + 1)) .again) ∧
    (n ≤ done + 1 →
      let s3 := if mdBit f 0 then s2.setV u.row (vnum f.d) (reduceFold k f.ty (mdBit f 2) (s2.getV u.row (vnum f.d))) else s2
      Completes (mk f) s th (if s3.prog th.row = 0 then s3 else s3.setCtrl th.row 0 32 32 0) .next)

/-- R33, R255: a matrix instruction that names some accumulators can issue. -/
def MatrixReady (s : State) (th : Thread) (ks : List Nat) : Prop :=
  s.islandOn (2 * th.die + 1) = true ∧ th.matrix.length < 8 ∧ ∀ k ∈ ks, accInFlight th k = false

/-- R241: the 32 rows of a product's operand, each read as loads. -/
def rowReads (a : Word) (stride len : Nat) : Exec (List (List Byte)) :=
  (List.range 32).mapM fun i => Exec.loadLines (wordAdd a (i * stride)) len

/-- R255: the results of a matrix instruction are in its arithmetic phase. -/
def withResults (s : State) (u : Thread) (rs : List (Nat × Acc)) : State :=
  s.updThread u.id fun t => { t with matrix := t.matrix ++ [⟨rs⟩] }

/-- R316: a word names a context that is allotted to a thread's tenant. -/
def NamesContext (s : State) (th : Thread) (w : Word) (k : Nat) : Prop :=
  let a := s.allotOf (s.tenantOf th.row)
  k = field w 0 9 ∧ field a 16 9 ≤ k ∧ k < field a 16 9 + field a 25 10

/-- R84, R319: a command with the number given to it is appended to a context, and the answers that its owner has kept are of no use. -/
def commandAppended (s : State) (th : Thread) (k : Nat) (c : EngCmd) (wrote : List (Nat × Nat)) : State :=
  let x := s.ctx k
  let n := (x.sub + 1) % 2 ^ 64
  let c := { c with num := n, asid := s.asidOf th.row, tenant := s.tenantOf th.row, privl := s.privOf th.row
                    unit := th.ownerUnit, row := s.rowVa th }
  (s.setCtx k { x with sub := n, cq := x.cq ++ [c], wrote := x.wrote ++ wrote.map fun l => (n, l.1, l.2) }).dropNoMapping c.owner

/-- R317, R319: an instruction that appends one command to a context with room writes the command's number. -/
def AppendsCommand (i : Instr) (s : State) (th : Thread) (k : Nat) (c : EngCmd) (wrote : List (Nat × Nat)) (d : Nat) : Prop :=
  s.contextGated k = false → s.queueLoad k th.id < 64 →
    Completes i s th ((commandAppended s th k c wrote).setX th.row d (.ofNat 64 (((s.ctx k).sub + 1) % 2 ^ 64))) .next

/-- R5, R352, R353: the state after a control register other than RTAB is written with a value whose reserved bits are discarded. -/
def controlRegisterWritten (s : State) (c : CrInfo) (cr tenant i : Nat) (v : Word) : State :=
  let s := if v &&& ~~~c.mask ≠ 0 then s.logRec .reservedWrite [v] else s
  let v := v &&& c.mask
  if c.perTenant = false then s.writeCr cr i v else
    match s.tenant? tenant with
    | none => s
    | some t =>
      let s := s.setTenant (t.writeCr cr i v)
      if cr = 0x70 then s.allotFresh tenant t.allot v
      else if cr = 0x20 ∨ cr = 0x21 then s.clearBankWindows tenant
      else s

/-- An event or a move of the module leaves a state. -/
def Does (i : Instr) (s t : State) : Prop := exec i s = .next t

/-- The host link is up: the module is powered, and no thermal trip has dropped the link (R26, R38). -/
def LinkUp (s : State) : Prop := s.boot.powered = true ∧ s.boot.thermTrip = false

/-- The module is powered and has reached READY (R22, R25). -/
def IsReady (s : State) : Prop := LinkUp s ∧ s.boot.stage = 6

/-- R275: the masks staged in a stack's registers can be inverted. -/
def inverseMasksGood (r : StackRegs) : Bool := (State.inverseMasks r.staged).isSome

/-- A limit one step lower, but not below the floor (R36). -/
def lowerLimit (n limit : Nat) : Nat := max (islandFloor n) (limit - islandStep n)

/-- A limit one step higher, but not above nominal (R36). -/
def raiseLimit (n limit : Nat) : Nat := min (islandNominal n) (limit + islandStep n)

/-- The limits of some islands have moved by one step, and those of the others have not. -/
def LimitsStep (s t : State) (ns : List Nat) (step : Nat → Nat → Nat) : Prop :=
  ∀ k < 32, t.limitOf k = if k ∈ ns then step k (s.limitOf k) else s.limitOf k

/-- A thread waits for a slot boundary of a domain (R331, R343). -/
def waitsForSlot (name : Nat) (th : Thread) : Bool :=
  match th.waitsFor with
  | some (.slot n _ _ _) => n == name
  | _ => false

/-- A queue of a cluster is the target of one of some blocked threads (R337). -/
def IsTarget (cluster : Nat) (ths : List Thread) (u : Queue) : Prop :=
  u.cluster = cluster ∧ ∃ th ∈ ths, State.pushTarget th = some u.num

end Sys2Proof
end

