-- ==== Sys2Proof/Certificates/Slice0/Obligations.lean ====
section
/-!
DEFINITION. The statements about the model, each with the rules of spec/ that it rests on.
-/
open Sys2Proof Sys2Proof.Machine

/-- R43 to R50: words written out from the spec's tables decode to the instructions that they stand for. -/
def Obligations.SpecWordsDecode : Prop :=
  decode 0x0040024A0000000000000000 = .ok (⟨false, 0⟩, .thStart ⟨.x 0, .x 9, .x 10, .x 0, .i64, 0⟩) ∧
  decode 0x1080518800000FFFFFFFFFFD = .error .illegal ∧
  decode 0x10805188000000FFFFFFFFFD = .ok (⟨false, 0⟩, .bcmp ⟨.x 5, .x 6, 2, 0, 0xFFFFFFFFFD⟩) ∧
  decode 0x280051400000000000000001 = .ok (⟨false, 0⟩, .addFi ⟨.x 5, .x 5, .i64, 1⟩) ∧
  decode 0x400870C46C00000000000010 = .ok (⟨false, 2⟩, .ld ⟨.x 7, .x 3, .x 4, 3, 3, 0, 0, 16⟩) ∧
  decode 0x6002186200C0000000000000 = .ok (⟨false, 0⟩, .vadd ⟨.v 1, .v 1, .v 2, .x 0, .f32, 0⟩) ∧
  decode 0x800301050110000008000000 = .ok (⟨false, 0⟩, .mMma ⟨.a 0, .x 4, .x 5, .x 0, .bf16, .bf16, 0, 2⟩) ∧
  decode 0xB002224A0000000200000000 = .ok (⟨false, 0⟩, .hSig ⟨.v 2, .x 9, .x 10, .x 0, 0, 0, 2⟩) ∧
  decode 0xE08072090025000000000000 = .ok (⟨false, 0⟩, .sysTlbinv ⟨.x 7, .x 8, .x 9, 37, 0⟩)

/-- R43, R45 to R51: decoding the word of a well-formed instruction gives the instruction and its guard, with every field at every value
that the encoding admits. -/
def Obligations.InstructionWordsRoundTrip : Prop := ∀ i : Instr, Laws.WordRoundTrip.Statement i

/-- R46, R57, R58, R61, R65, R132, R165, R225: a step takes the head of the schedule. An issue takes its line from the fetch buffer or
fills it with the bytes at the address; it checks the landing of a transfer and the word, in order, and then runs the decoded instruction
when its guard holds and the unit that it takes is free, or waits for the unit; when the guard does not hold, control goes on and the
instruction has no effect. An event runs as itself. Predicate p0 reads true, and writes to it are discarded. That an empty schedule takes
a free move is the model's choice (log entry 1), and so is that an issue makes the fill that it needs and that the schedule says which two
issue together (log entry 20). -/
def Obligations.StepRunsTheDecodedInstruction : Prop :=
  (∀ (s : State) (m : Move) (rest : List Move), s.agenda = m :: rest →
    let s0 := { s with agenda := rest }.beginMove m
    (∀ e inp, m.act = .event e inp → Machine.step s = settleOutcome (exec e { s0 with inp := inp })) ∧
    (∀ id, m.act = .pair id → Machine.step s = settleOutcome (s0.issuePair id)) ∧
    ∀ (id : Nat) (th : Thread), m.act = .issue id → s0.thread? id = some th → s0.canIssue th = true →
      let at_ : State := { s0 with cur := some id }
      let va := lineOf th.ip.toNat
      let source := (th.check.bind (·.source)).getD 0
      (pcWellFormed th.ip = false →
        Machine.step s = .next ((at_.takeFault th.id .badtarget source).progressClose th.id false).settle) ∧
      ∀ (f : FetchLine) (s1 : State), pcWellFormed th.ip = true →
        (th.fbuf.find? (·.va == va)) = some f ∧ s1 = at_ ∨ (th.fbuf.find? (·.va == va)) = none ∧ at_.fillLine th va false = .line s1 f →
        let slot := th.ip.toNat % 8
        let w := slotWord f.data slot
        let faults (c : Cause) : Prop :=
          Machine.step s = .next ((s1.takeFault th.id c source).progressClose th.id false).settle
        let masked := (∃ c, th.check = some c ∧ c.tmask = true) ∧ bitsAt (tmask (lineWord f.data)) slot 1 = 0
        let missed := ∃ c tag, th.check = some c ∧ c.lpad = some tag ∧ ¬ (bitsAt w.toNat 86 10 = 0x45 ∧ bitsAt w.toNat 58 8 = tag.toNat)
        let empty := w = 0 ∨ w = BitVec.allOnes 96
        (∀ c, f.bad = some c → faults c) ∧
        (f.bad = none →
          (masked → faults .badtarget) ∧
          (¬ masked → missed → faults .lpadmiss) ∧
          (¬ masked → ¬ missed → empty → faults .zeroword) ∧
          (¬ masked → ¬ missed → ¬ empty → lineWordOk (lineWord f.data) = false → faults .illegal) ∧
          (¬ masked → ¬ missed → ¬ empty → lineWordOk (lineWord f.data) = true →
            (∀ c, decodeFor (some th.exec) w = .error c → faults c) ∧
            ∀ g i, decodeFor (some th.exec) w = .ok (g, i) →
              let held := s1.getP th.row g.pred.val = g.neg
              let s2 := s1.updThread th.id fun t =>
                { t with check := none, uses := if s1.getP th.row g.pred.val ≠ g.neg then State.unitUse th.exec w else none }
              (held → Machine.step s = .next (completed s2 { th with uses := none } .next).settle) ∧
              (∀ kind cycles, ¬ held → State.unitUse th.exec w = some (kind, cycles) → s2.unitBusy th kind = true → s2.divQueues i = true →
                Machine.step s = .next
                ((s2.blockIssue th 0xC 0 (.unitBusy kind)).progressClose th.id false).settle) ∧
              (¬ held → (∀ kind cycles, State.unitUse th.exec w = some (kind, cycles) →
                  s2.unitBusy th kind = false ∨ s2.divQueues i = false) →
                Machine.step s = settleOutcome (exec i s2))))) ∧
  (∀ (s : State) (th : Thread) (va dp : Nat) (ahead : Bool), s.check th (.ofNat 64 va) .exec = .own dp → s.poisoned dp 64 = false →
    th.reread = none → let l := leLine (s.newest dp 64)
    crc16 ((lineToBytes l).take 60) = lineCrc (lineWord l) →
    s.fillLine th va ahead = .line (s.bufferLine th.id ⟨va, l, none, false⟩) ⟨va, l, none, false⟩) ∧
  (∀ (s : State) (row : Nat) (b : Bool), s.getP row 0 = true ∧ s.setP row 0 b = s) ∧
  ∀ s : State, s.agenda = [] → Machine.step s = Machine.step { s with agenda := [Config.freeMove s.fresh], fresh := s.fresh + 1 }

/-- R22, R28, R29, R35, R91, R177, R269, R274, R283: what reset leaves: stage RESET with island 28 up and every other island gated, every
byte of memory zero, no thread, no context, no sync object, and the registers at the values of their tables. That memory reads zero before
the boot has written it is the model's choice (log entry 4). -/
def Obligations.ResetLeavesTheSpecifiedState : Prop :=
  let s := State.reset
  s.boot.stage = 0 ∧ s.boot.err = 0 ∧ s.boot.recov = false ∧
  s.islands.length = 32 ∧
  (∀ n < 32, ∃ i, s.islands[n]? = some i ∧ i.req = 0 ∧ i.st = (if n = 28 then 0 else 2) ∧ i.done = false ∧ i.refuse = 0 ∧ i.fcap = 0 ∧
    (n ≠ 28 → i.fnow = 0)) ∧
  s.power.pnow = 0 ∧ s.power.plim = 4800 ∧ s.power.thr = 0 ∧
  s.stackRegs.length = 24 ∧
  (∀ r ∈ s.stackRegs, r.lim = 0x1800 ∧ r.step = 0 ∧ r.fast = false ∧ r.grants = [] ∧ r.lim1 = 0x10000 ∧ r.lim2 = 0x4000 ∧ r.resets = 0 ∧
    r.staged = r.active ∧ r.refuse = 0 ∧ r.done = false ∧
    ∀ j < 25, r.staged[j]? = some (if j < 2 then 2 ^ j else if j < 6 then 2 ^ (j + 4) else if j < 10 then 2 ^ (j - 4) else 2 ^ j)) ∧
  (∀ row k, s.ctrl row k = 0) ∧ (∀ a, s.mem.get a = 0) ∧ s.threads = [] ∧ s.ctxs = [] ∧ s.syncs = [] ∧ s.keys = [] ∧ s.acl = []

/-- The memory at reset is in its canonical form. -/
def Obligations.ResetStateIsSafe : Prop := SafeState State.reset

/-- Every step that goes on keeps the memory in its canonical form, from every state. -/
def Obligations.EveryStepKeepsTheStateSafe : Prop := ∀ s t : State, SafeState s → Machine.step s = .next t → SafeState t

/-- R46, R47, R89: a register written reads back, x0 and p0 discard and read zero and true, and a write changes its own bytes alone. -/
def Obligations.RegistersReadBack : Prop :=
  ∀ (s : State) (row : Nat), SafeState s →
    (∀ n w, n ≠ 0 → (s.setX row n w).getX row n = w ∧ SameBytesBut [(row + 0x80 + 8 * n, 8)] s (s.setX row n w)) ∧
    (∀ n m w, n ≠ m → (s.setX row n w).getX row m = s.getX row m) ∧
    (∀ w, s.setX row 0 w = s) ∧ s.getX row 0 = 0 ∧
    (∀ n v, (s.setV row n v).getV row n = v ∧ SameBytesBut [(row + 0x180 + 64 * n, 64)] s (s.setV row n v)) ∧
    (∀ n m v, n ≠ m → (s.setV row n v).getV row m = s.getV row m) ∧
    (∀ n b, n ≠ 0 → n < 8 → (s.setP row n b).getP row n = b ∧ SameBytesBut [(row + 0x38, 8)] s (s.setP row n b)) ∧
    (∀ n m b, n ≠ m → n < 8 → m < 8 → (s.setP row n b).getP row m = s.getP row m) ∧
    (∀ n b, n < 8 → bitsAt ((s.setP row n b).ctrl row 7).toNat 8 56 = bitsAt (s.ctrl row 7).toNat 8 56) ∧
    (∀ b, s.setP row 0 b = s) ∧ s.getP row 0 = true

/-- R97, R113: a fault leaves the cause and the faulting address in the fault word, that address in the PC word and PROG as it was, begins
the close that leaves the row FAULTED, and changes no other byte of memory. -/
def Obligations.TakingAFault : Prop :=
  ∀ (s : State) (th : Thread) (c : Cause) (data : Word), SafeState s → s.thread? th.id = some th →
    let t := s.takeFault th.id c data
    t.ctrlField th.row 3 0 8 = c.code ∧ t.ctrlField th.row 3 8 3 = th.ip.toNat % 8 ∧
    t.ctrlField th.row 3 11 50 = bitsAt th.ip.toNat 6 50 ∧ t.ctrlField th.row 3 61 3 = 0 ∧
    t.pcWord th.row = th.ip ∧ t.prog th.row = s.prog th.row ∧ t.ctrlField th.row 7 13 1 = 0 ∧
    (∃ u, t.thread? th.id = some u ∧ u.closing = some 5 ∧ u.stall = none ∧
      (u.exec ≠ .walker → (t.finishClose u 5).code th.row = 5)) ∧
    SameBytesBut [(th.row + 0x08, 8), (th.row + 0x18, 8), (th.row + 0x38, 8)] s t

/-- R53, R92, R139: the end of an issue that completes: the loop test, the address of the next instruction in the PC word, PCW cleared,
the checks that wait at a target, and no other byte of memory changed; an issue that closes its row begins the close with the row's bits,
and one that stays where it is makes the loop test too, whose address its reply takes, and waits as its condition says (R120). That a
back-edge leaves its address out of the message of its checks is the model's choice (log entry 95), as is that a back-edge from an index
below LLEN goes to index 0 (log entry 116), and that the issue point of an open row is kept apart from its PC word is its reading (log
entry 7). -/
def Obligations.CompletionAdvances : Prop :=
  ∀ (s : State) (th : Thread), SafeState s → s.thread? th.id = some th → th.closing = none → th.ownCmd = 0 →
    s.ctrlField th.row 7 13 1 = 0 →
    let w := s.ctrl th.row 4
    let lact := field w 32 1 = 1
    let lc := field w 0 32
    let llen := field w 33 15
    let ldist := field w 48 16
    let le := pcIndex th.ip + ldist
    let ends (flow : Flow) (pc loop : Word) (check : Option TargetCheck) : Prop :=
      let t := completed s th flow
      t.pcWord th.row = pc ∧ t.ctrl th.row 4 = loop ∧ t.ctrlField th.row 7 12 1 = 0 ∧
      (∃ u, t.thread? th.id = some u ∧ u.ip = pc ∧ u.check = check ∧ u.stall = none ∧ u.closing = none) ∧
      SameBytesBut [(th.row + 0x08, 8), (th.row + 0x20, 8), (th.row + 0x38, 8)] s t
    let nexts (pc loop : Word) (check : Option TargetCheck) : Prop := ends .next pc loop check ∧ ∀ bits : Nat,
      let t := s.finishIssue th (.close bits)
      completed s th (.close bits) = t.progressClose th.id false ∧
      t.pcWord th.row = pc ∧ t.ctrl th.row 4 = loop ∧ t.ctrlField th.row 7 12 1 = 0 ∧
      (∃ u, t.thread? th.id = some u ∧ u.ip = pc ∧ u.check = check ∧ u.closing = some bits ∧ (bits % 16 ≠ 4 → u.stall = none)) ∧
      SameBytesBut [(th.row + 0x08, 8), (th.row + 0x20, 8), (th.row + 0x38, 8)] s t
    let tested (pc loop : Word) (check : Option TargetCheck) : Prop := nexts pc loop check ∧ ∀ (wk wa : Nat) (c : WaitCond),
      let t := completed s th (.stay wk wa c)
      t.pcWord th.row = th.ip ∧ t.ctrl th.row 4 = loop ∧ t.ctrlField th.row 7 12 1 = 0 ∧
      (∃ u, t.thread? th.id = some u ∧ u.ip = th.ip ∧ u.stall = some ⟨wk, wa, c⟩ ∧ u.closing = none ∧
        u.spawn = th.spawn.map fun q => { q with next := pc, back := check.isSome }) ∧
      SameBytesBut [(th.row + 0x08, 8), (th.row + 0x20, 8), (th.row + 0x38, 8)] s t
    (¬ lact → tested (pcNext th.ip) w none) ∧
    (lact → ldist ≠ 0 → tested (pcNext th.ip) (setField w 48 16 (ldist - 1)) none) ∧
    (lact → ldist = 0 → lc ≤ 1 → tested (pcNext th.ip) (setField (setField w 0 32 0) 32 1 0) none) ∧
    (lact → ldist = 0 → 1 < lc → tested (pcAddress (pcIndex th.ip - llen)) (setField (setField w 0 32 (lc - 1)) 48 16 llen)
      (some ⟨true, none, none⟩)) ∧
    (∀ pc c d, ¬ lact → ends (.jump pc c d) pc w c) ∧
    (∀ pc c d, lact → le ≤ pcIndex pc + llen ∧ pcIndex pc ≤ le → ends (.jump pc c d) pc (setField w 48 16 (le - pcIndex pc)) c) ∧
    (∀ pc c d, lact → ¬ (le ≤ pcIndex pc + llen ∧ pcIndex pc ≤ le) → ends (.jump pc c d) pc (setField w 32 1 0) c) ∧
    (∀ pc c d, ends (.loopSet pc c d) pc w c) ∧
    ends .again th.ip w none

/-- R95, R97: the state that each command leaves in a closed row, for each state that it finds the row in, with the fields that Clear
zeroes, the cause that START and REDIRECT zero, and the wait that STOP ends in a WAITING or an EVICTED row. -/
def Obligations.CommandsTakeEffect : Prop :=
  ∀ (s : State) (th : Thread) (src : Option Nat), SafeState s → s.thread? th.id = some th → th.slot = none → th.closing = none →
    th.exec ≠ .walker → State.splitBusy th = false → State.spawnPending th = false →
    let now := s.code th.row
    let after (n : Nat) : Nat := (s.command th src n).code th.row
    let noWait (n : Nat) : Prop := (s.command th src n).ctrlField th.row 0 16 16 = 0
    let clear (n : Nat) : Prop :=
      (s.command th src n).prog th.row = 0 ∧ (s.command th src n).ctrlField th.row 4 32 1 = 0 ∧ noWait n
    let cleared (n : Nat) : Prop := clear n ∧ ∃ u, (s.command th src n).thread? th.id = some u ∧ u.ip = s.pcWord th.row
    (now = 0 ∨ now = 1 → after 1 = 2 ∧ cleared 1 ∧ (s.command th src 1).ctrl th.row 3 = 0) ∧
    (now = 2 ∨ now = 4 ∨ now = 5 → after 1 = now) ∧
    (now = 2 ∨ now = 4 → after 2 = 1 ∧ noWait 2) ∧ (now = 4 → clear 2) ∧ (now = 0 ∨ now = 1 ∨ now = 5 → after 2 = now) ∧
    (now = 6 → after 2 = 6 ∧ noWait 2) ∧
    (now = 1 ∨ now = 2 ∨ now = 4 ∨ now = 5 → after 3 = 2 ∧ cleared 3) ∧ (now = 0 → after 3 = now) ∧
    (now = 5 → (s.command th src 3).ctrlField th.row 3 0 8 = 0) ∧
    (now = 1 ∨ now = 5 → after 4 = 2 ∧ (s.command th src 4).prog th.row = s.prog th.row) ∧
    (now = 0 ∨ now = 2 ∨ now = 4 → after 4 = now) ∧
    (now = 1 ∨ now = 2 ∨ now = 4 ∨ now = 5 ∨ now = 6 → after 5 = 0) ∧
    (now = 0 → s.tagOf th.row = .fixed →
      (s.command th src 5).thread? th.id = none ∧ (s.command th src 5).tagOf th.row = .data) ∧
    (now = 1 → after 6 = 2 ∧ (s.command th src 6).ctrlField th.row 7 13 1 = 1) ∧
    (now = 0 ∨ now = 2 ∨ now = 4 ∨ now = 5 → after 6 = now) ∧
    (∀ n, now = 6 → n = 1 ∨ n = 3 ∨ n = 4 ∨ n = 6 → after n = 6 ∧ (s.command th src n).ctrlField th.row 0 4 4 = n)

/-- R71, R72, R75, R167, R174: when a load or a store of a thread, within one line, takes effect: a load of the thread's own row gives M's
newest bytes, a load of memory the thread's view with its store buffer over it; a store to the own row writes its bytes and no others, a
store to memory joins the store buffer. A load changes no byte of memory. -/
def Obligations.LoadsReadAndStoresWrite : Prop :=
  ∀ (s : State) (th : Thread) (va : Word) (dp : Nat), AtIssue s th →
    (∀ n nw bs t, Yields (Exec.load va n nw) s bs t → SameBytesBut [] s t) ∧
    (∀ n nw, 0 < n → va.toNat % 64 + n ≤ 64 → s.check th va .read = .own dp → s.poisoned dp n = false →
      Yields (Exec.load va n nw) s (s.newest dp n) s) ∧
    (∀ n nw t u, 0 < n → va.toNat % 64 + n ≤ 64 → s.check th va .read = .ok dp → s.region dp ≠ .control → th.replies = [] → th.asked = [] →
      Exec.openOther s th dp = false → s.lostHold? th dp = none → s.reach (th.id + 1) dp false = .ok t → AtIssue t th →
      let w := (t.noteBankWindow th va.toNat dp).countWindow ((t.noteBankWindow th va.toNat dp).tenantOf th.row) dp false
      let x := if nw then w.viewNewest th.id (lineOf dp) else w.boundView th (lineOf dp)
      AtIssue x u → x.uncoveredBad u [] dp n = false → x.shadowBytes? u.id dp n = none →
      Yields (Exec.load va n nw) s (State.forward u [] dp (x.viewBytes u dp n)) x) ∧
    (∀ bs mark, bs ≠ [] → va.toNat % 64 + bs.length ≤ 64 → s.check th va .write = .own dp →
      Yields (Exec.store va bs mark) s () (s.storeRow th (some th.id) dp bs) ∧
      (SafeState s → th.row + 8 ≤ dp → SameBytesBut [(dp, bs.length)] s (s.storeRow th (some th.id) dp bs))) ∧
    (∀ bs mark, bs ≠ [] → va.toNat % 64 + bs.length ≤ 64 → s.check th va .write = .ok dp → s.lostHold? th dp = none →
      let w := (s.noteBankWindow th va.toNat dp).countWindow (s.tenantOf th.row) dp true
      w.isGroupStore th va.toNat dp = false → AtIssue w th →
      Yields (Exec.store va bs mark) s () ((w.pushSB th.id ⟨dp, bs, va, s.asidOf th.row, mark, none, none⟩).noteWrote th.id (lineOf dp)) ∧
      SameBytesBut [] s ((w.pushSB th.id ⟨dp, bs, va, s.asidOf th.row, mark, none, none⟩).noteWrote th.id (lineOf dp)))

/-- R153, R156, R157: what the integer instructions of two sources compute and write, for every operand form. -/
def Obligations.TwoSourceIntegersComplete : Prop :=
  TwoSources .addFa (fun _ _ a b => a + b) ∧ TwoSources .sub (fun _ _ a b => (a : Int) - b) ∧
  TwoSources .andFa (fun _ _ a b => (a &&& b : Nat)) ∧ TwoSources .orFa (fun _ _ a b => (a ||| b : Nat)) ∧
  TwoSources .xorFa (fun _ _ a b => (a ^^^ b : Nat)) ∧ TwoSources .andn (fun _ w a b => (a &&& (2 ^ w - 1 - b) : Nat)) ∧
  TwoSources .minFa (fun _ w a b => min (signed w a) (signed w b)) ∧ TwoSources .maxFa (fun _ w a b => max (signed w a) (signed w b)) ∧
  TwoSources .minuFa (fun _ _ a b => (min a b : Nat)) ∧ TwoSources .maxuFa (fun _ _ a b => (max a b : Nat)) ∧
  TwoSources .adds (fun f w a b => if f.md.toNat % 2 = 1 then satU w (a + b) else satS w (signed w a + signed w b)) ∧
  TwoSources .subs (fun f w a b => if f.md.toNat % 2 = 1 then satU w ((a : Int) - b) else satS w (signed w a - signed w b)) ∧
  TwoSources .mulFa (fun _ _ a b => (a * b : Nat)) ∧
  TwoSources .mulh (fun _ w a b => signed w a * signed w b / (2 ^ w : Nat)) ∧
  TwoSources .mulhu (fun _ w a b => (a * b / 2 ^ w : Nat)) ∧
  TwoSources .muls (fun f w a b => if f.md.toNat % 2 = 1 then satU w (a * b : Nat) else satS w (signed w a * signed w b)) ∧
  TwoSources .div (fun _ w a b => if signed w b = 0 then -1 else (signed w a).tdiv (signed w b)) ∧
  TwoSources .divu (fun _ w a b => if b = 0 then ((2 ^ w : Nat) : Int) - 1 else ((a / b : Nat) : Int)) ∧
  TwoSources .rem (fun _ w a b => if signed w b = 0 then signed w a else (signed w a).tmod (signed w b)) ∧
  TwoSources .remu (fun _ _ a b => ((if b = 0 then a else a % b : Nat) : Int)) ∧
  TwoSources .shlFa (fun _ w a b => (a * 2 ^ (b % w) : Nat)) ∧ TwoSources .shrFa (fun _ w a b => (a / 2 ^ (b % w) : Nat)) ∧
  TwoSources .sraFa (fun _ w a b => signed w a / (2 ^ (b % w) : Nat)) ∧
  TwoSources .rolFa (fun _ w a b => ((a * 2 ^ (b % w) + a / 2 ^ (w - b % w)) % 2 ^ w : Nat)) ∧
  TwoSources .rorFa (fun _ w a b => ((a / 2 ^ (b % w) + a * 2 ^ (w - b % w)) % 2 ^ w : Nat))

/-- R150, R153, R156, R157, R158: the forms with an immediate. -/
def Obligations.ImmediateIntegersComplete : Prop :=
  (let sext : Nat → BitVec 48 → Nat := fun w i => (i.toInt % ((2 ^ w : Nat) : Int)).toNat
   let amount : Nat → BitVec 48 → Nat := fun _ i => i.toNat % 64
   SourceAndImmediate .addFi sext (fun _ a b => a + b) ∧ SourceAndImmediate .andFi sext (fun _ a b => (a &&& b : Nat)) ∧
   SourceAndImmediate .orFi sext (fun _ a b => (a ||| b : Nat)) ∧ SourceAndImmediate .xorFi sext (fun _ a b => (a ^^^ b : Nat)) ∧
   SourceAndImmediate .minFi sext (fun w a b => min (signed w a) (signed w b)) ∧
   SourceAndImmediate .maxFi sext (fun w a b => max (signed w a) (signed w b)) ∧
   SourceAndImmediate .minuFi sext (fun _ a b => (min a b : Nat)) ∧ SourceAndImmediate .maxuFi sext (fun _ a b => (max a b : Nat)) ∧
   SourceAndImmediate .mulFi sext (fun _ a b => (a * b : Nat)) ∧
   SourceAndImmediate .shlFi amount (fun w a b => (a * 2 ^ (b % w) : Nat)) ∧
   SourceAndImmediate .shrFi amount (fun w a b => (a / 2 ^ (b % w) : Nat)) ∧
   SourceAndImmediate .sraFi amount (fun w a b => signed w a / (2 ^ (b % w) : Nat)) ∧
   SourceAndImmediate .rolFi amount (fun w a b => ((a * 2 ^ (b % w) + a / 2 ^ (w - b % w)) % 2 ^ w : Nat)) ∧
   SourceAndImmediate .rorFi amount (fun w a b => ((a / 2 ^ (b % w) + a * 2 ^ (w - b % w)) % 2 ^ w : Nat)) ∧
   SourceAndImmediate .bextFi (fun _ i => i.toNat % 2 ^ 16) (fun _ a p =>
     let len : Nat := min (p / 2 ^ 8 % 2 ^ 7) 64
     let v : Nat := a / 2 ^ (p % 2 ^ 6) % 2 ^ len
     if p / 2 ^ 15 % 2 = 1 ∧ 1 ≤ len ∧ v / 2 ^ (len - 1) % 2 = 1 then (v : Int) - (2 ^ len : Nat) else v)) ∧
  ∀ (s t : State) (th : Thread) (f : FI), AtIssue s th → Yields (Exec.queuesReady [] f.d) s () s →
    Yields (Exec.dst f.d (extResult (intWidth f.ty) f.imm.toInt)) s () t → Completes (.movFi f) s th t .next

/-- R153, R154, R155, R158, R159: the moves, compares, selects, bit fields and counts. -/
def Obligations.OtherScalarOperationsComplete : Prop :=
  OneSource .movFa (fun _ a => a) ∧
  OneSource .popc (fun w a => (((List.range w).filter fun i => a.testBit i).length : Nat)) ∧
  OneSource .clz (fun w a => if a = 0 then w else (w - 1 - Nat.log2 a : Nat)) ∧
  OneSource .ctz (fun w a => (((List.range w).find? fun i => a.testBit i).getD w : Nat)) ∧
  (∀ (s s1 s2 t : State) (th : Thread) (f : FA) (a b : Word), AtIssue s th → Yields (Exec.queuesReady [f.a, f.b] (.x 0)) s () s →
    Yields (Exec.src f.a) s a s1 → Yields (Exec.src f.b) s1 b s2 →
    Yields (Exec.writeP (xnum f.d) (condHolds (f.md.toNat % 16) (intWidth f.ty) a.toNat b.toNat)) s2 () t →
    Completes (.cmpFa f) s th t .next) ∧
  (∀ (s s1 t : State) (th : Thread) (f : FI) (a : Word), AtIssue s th → Yields (Exec.queuesReady [f.a] (.x 0)) s () s →
    Yields (Exec.src f.a) s a s1 →
    Yields (Exec.writeP (xnum f.d) (condHolds (f.imm.toNat / 2 ^ 44) (intWidth f.ty) a.toNat
      (signed 44 f.imm.toNat % ((2 ^ intWidth f.ty : Nat) : Int)).toNat)) s1 () t →
    Completes (.cmpFi f) s th t .next) ∧
  (∀ (s s1 s2 t : State) (th : Thread) (f : FA) (a b : Word) (p : Bool), AtIssue s th → Yields (Exec.queuesReady [f.a, f.b] f.d) s () s →
    Yields (Exec.src f.a) s a s1 → Yields (Exec.src f.b) s1 b s2 → Yields (Exec.readP (f.md.toNat % 8)) s2 p s2 →
    Yields (Exec.dst f.d (if p != (f.md.toNat / 8 % 2 == 1) then a else b)) s2 () t → Completes (.sel f) s th t .next) ∧
  (∀ (s s1 s2 t : State) (th : Thread) (f : FA) (a b : Word), AtIssue s th → Yields (Exec.queuesReady [f.a, f.b] f.d) s () s →
    Yields (Exec.src f.a) s a s1 → Yields (Exec.src f.b) s1 b s2 →
    Yields (Exec.dst f.d (extResult (intWidth f.ty) (intBext (intWidth f.ty) (a.toNat % 2 ^ intWidth f.ty) b.toNat))) s2 () t →
    Completes (.bextFa f) s th t .next) ∧
  (∀ (s s1 s2 t : State) (th : Thread) (f : FA) (a b d : Word), AtIssue s th → Yields (Exec.queuesReady [f.a, f.b] f.d) s () s →
    Yields (Exec.src f.a) s a s1 → Yields (Exec.src f.b) s1 b s2 → Yields (Exec.readX (xnum f.d)) s2 d s2 →
    Yields (Exec.dst f.d (extResult (intWidth f.ty)
      (intBins (intWidth f.ty) (d.toNat % 2 ^ intWidth f.ty) (a.toNat % 2 ^ intWidth f.ty) b.toNat))) s2 () t →
    Completes (.binsFa f) s th t .next) ∧
  (∀ (s s1 t : State) (th : Thread) (f : FI) (a d : Word), AtIssue s th → Yields (Exec.queuesReady [f.a] f.d) s () s →
    Yields (Exec.src f.a) s a s1 → Yields (Exec.readX (xnum f.d)) s1 d s1 →
    Yields (Exec.dst f.d (extResult (intWidth f.ty)
      (intBins (intWidth f.ty) (d.toNat % 2 ^ intWidth f.ty) (a.toNat % 2 ^ intWidth f.ty) f.imm.toNat))) s1 () t →
    Completes (.binsFi f) s th t .next)

/-- R155, R160, R161: MOVHI, LEA and ROWA write their scalar register; LEA gives what the address of format FM gives. -/
def Obligations.AddressInstructionsComplete : Prop :=
  ∀ (s : State) (th : Thread), AtIssue s th →
    (∀ f : FI, Completes (.movhi f) s th (s.setX th.row (xnum f.d)
      (.ofNat 64 (f.imm.toNat * 2 ^ 16 + (s.getX th.row (xnum f.d)).toNat % 2 ^ 16))) .next) ∧
    (∀ f : FA, Completes (.lea f) s th (s.setX th.row (xnum f.d) (s.getX th.row (xnum f.a) +
      s.getX th.row (xnum f.b) <<< (f.md.toNat % 8) + s.getX th.row (xnum f.c))) .next) ∧
    (∀ (f : FA) (g : FM), xnum g.base = xnum f.a → xnum g.idx = xnum f.b → g.sc.toNat = f.md.toNat % 8 →
      g.disp.signExtend 64 = s.getX th.row (xnum f.c) → Completes (.lea f) s th (s.setX th.row (xnum f.d) (s.ea th.row g)) .next) ∧
    ∀ f : FA, Completes (.rowa f) s th (s.setX th.row (xnum f.d) (
      let (n, base, size) := match f.md.toNat / 64 with
        | 0 => (32, 0x000, 64)
        | 1 => (32, 0x080, 8)
        | 2 => (8, 0x180, 64)
        | _ => (4, 0x380, 64)
      .ofNat 64 ((s.getX th.row (xnum f.a)).toNat / 2048 * 2048 + base +
        (f.md.toNat % 64 + (s.getX th.row (xnum f.b)).toNat) % 2 ^ 64 % n * size))) .next

/-- R131, R142, R145: NOP and LPAD do nothing, FSYNC discards the fetch buffer once the store buffer is empty, and the predicate
instructions write their predicate. -/
def Obligations.PlainControlCompletes : Prop :=
  ∀ (s : State) (th : Thread), AtIssue s th →
    (∀ f, Completes (.nop f) s th s .next) ∧ (∀ f, Completes (.lpad f) s th s .next) ∧
    (∀ f, th.sb = [] → Completes (.fsync f) s th (s.updThread th.id fun t => { t with fbuf := [], reread := none }) .next) ∧
    (let p (f : FA) : Bool := s.getP th.row (xnum f.a) != (f.md.toNat % 2 == 1)
     let q (f : FA) : Bool := s.getP th.row (xnum f.b) != (f.md.toNat / 2 % 2 == 1)
     (∀ f, Completes (.pand f) s th (s.setP th.row (xnum f.d) (p f && q f)) .next) ∧
     (∀ f, Completes (.por f) s th (s.setP th.row (xnum f.d) (p f || q f)) .next) ∧
     ∀ f, Completes (.pxor f) s th (s.setP th.row (xnum f.d) (p f != q f)) .next) ∧
    ∀ f, Completes (.pnot f) s th (s.setP th.row (xnum f.d) (! s.getP th.row (xnum f.a))) .next

/-- R130, R131, R133, R134: the branches transfer to their targets with the checks of the target, and BADTARGET, ALIGN and JTBOUND stand
where the rules put them. In the clause of JT the address of the table entry is exact (R7); that an entry beyond every 64-bit address is
read at the highest one is the model's choice (log entry 79). -/
def Obligations.BranchesTransfer : Prop :=
  ∀ (s : State) (th : Thread), AtIssue s th →
    (∀ f t, branchTarget th.ip f.disp.toInt = some t → Completes (.br f) s th s (.jump t (some ⟨true, none, some th.ip⟩) true)) ∧
    (∀ f, branchTarget th.ip f.disp.toInt = none → Faults (.br f) s th .badtarget 0 []) ∧
    (∀ f t, condHolds f.cc.toNat 64 (s.getX th.row (xnum f.a)).toNat (s.getX th.row (xnum f.b)).toNat = true →
      branchTarget th.ip f.disp.toInt = some t → Completes (.bcmp f) s th s (.jump t (some ⟨true, none, some th.ip⟩) true)) ∧
    (∀ f, condHolds f.cc.toNat 64 (s.getX th.row (xnum f.a)).toNat (s.getX th.row (xnum f.b)).toNat = true →
      branchTarget th.ip f.disp.toInt = none → Faults (.bcmp f) s th .badtarget 0 []) ∧
    (∀ f, condHolds f.cc.toNat 64 (s.getX th.row (xnum f.a)).toNat (s.getX th.row (xnum f.b)).toNat = false →
      Completes (.bcmp f) s th s .next) ∧
    (∀ f, pcWellFormed (s.getX th.row (xnum f.a)) = true →
      Completes (.bri f) s th s (.jump (s.getX th.row (xnum f.a)) (some ⟨true, some f.md, some th.ip⟩) true)) ∧
    (∀ f, pcWellFormed (s.getX th.row (xnum f.a)) = false → Faults (.bri f) s th .badtarget (s.getX th.row (xnum f.a)) []) ∧
    (∀ f, (s.getX th.row (xnum f.b)).toNat % 8 ≠ 0 → Faults (.jt f) s th .align (s.getX th.row (xnum f.b)) []) ∧
    ∀ (f : FB) (n : List Byte) (s1 : State) (u1 : Thread), (s.getX th.row (xnum f.b)).toNat % 8 = 0 →
      Yields (Exec.load (s.getX th.row (xnum f.b)) 8) s n s1 → AtIssue s1 u1 →
      let i := s1.getX u1.row (xnum f.a)
      (leNat n ≤ i.toNat → Faults (.jt f) s th .jtbound 0 []) ∧
      ∀ (e : List Byte) (s2 : State) (u2 : Thread), i.toNat < leNat n →
        Yields (Exec.load (tableEntry (s.getX th.row (xnum f.b)).toNat i.toNat) 8) s1 e s2 → AtIssue s2 u2 →
        (pcWellFormed (leWord e) = true → Completes (.jt f) s th s2 (.jump (leWord e) (some ⟨true, none, some u2.ip⟩) true)) ∧
        (pcWellFormed (leWord e) = false → Faults (.jt f) s th .badtarget (leWord e) [])

/-- R135, R136: Push and Pop on the return-address store, with its spill line. R132, R133, R136: CALL and CALLI push the address of the
next instruction and transfer, and a target that is none faults with BADTARGET; RET transfers to what it pops, unchecked. That CALLI reads
X(a) before its push, and that the fault message of RET carries what it has popped, is the model's choice (log entry 79). -/
def Obligations.CallsAndReturnsComplete : Prop :=
  (∀ (s : State) (th : Thread) (v : Word), AtIssue s th →
    (s.rsp th.row < 8 → Yields (pushReturn v) s ()
      ((s.pokeWord (th.row + 0x40 + 8 * s.rsp th.row) v).setReturns th.row (s.rsp th.row + 1) (s.spill th.row))) ∧
    (∀ t, s.rsp th.row = 8 → s.spill th.row ≠ 0 → s.spill th.row % 32 ≠ 31 →
      Yields (Exec.store (.ofNat 64 (s.spill th.row * 64)) (s.mem.bytes (th.row + 0x40) 64)) s () t →
      Yields (pushReturn v) s () ((t.pokeWord (th.row + 0x40) v).setReturns th.row 1 (s.spill th.row + 1))) ∧
    (8 < s.rsp th.row ∨ (s.rsp th.row = 8 ∧ (s.spill th.row = 0 ∨ s.spill th.row % 32 = 31)) →
      Stops (pushReturn v) s (.fault .spillfault 0 [])) ∧
    (1 ≤ s.rsp th.row → s.rsp th.row ≤ 8 → Yields popReturn s (s.word64 (th.row + 0x40 + 8 * (s.rsp th.row - 1)))
      (s.setReturns th.row (s.rsp th.row - 1) (s.spill th.row))) ∧
    (∀ line t, s.rsp th.row = 0 → s.spill th.row ≠ 0 → s.spill th.row % 32 ≠ 0 →
      Yields (Exec.load (.ofNat 64 ((s.spill th.row - 1) * 64)) 64) s line t →
      Yields popReturn s (leWord (line.drop 56)) ((t.poke (th.row + 0x40) line).setReturns th.row 7 (s.spill th.row - 1))) ∧
    (s.rsp th.row = 0 → s.spill th.row = 0 ∨ s.spill th.row % 32 = 0 → Stops popReturn s (.fault .rsempty 0 [])) ∧
    (8 < s.rsp th.row → Stops popReturn s (.fault .spillfault 0 []))) ∧
  (∀ (s t : State) (th u : Thread), AtIssue s th →
    (∀ f a, Yields (pushReturn (pcNext th.ip)) s () t → AtIssue t u → branchTarget u.ip f.disp.toInt = some a →
      Completes (.call f) s th t (.jump a (some ⟨true, none, some u.ip⟩) true)) ∧
    (∀ f, Yields (pushReturn (pcNext th.ip)) s () t → AtIssue t u → branchTarget u.ip f.disp.toInt = none →
      Faults (.call f) s th .badtarget 0 []) ∧
    (∀ f, Yields (pushReturn (pcNext th.ip)) s () t → AtIssue t u → pcWellFormed (s.getX th.row (xnum f.a)) = true →
      Completes (.calli f) s th t (.jump (s.getX th.row (xnum f.a)) (some ⟨true, some f.md, some u.ip⟩) true)) ∧
    (∀ f, Yields (pushReturn (pcNext th.ip)) s () t → pcWellFormed (s.getX th.row (xnum f.a)) = false →
      Faults (.calli f) s th .badtarget (s.getX th.row (xnum f.a)) []) ∧
    (∀ f v, Yields popReturn s v t → AtIssue t u → pcWellFormed v = true →
      Completes (.ret f) s th t (.jump v (some ⟨false, none, some u.ip⟩) true)) ∧
    ∀ f v, Yields popReturn s v t → pcWellFormed v = false → Faults (.ret f) s th .badtarget v [])

/-- R138: LOOP from its displacement and from the stored addresses: the loop word it leaves and where control goes, and BADTARGET for
addresses that make no legal loop. -/
def Obligations.LoopInstructionCompletes : Prop :=
  ∀ (s : State) (th : Thread) (f : FB) (ls le : Word), AtIssue s th →
    let legal := pcWellFormed ls = true ∧ pcWellFormed le = true ∧ pcIndex ls ≤ pcIndex le ∧ pcIndex le - pcIndex ls ≤ 32767
    let stored := f.md.toNat % 2 = 1 ∧ ls = s.ctrl th.row 5 ∧ le = s.ctrl th.row 6
    let direct := f.md.toNat % 2 = 0 ∧ ls = pcNext th.ip ∧ branchTarget th.ip f.disp.toInt = some le
    let t := if f.md.toNat % 2 = 1 then s else (s.pokeWord (th.row + 0x28) ls).pokeWord (th.row + 0x30) le
    let w := s.ctrl th.row 4
    let n := if f.a = .x 0 then field w 0 32 else (s.getX th.row (xnum f.a)).toNat % 2 ^ 32
    let len := pcIndex le - pcIndex ls
    (¬ legal → stored ∨ direct → Faults (.loop f) s th .badtarget 0 []) ∧
    (f.md.toNat % 2 = 0 → branchTarget th.ip f.disp.toInt = none → Faults (.loop f) s th .badtarget 0 []) ∧
    (legal → stored ∨ direct →
    (n = 0 → Completes (.loop f) s th (t.pokeWord (th.row + 0x20) (loopWord 0 false (field w 33 15) (field w 48 16)))
      (.loopSet (pcAddress (pcIndex le + 1)) (some ⟨false, none, some th.ip⟩) true)) ∧
    (n ≠ 0 → ls = pcNext th.ip →
      Completes (.loop f) s th (t.pokeWord (th.row + 0x20) (loopWord n true len len)) (.loopSet ls none false)) ∧
    (n ≠ 0 → ls ≠ pcNext th.ip → Completes (.loop f) s th (t.pokeWord (th.row + 0x20) (loopWord n true len len))
      (.loopSet ls (some ⟨true, none, some th.ip⟩) true)))

/-- R119: TH.START, TH.STOP and TH.REDIRECT store a command word, with the start address after it where one is given. -/
def Obligations.CommandStoresComplete : Prop :=
  ∀ (s t : State) (th : Thread) (f : FA), AtIssue s th →
    let a := s.getX th.row (xnum f.a)
    let word (code : Nat) := wordBytes (.ofNat 64 (code * 2 ^ 4 + f.md.toNat * 2 ^ 8))
    let pc := if f.b = .x 0 then [] else wordBytes (s.getX th.row (xnum f.b))
    (a.toNat % 2048 = 0 →
      (Yields (Exec.store a (word 1 ++ pc) (.startData f.md a) false) s () t → Completes (.thStart f) s th t .next) ∧
      (Yields (Exec.store a (word 2) .plain false) s () t → Completes (.thStop f) s th t .next) ∧
      (Yields (Exec.store a (word 3 ++ pc) .plain false) s () t → Completes (.thRedirect f) s th t .next)) ∧
    (a.toNat % 2048 ≠ 0 → Faults (.thStart f) s th .align a [] ∧ Faults (.thStop f) s th .align a [] ∧
      Faults (.thRedirect f) s th .align a [])

/-- R118, R120, R122, R125: TH.SPAWN makes its request and waits for the reply, TH.YIELD closes the row for a READY row of at least its
base priority, and TH.SELF reads the row's identity. The location word that TH.SELF gives on a service core, of which R125 says nothing,
is the model's choice (log entry 106). R118, R126: TH.PEEK writes what its read gives to a scalar or a vector register. -/
def Obligations.SpawnYieldSelfPeekComplete : Prop :=
  (∀ (s : State) (th : Thread) (f : FA), AtIssue s th →
    (let p := field (s.getX th.row (xnum f.b)) 9 2
     let q : SpawnReq := ⟨xnum f.d, s.getX th.row (xnum f.a), s.getX th.row (xnum f.b),
       if f.c = .x 0 then s.rowVa th else s.getX th.row (xnum f.c), false, 0, false⟩
     (p ≠ 3 → p ≤ s.privOf th.row →
       Completes (.thSpawn f) s th (s.updThread th.id fun t => { t with spawn := some q }) (.stay 0xA 0 .spawn)) ∧
     (p = 3 ∨ s.privOf th.row < p → Faults (.thSpawn f) s th .priv 0 [])) ∧
    ((∃ u ∈ s.waitingRows th, s.prio th.row ≤ s.effective u) → Completes (.thYield f) s th s (.close 2)) ∧
    ((∀ u ∈ s.waitingRows th, s.effective u < s.prio th.row) →
      Completes (.thYield f) s th (s.updThread th.id fun t => { t with openedAt := s.ticksOf th }) .next) ∧
    Completes (.thSelf f) s th (s.setX th.row (xnum f.d) (match f.md.toNat with
      | 0 => s.rowVa th
      | 1 => s.ctrl th.row 2
      | _ => locationWord s th)) .next) ∧
  (∀ (s t : State) (th u : Thread) (f : FM) (bs : List Byte), AtIssue s th → AtIssue t u →
    (f.sz = 3 → Yields (peek (s.ea th.row f) 8) s bs t → Completes (.thPeek f) s th (t.setX u.row (xnum f.t) (leWord bs)) .next) ∧
    (f.sz ≠ 3 → Yields (peek (s.ea th.row f) 64) s bs t → Completes (.thPeek f) s th (t.setV u.row (vnum f.t) (leLine bs)) .next))

/-- R118, R123: TH.WAIT finds the watched word changed, or is told not to wait, or closes the row to wait. R124: TH.EXIT, once the store
buffer is empty, adds one to a counter when it names one, and ends the thread. -/
def Obligations.WaitAndExitComplete : Prop :=
  (∀ (s : State) (th : Thread) (f : FI), AtIssue s th →
    let line := f.imm.toNat % 32
    let timeout := f.imm.toNat / 2 ^ 16
    let changed := line ≠ 0 ∧ leWord (s.newest (th.row + 64 * line) 8) ≠ s.getX th.row (xnum f.a)
    let warg := xnum f.a * 32 + line
    (changed → Completes (.thWait f) s th (s.setX th.row (xnum f.d) 1) .next) ∧
    (¬ changed → timeout = 0 → line = 0 → Completes (.thWait f) s th (s.setX th.row (xnum f.d) 0) .next) ∧
    (¬ changed → timeout ≠ 0 ∨ line ≠ 0 → Completes (.thWait f) s th
      ((s.setCtrl th.row 0 32 32 timeout).updThread th.id fun t =>
        { t with stall := some ⟨1, warg, .watch (xnum f.d)⟩, tickAt := s.ticksOf th }) (.close (State.waitBits 1 warg)))) ∧
  (∀ (s : State) (th : Thread) (f : FA), AtIssue s th →
    (th.sb = [] → f.a = .x 0 → Completes (.thExit f) s th (s.killState th) (.close 0)) ∧
    (∀ (old : Nat) (t : State) (u : Thread), th.sb = [] → f.a ≠ .x 0 →
      Yields (Exec.atomic .add (s.getX th.row (xnum f.a)) 8 1 0) s old t → AtIssue t u →
      Completes (.thExit f) s th (t.killState u) (.close 0)) ∧
    (th.sb ≠ [] → Stalls (.thExit f) s th 0xC 0 .sbEmpty))

/-- R174, R175: the loads write what they have read, zero-extended, sign-extended or to a vector register; the stores store the low bytes
of their register. -/
def Obligations.LoadsAndStoresComplete : Prop :=
  ∀ (s t : State) (th u : Thread) (f : FM) (bs : List Byte), AtIssue s th → AtIssue t u →
    (Yields (Exec.load (s.ea th.row f) (sizeBytes f.sz) (f.od == 1)) s bs t →
      Completes (.ld f) s th (t.setX u.row (xnum f.t) (leWord bs)) .next ∧
      Completes (.lds f) s th (t.setX u.row (xnum f.t) (wordOfInt (signed (8 * sizeBytes f.sz) (leNat bs)))) .next ∧
      Completes (.ldv f) s th (t.setV u.row (vnum f.t) (leLine bs)) .next) ∧
    (Yields (Exec.store (s.ea th.row f) (leBytes (sizeBytes f.sz) (s.getX th.row (xnum f.t)).toNat)) s () t →
      Completes (.st f) s th t .next) ∧
    (Yields (Exec.store (s.ea th.row f) (leBytes (sizeBytes f.sz) (s.getV th.row (vnum f.t)).toNat)) s () t →
      Completes (.stv f) s th t .next)

/-- R86, R182, R183: LDFE, STFE and SETE on an aligned place complete once the access has been made, and fault with ALIGN elsewhere. A
load waits while a granule is E, reads M's newest bytes and may leave the granules E; a store waits until every granule is E, writes its
bytes and leaves them F; SETE waits for none and leaves them E or F; a P granule makes the load and the store fault with DATAPOISON; and a
place with no granules faults with PROTECT. -/
def Obligations.FullEmptyInstructionsComplete : Prop :=
  (∀ (s t : State) (th u : Thread) (f : FM) (bs : List Byte), AtIssue s th → AtIssue t u →
    let a := s.ea th.row f
    let aligned := if f.sz = 3 then a.toNat % 16 + 8 ≤ 16 else a.toNat % sizeBytes f.sz = 0
    (aligned →
      (Yields (Exec.loadFE a (sizeBytes f.sz) (f.ql == 1)) s bs t → Completes (.ldfe f) s th
        (if f.sz = 3 then t.setX u.row (xnum f.t) (leWord bs) else t.setV u.row (vnum f.t) (leLine bs)) .next) ∧
      (Yields (Exec.storeFE a (leBytes (sizeBytes f.sz) (s.getV th.row (vnum f.t)).toNat)) s () t → Completes (.stfe f) s th t .next) ∧
      (Yields (Exec.setFE a (sizeBytes f.sz) (f.ql == 1)) s () t → Completes (.sete f) s th t .next)) ∧
    (¬ aligned → Faults (.ldfe f) s th .align a [] ∧ Faults (.stfe f) s th .align a [] ∧ Faults (.sete f) s th .align a [])) ∧
  (∀ (s : State) (th : Thread) (va : Word) (dp n : Nat) (own clear full : Bool) (bs : List Byte), AtIssue s th → th.replies = [] →
    th.asked = [] → bs.length = n →
    let reached (k : AccKind) : Prop := own = true ∧ s.check th va k = .own dp ∨
      own = false ∧ s.check th va k = .ok dp ∧ s.region dp ≠ .control ∧ Exec.openOther s th dp = false
    let counted (write : Bool) : State := if own then s else Exec.countFE th va dp write s
    let empty (g : Nat) : Prop := s.granOfAddr g = .empty
    (reached (if clear then .rmw else .read) →
      (s.hasGran dp = false → Stops (Exec.loadFE va n clear) s (.fault .protect va [])) ∧
      (s.hasGran dp = true → (∃ g ∈ granules dp n, empty g) → Stops (Exec.loadFE va n clear) s (.stall 2 0 (.granules dp n true))) ∧
      (s.hasGran dp = true → (∀ g ∈ granules dp n, ¬ empty g) →
        (s.poisoned dp n = true → Stops (Exec.loadFE va n clear) s (.fault .datapoison va [])) ∧
        (s.poisoned dp n = false →
          let t := if own then s else (Exec.countFE th va dp clear s).viewNewest th.id (lineOf dp)
          Yields (Exec.loadFE va n clear) s (s.newest dp n)
            (if clear then (t.setGran dp n .empty).consumePost th.id dp n else t)))) ∧
    (reached .rmw → th.sb = [] →
      (s.hasGran dp = false → Stops (Exec.storeFE va bs) s (.fault .protect va []) ∧
        Stops (Exec.setFE va n full) s (.fault .protect va [])) ∧
      (s.hasGran dp = true →
        Yields (Exec.setFE va n full) s () ((counted true).setGran dp n (if full then .full else .empty)) ∧
        (s.poisoned dp n = true → Stops (Exec.storeFE va bs) s (.fault .datapoison va [])) ∧
        (s.poisoned dp n = false → (∃ g ∈ granules dp n, ¬ empty g) →
          Stops (Exec.storeFE va bs) s (.stall 2 0 (.granules dp n false))) ∧
        (s.poisoned dp n = false → (∀ g ∈ granules dp n, empty g) → Yields (Exec.storeFE va bs) s ()
          (((((counted true).landStore (some th.id) dp bs .plain).setGran dp n .full).viewNewest th.id (lineOf dp)).noteWrote
            th.id (lineOf dp))))) ∧
    (th.sb ≠ [] → Stops (Exec.storeFE va bs) s (.stall 0xC 0 .sbEmpty) ∧ Stops (Exec.setFE va n full) s (.stall 0xC 0 .sbEmpty))) ∧
  ∀ (s : State) (dp n : Nat) (g : Gran), (s.setGran dp n g).mem = s.mem ∧
    (∀ x ∈ granules dp n, s.hasGran x = true → (s.setGran dp n g).granOfAddr x = g) ∧
    ∀ x, granOf x ∉ granules dp n → (s.setGran dp n g).granOfAddr x = s.granOfAddr x

/-- R180, R193: SSET, SRST and SPOS leave their stream slot as the rules say, and PREF never faults or waits. -/
def Obligations.SlotInstructionsComplete : Prop :=
  ∀ (s : State) (th : Thread) (f : FM), AtIssue s th →
    let n := f.ql.toNat % 4
    let slot := th.row + 0x380 + 64 * n
    (∀ (d : List Byte) (t : State) (u : Thread), (s.ea th.row f).toNat % 64 = 0 → Yields (Exec.load (s.ea th.row f) 64) s d t →
      AtIssue t u → Completes (.sset f) s th (t.poke (u.row + 0x380 + 64 * n) (d.take 0x26 ++ List.replicate 10 0 ++
        wordBytes (setField (leWord ((d.drop 0x30).take 8)) 10 1 0) ++ List.replicate 8 0)) .next) ∧
    ((s.ea th.row f).toNat % 64 ≠ 0 → Faults (.sset f) s th .align (s.ea th.row f) []) ∧
    (let t := s.poke (slot + 0x26) ((List.replicate 5 0).flatMap (leBytes 2))
     let t := t.pokeWord (slot + 0x30) (setField (t.word64 (slot + 0x30)) 10 1 0)
     Completes (.srst f) s th (t.pokeWord (slot + 0x38) 0) .next) ∧
    (let d := s.slotDims th.row n
     let p := s.getX th.row (xnum f.t)
     let total := (List.range d).foldl (fun m k => m * s.slotExtent th.row n k) 1
     (p.toNat < total ∨ s.slotWrap th.row n = true →
       let cs := mixedDigits (s.slotExtent th.row n) d 0 (p.toNat % total) ++ List.replicate (5 - d) 0
       Completes (.spos f) s th (((s.setCounts th.row n cs).setDone th.row n false).setPos th.row n p) .next) ∧
     (total ≤ p.toNat → s.slotWrap th.row n = false →
       let cs := List.replicate d 0 ++ List.replicate (5 - d) 0
       Completes (.spos f) s th (((s.setCounts th.row n cs).setDone th.row n true).setPos th.row n p) .next)) ∧
    Completes (.pref f) s th (match s.check th (s.ea th.row f) .read with
      | .ok dp => prefOpen (s.noteBankWindow th (s.ea th.row f).toNat dp) th dp
      | .miss => s.postMiss th (s.ea th.row f) .read true
      | .violation w => s.violateBy th 0 w
      | _ => s) .next

/-- R184: GET and PUT submit their operation when the store buffer is empty, every operand is aligned, the thread has fewer than 16
operations outstanding, and the head of the list and the counter can be reached. R188: CCRD reads a counter that has reached its count,
and takes the lines that the counted elements wrote; one below its count waits. A read that the outside queue of an open row has made
completes with the answer (log entry 97, the model's choice). -/
def Obligations.OneSidedAndCounterInstructionsComplete : Prop :=
  (∀ (s s1 s2 : State) (th th1 th2 : Thread) (f : FA) (hd : List Byte) (counter : Nat), AtIssue s th → AtIssue s1 th1 → AtIssue s2 th2 →
    let es := elemSize f.md
    let d := s.getX th.row (xnum f.d)
    let a := s.getX th.row (xnum f.a)
    let b := s.getX th.row (xnum f.b)
    let c := s.getX th.row (xnum f.c)
    let op (kind : OneSidedKind) : OneSided :=
      { id := s2.nextId, kind := kind, thread := th2.id, asid := s2.asidOf th2.row, tenant := s2.tenantOf th2.row
        privl := s2.privOf th2.row, unit := th2.ownerUnit, dst := d, src := a
        idx := if bitsAt f.md.toNat 2 1 = 1 then none else some b
        es := es, n := leNat (hd.take 4), counter := counter, taken := [], failed := [], wrote := [], probes := [], idxs := []
        region := [] }
    let submitted (kind : OneSidedKind) : State :=
      { s2 with oneSided := s2.oneSided ++ [op kind], nextId := s2.nextId + 1 }.dropNoMapping ((op kind).owner s2)
    th.sb = [] → d.toNat % es = 0 → a.toNat % es = 0 → b.toNat % 8 = 0 → c.toNat % 16 = 0 →
    (s.oneSided.filter (·.thread == th.id)).length < 16 → Yields (Exec.load b 8) s hd s1 → Yields (Exec.counterAddr c) s1 counter s2 →
    Completes (.get f) s th (submitted .get) .next ∧ Completes (.put f) s th (submitted .put) .next) ∧
  (∀ (s s1 s2 : State) (th th1 u : Thread) (f : FA) (dp : Nat) (own : Bool), AtIssue s th → AtIssue s1 th1 →
    let a := s.getX th.row (xnum f.a)
    let n := (s.getX th.row (xnum f.b)).toNat % 2 ^ 63
    a.toNat % 16 = 0 → Yields (Exec.plainAddr a .read 0) s (dp, own) s1 →
    (∀ k bs, Yields (Exec.answered dp) s1 (some (.data k bs)) s1 →
      Completes (.ccrd f) s th (s1.setX th1.row (xnum f.d) (leWord bs)) .next) ∧
    (Yields (Exec.answered dp) s1 none s1 →
      (own = true → s2 = s1) →
      (own = false → Exec.openOther s1 th1 dp = false ∧ ∃ s', Yields (Exec.checkHold dp a) s1 () s1 ∧ Yields (Exec.reachRow dp false) s1 () s' ∧
        s2 = (s'.noteBankWindow th1 a.toNat dp).countWindow (s'.tenantOf th1.row) dp false) → s2.poisoned dp 8 = false → AtIssue s2 u →
      (∀ v, n ≤ field (s2.word64 dp) 0 63 → AtIssue (s2.importCounted u.id dp) v →
        Completes (.ccrd f) s th ((s2.importCounted u.id dp).setX v.row (xnum f.d) (s2.word64 dp)) .next) ∧
      (field (s2.word64 dp) 0 63 < n → Stalls (.ccrd f) s th 6 0 (.counter dp n))))

/-- R83, R190: the atomics write the old value, sign-extended, to their register. On a line that no other thread's open row holds, an
atomic reads M's newest bytes, writes the new value of its operation over them, or writes nothing where a comparison fails, takes the
line's newest version into the issuer's view, and faults with DATAPOISON on a P granule; it issues once the store buffer is empty. -/
def Obligations.AtomicsComplete : Prop :=
  (∀ (s t : State) (th u : Thread) (f : FM) (old : Nat), AtIssue s th → AtIssue t u →
    let n := sizeBytes f.sz
    let part (x : Word) : Word := .ofNat 64 (x.toNat % 2 ^ (8 * n))
    let x := s.getX th.row (xnum f.t)
    let done (i : Instr) (op : AtomOp) (w : Word) : Prop :=
      Yields (Exec.atomic op (s.ea th.row f) n (part x) (part w)) s old t →
        Completes i s th (t.setX u.row (xnum f.t) (wordOfInt (signed (8 * n) old))) .next
    done (.aadd f) .add 0 ∧ done (.aand f) .and 0 ∧ done (.aor f) .or 0 ∧ done (.axor f) .xor 0 ∧
    done (.amin f) (if f.ql = 1 then .minu else .min) 0 ∧ done (.amax f) (if f.ql = 1 then .maxu else .max) 0 ∧
    done (.aswp f) .swap 0 ∧ done (.acas f) .cas (s.getX th.row (xnum f.t + 1)) ∧
    done (.afadd f) (if f.ql = 1 then .faddBf16 else .faddF32) 0) ∧
  ∀ (s t w : State) (th : Thread) (op : AtomOp) (va : Word) (dp n : Nat) (v x : Word), AtIssue s th → th.replies = [] → th.asked = [] →
    va.toNat % n = 0 →
    (th.sb ≠ [] → Stops (Exec.atomic op va n v x) s (.stall 0xC 0 .sbEmpty)) ∧
    (th.sb = [] →
      s.check th va .rmw = .own dp ∧ w = s ∨
        s.check th va .rmw = .ok dp ∧ s.region dp ≠ .control ∧ Exec.openOther s th dp = false ∧ s.lostHold? th dp = none ∧
          s.reach (th.id + 1) dp true = .ok t ∧ AtIssue t th ∧
          w = (t.noteBankWindow th va.toNat dp).countWindow (t.tenantOf th.row) dp true →
      (w.poisoned dp n = true → Stops (Exec.atomic op va n v x) s (.fault .datapoison va [])) ∧
      (w.poisoned dp n = false →
        let old := leNat (w.newest dp n)
        let m := 2 ^ (8 * n)
        let sum (f : FloatFmt) : Nat := ((Rl.decode f old).add (.decode f v.toNat)).rne f
        let new : Option Nat := match op with
          | .add => some ((old + v.toNat) % m)
          | .and => some (old &&& v.toNat)
          | .or => some (old ||| v.toNat)
          | .xor => some (old ^^^ v.toNat)
          | .min => some (if signed (8 * n) v.toNat < signed (8 * n) old then v.toNat else old)
          | .max => some (if signed (8 * n) old < signed (8 * n) v.toNat then v.toNat else old)
          | .minu => some (min old v.toNat)
          | .maxu => some (max old v.toNat)
          | .swap => some v.toNat
          | .cas => if old = v.toNat then some x.toNat else none
          | .faddF32 => some (sum .f32)
          | .faddBf16 => some (sum .bf16)
        let wrote := match new with
          | some y => w.landStore (some th.id) dp (leBytes n y) .plain
          | none => w
        Yields (Exec.atomic op va n v x) s old ((wrote.viewNewest th.id (lineOf dp)).noteWrote th.id (lineOf dp)) ∧
        (w.threadAt? (rowOf dp) = none → ∀ y, new = some y → wrote = w.poke dp (leBytes n y))))

/-- R152, R162, R335: the operand forms of the scalar instructions: a register, with x0 reading zero and discarding, and a queue port,
whose head is popped and to whose tail a value is pushed, with the row waiting while there is no element or no room. R177 to R179, R204,
R207: the three forms of a vector operand: a register, the next vector of a stream slot, a scalar in every lane. -/
def Obligations.OperandForms : Prop :=
  ∀ (s : State) (th : Thread), AtIssue s th →
    (∀ n, Yields (Exec.src (.x n)) s (s.getX th.row n.val) s) ∧
    (∀ n w, Yields (Exec.dst (.x n) w) s () (s.setX th.row n.val w)) ∧
    (∀ (n : Fin 4) (u : Queue), s.qport th.row n.val / 2 ^ 15 = 1 → bitsAt (s.qport th.row n.val) 8 7 = 0 →
      s.queue? th.cluster (s.qport th.row n.val % 2 ^ 8) = some u → u.tenant = s.tenantOf th.row →
      (∀ v rest, u.items = v :: rest → Yields (Exec.src (.q n)) s v (s.setQueue u rest)) ∧
      (∀ w, Yields (Exec.dst (.q n) w) s () (s.setQueue u (u.items ++ [w]))) ∧
      (u.items ≠ [] → Yields (Exec.queuesReady [.q n] (.x 0)) s () s) ∧
      (u.items = [] → Stops (Exec.queuesReady [.q n] (.x 0)) s (.stall 5 n.val (.queue u.cluster u.num 1 0))) ∧
      (u.items.length < u.cap → Yields (Exec.queuesReady [] (.q n)) s () s) ∧
      (u.cap ≤ u.items.length → Stops (Exec.queuesReady [] (.q n)) s (.stall 5 (n.val + 4) (.queue u.cluster u.num 0 1)))) ∧
    (∀ (n : Fin 4), s.qport th.row n.val / 2 ^ 15 = 0 → Stops (Exec.queuesReady [.q n] (.x 0)) s (.fault .operand 0 [])) ∧
    (∀ srcs d, (∀ r ∈ srcs, r.isQ = false) → d.isQ = false → Yields (Exec.queuesReady srcs d) s () s) ∧
    ∀ w : Nat,
      (∀ n, Yields (Exec.vsrc (.v n) w) s (s.getV th.row n.val) s) ∧
      (∀ n, Yields (Exec.vsrc (.x n) w) s (Exec.splat w (s.getX th.row n.val)) s) ∧
      (∀ n : Fin 4, s.slotDone th.row n.val = true → Yields (Exec.vsrc (.s n) w) s 0 s) ∧
      ∀ (n : Fin 4) (bs : List Byte) (t : State), s.slotDone th.row n.val = false → Yields (Exec.load (s.slotNext th.row n.val) 64) s bs t →
        Yields (Exec.vsrc (.s n) w) s (leLine bs) (t.slotAdvance th.row n.val)

/-- R207, R208, R211: the lanewise instructions. That VSEL takes a lane of -0.0 as nonzero, and so writes the lane of a, is the model's
reading of R211 (log entry 70, DEDUCED); that VSUB adds the negated lane of b, so that -0 less +0 gives -0, is its reading of R202 (log
entry 109, DEDUCED); the lanes of the reciprocal, the reciprocal root, the power of two and the logarithm are those that the model
computes (log entry 22, UNVERIFIED): these clauses are the model's choice. -/
def Obligations.LanewiseVectorsComplete : Prop :=
  VectorTwo .vadd (fun f a b => laneOf f.ty (fun a b _ => a + b) (fun x y _ => x.add y) a b 0) ∧
  VectorTwo .vsub (fun f a b => laneOf f.ty (fun a b _ => (a : Int) - b) (fun x y _ => x.add y.negate) a b 0) ∧
  VectorTwo .vmul (fun f a b => laneOf f.ty (fun a b _ => a * b) (fun x y _ => x.mul y) a b 0) ∧
  VectorThree .vfma (fun f a b c => laneOf f.ty (fun a b c => a * b + c) (fun x y z => (x.mul y).add z) a b c) ∧
  VectorTwo .vmin (fun f => laneMin f.ty (mdBit f 0)) ∧ VectorTwo .vmax (fun f => laneMax f.ty (mdBit f 0)) ∧
  VectorOne .vabs (fun f a => if f.ty.isInt then (signed f.ty.width a).natAbs % 2 ^ f.ty.width else a % 2 ^ (f.ty.width - 1)) ∧
  VectorOne .vneg (fun f a =>
    if f.ty.isInt then (2 ^ f.ty.width - a) % 2 ^ f.ty.width else (a + 2 ^ (f.ty.width - 1)) % 2 ^ f.ty.width) ∧
  VectorOne .vrcp (fun f a => laneOf f.ty (fun a _ _ => a) (fun x _ _ => rcp x) a 0 0) ∧
  VectorOne .vrsq (fun f a => laneOf f.ty (fun a _ _ => a) (fun x _ _ => rsq x) a 0 0) ∧
  VectorOne .vexp (fun f a => laneOf f.ty (fun a _ _ => a) (fun x _ _ => exp2 x) a 0 0) ∧
  VectorOne .vlog (fun f a => laneOf f.ty (fun a _ _ => a) (fun x _ _ => log2 x) a 0 0) ∧
  VectorTwo .vand (fun _ a b => a &&& b) ∧ VectorTwo .vor (fun _ a b => a ||| b) ∧ VectorTwo .vxor (fun _ a b => a ^^^ b) ∧
  VectorTwo .vshl (fun f a b => a * 2 ^ (b % f.ty.width) % 2 ^ f.ty.width) ∧
  VectorTwo .vshr (fun f a b => a / 2 ^ (b % f.ty.width)) ∧
  VectorTwo .vsra (fun f a b => (signed f.ty.width a / (2 ^ (b % f.ty.width) : Nat) % ((2 ^ f.ty.width : Nat) : Int)).toNat) ∧
  VectorThree .vsel (fun _ a b c => if c = 0 then b else a) ∧
  VectorTwo .vadds (fun f a b => ((if mdBit f 0 then satU f.ty.width (a + b)
    else satS f.ty.width (signed f.ty.width a + signed f.ty.width b)) % ((2 ^ f.ty.width : Nat) : Int)).toNat) ∧
  VectorTwo .vsubs (fun f a b => ((if mdBit f 0 then satU f.ty.width ((a : Int) - b)
    else satS f.ty.width (signed f.ty.width a - signed f.ty.width b)) % ((2 ^ f.ty.width : Nat) : Int)).toNat) ∧
  VectorTwo .vmulh (fun f a b => (laneInt (mdBit f 0) f.ty.width a * laneInt (mdBit f 0) f.ty.width b /
    ((2 ^ f.ty.width : Nat) : Int) % ((2 ^ f.ty.width : Nat) : Int)).toNat)

/-- R210, R212, R213: VCMP writes its mask and its predicate, and VCVT and VPACK convert. That a conversion of an infinity with sat to a
wider floating type stays infinite, where R203 and R212 differ, is the model's reading (log entry 69). -/
def Obligations.VectorComparesAndConversionsComplete : Prop :=
  ∀ (s s1 s2 : State) (th u : Thread) (f : FA) (a b : Line), AtIssue s th →
    (let w := f.ty.width
     let c := f.md.toNat % 8
     let p := f.md.toNat / 16 % 8
     let hold (i : Nat) : Bool := match ElemFloat f.ty with
       | some fm => floatCond c (.decode fm (lane a w i)) (.decode fm (lane b w i))
       | none => intCond c (laneInt (mdBit f 3) w (lane a w i)) (laneInt (mdBit f 3) w (lane b w i))
     let t := s2.setV u.row (vnum f.d) (vlanes f.ty fun i => if hold i then 2 ^ w - 1 else 0)
     let every := (List.range f.ty.lanes).all hold
     let some_ := (List.range f.ty.lanes).any hold
     Yields (Exec.vsrc f.a w) s a s1 → Yields (Exec.vsrc f.b w) s1 b s2 → AtIssue s2 u →
       Completes (.vcmp f) s th (t.setP u.row p (if mdBit f 7 then every else some_)) .next) ∧
    (let w := (cvtSource f.md).width
     let conv (i : Nat) : Nat := convLane f.ty (cvtSource f.md) (cvtMode f.md) (mdBit f 5) (lane a w i)
     let old := s1.getV u.row (vnum f.d)
     let part := f.md.toNat / 64
     Yields (Exec.vsrc f.a w) s a s1 → AtIssue s1 u → Completes (.vcvt f) s th (s1.setV u.row (vnum f.d) (
       if (cvtSource f.md).lanes < f.ty.lanes then vlanes f.ty fun i =>
         if part * (cvtSource f.md).lanes ≤ i ∧ i < (part + 1) * (cvtSource f.md).lanes
         then conv (i - part * (cvtSource f.md).lanes) else lane old f.ty.width i
       else if f.ty.lanes < (cvtSource f.md).lanes then vlanes f.ty fun i => conv (part * f.ty.lanes + i)
       else vlanes f.ty conv)) .next) ∧
    (let w := 2 * f.ty.width
     let pack (x : Nat) : Nat := match ElemFloat f.ty with
       | some fm => (f32 x).rne fm
       | none => if mdBit f 0 then min x (2 ^ 31 - 1) else (satS 32 (signed 64 x) % ((2 ^ 32 : Nat) : Int)).toNat
     Yields (Exec.vsrc f.a w) s a s1 → Yields (Exec.vsrc f.b w) s1 b s2 → AtIssue s2 u →
       Completes (.vpack f) s th (s2.setV u.row (vnum f.d) (vlanes f.ty fun i =>
         pack (if i < f.ty.lanes / 2 then lane a w i else lane b w (i - f.ty.lanes / 2)))) .next)

/-- R214: the moves of lanes. -/
def Obligations.LaneMovesComplete : Prop :=
  VectorMove .vperm (fun f a b i => lane a f.ty.width (lane b f.ty.width i % f.ty.lanes)) ∧
  VectorMove .vzip (fun f a b i =>
    let h := if mdBit f 0 then f.ty.lanes / 2 else 0
    if i % 2 = 0 then lane a f.ty.width (h + i / 2) else lane b f.ty.width (h + i / 2)) ∧
  VectorMove .vunzip (fun f a b i =>
    let j := 2 * i + (mdBit f 0).toNat
    if j < f.ty.lanes then lane a f.ty.width j else lane b f.ty.width (j - f.ty.lanes)) ∧
  ∀ (s s1 : State) (th u : Thread) (f : FA) (a : Line), AtIssue s th →
    (Yields (Exec.vsrc f.a f.ty.width) s a s1 → AtIssue s1 u →
      Completes (.vbcast f) s th (s1.setV u.row (vnum f.d) (vlanes f.ty fun i =>
        lane a f.ty.width (if f.a.isX then i else f.md.toNat))) .next ∧
      Completes (.vrot f) s th (s1.setV u.row (vnum f.d) (vlanes f.ty fun i =>
        lane a f.ty.width ((i + f.md.toNat + (s1.getX u.row (xnum f.b)).toNat) % f.ty.lanes))) .next ∧
      Completes (.vmovx f) s th (s1.setX u.row (xnum f.d) (if f.ty.isInt then
        wordOfInt (signed f.ty.width (lane a f.ty.width f.md.toNat)) else .ofNat 64 (lane a f.ty.width f.md.toNat))) .next) ∧
    Completes (.vins f) s th (s.setV th.row (vnum f.d)
      (setLane (s.getV th.row (vnum f.d)) f.ty.width f.md.toNat (s.getX th.row (xnum f.a)).toNat)) .next

/-- R215 to R220: the reductions, the scan, and quantisation. -/
def Obligations.ReductionsAndQuantisationComplete : Prop :=
  Reduces .vrsum .sum ∧ Reduces .vrmax .max ∧ Reduces .vrmin .min ∧
  ∀ (s s1 s2 : State) (th u : Thread) (f : FA) (a b : Line), AtIssue s th →
    (Yields (Exec.vsrc f.a f.ty.width) s a s1 → AtIssue s1 u →
      Completes (.vscan f) s th (s1.setV u.row (vnum f.d) (ofLanes f.ty.width
        (scanLanes f.ty (mdBit f 0) (lanesOf a f.ty.width) (if f.ty.isInt then 0 else 2 ^ (f.ty.width - 1))))) .next ∧
      (let x := (s1.getX u.row (xnum f.b)).toNat
       let nw := (narrowType f.md).width
       let part := f.md.toNat / 4 % 8
       let n := f.ty.lanes
       Completes (.vqnt f) s th (s1.setV u.row (vnum f.d) (ofLanes nw ((List.range (512 / nw)).map fun j =>
         if part * n ≤ j ∧ j < (part + 1) * n
         then quantCode f (x % 256) (x / 256 % 256) (elemValue f.ty (lane a f.ty.width (j - part * n)))
         else lane (s1.getV u.row (vnum f.d)) nw j))) .next)) ∧
    (Yields (Exec.vsrc f.a (narrowType f.md).width) s a s1 → AtIssue s1 u →
      let x := (s1.getX u.row (xnum f.b)).toNat
      Completes (.vdqnt f) s th (s1.setV u.row (vnum f.d) (vlanes f.ty fun i =>
        dequantLane f (x % 256) (x / 256 % 256)
          (lane a (narrowType f.md).width (f.md.toNat / 4 % 8 * f.ty.lanes + i)))) .next) ∧
    (Yields (Exec.vsrc f.a f.ty.width) s a s1 → Yields (Exec.vsrc f.b 8) s1 b s2 → AtIssue s2 u →
      Completes (.vbscale f) s th (s2.setV u.row (vnum f.d) (vlanes f.ty fun i =>
        let sc := lane b 8 (i / 2 ^ (f.md.toNat % 8))
        match ElemFloat f.ty with
        | none => 0
        | some fm => if sc = 255 then fm.nan
          else ((elemValue f.ty (lane a f.ty.width i)).scale ((sc : Int) - 127)).rne fm)) .next)

/-- R192, R355: FSHIP to a line that can be served runs its routine on the line, writes the line when the routine has ended, and writes
the result; one that the outside queue of an open row has performed writes the answer. How a routine's bound counts, that a run ends at a
word that names a queue or a stream slot (log entry 31), and that the whole routine runs in the one APPLY (log entry 32) are the model's
choices. -/
def Obligations.ShippedRoutineCompletes : Prop :=
  ∀ (s s1 s2 : State) (th th1 u : Thread) (f : FA) (dp : Nat) (own : Bool) (r : Routine) (line : Option Line) (x : Word),
    AtIssue s th → AtIssue s1 th1 →
    let a := s.getX th.row (xnum f.a)
    let l := dp / 64 * 64
    a.toNat % 8 = 0 → th.sb = [] → Yields (Exec.plainAddr a .rmw 2) s (dp, own) s1 → s1.region dp = .dram →
    (∀ k bs, Yields (Exec.answered dp) s1 (some (.data k bs)) s1 →
      Completes (.fship f) s th (s1.setX th1.row (xnum f.d) (leWord bs)) .next) ∧
    (Yields (Exec.answered dp) s1 none s1 → ((s1.tenant? (s1.tenantOf th1.row)).bind fun t => assoc t.routines f.md.toNat) = some r →
      r.status = 1 →
      (own = true → s2 = s1) →
      (own = false → Exec.openOther s1 th1 dp = false ∧ ∃ s', Yields (Exec.checkHold dp a) s1 () s1 ∧ Yields (Exec.reachRow dp true) s1 () s' ∧
        s2 = (s'.noteBankWindow th1 a.toNat dp).countWindow (s'.tenantOf th1.row) dp true) →
      s2.poisoned l 64 = false →
      shipped r (leLine (s2.newest l 64)) (.ofNat 64 (dp % 64)) (s.getX th.row (xnum f.b)) (s.getX th.row (xnum f.c)) = (line, x) →
      let t := match line with
        | some v => ((s2.landStore (some th1.id) l (lineToBytes v) .plain).viewNewest th1.id l).noteWrote th1.id l
        | none => s2.viewNewest th1.id l
      AtIssue t u → Completes (.fship f) s th (t.setX u.row (xnum f.d) x) .next)

/-- R230, R240 to R242: M.MMA and M.MMAG with a ready, DEFINED accumulator and aligned operands complete once their rows have been read,
with the chunked sums of products in their arithmetic phase; an accumulator that is not DEFINED faults. That the product of an INT8 zero
and a negative value is -0 is the model's choice (log entry 111, DEDUCED). R244: each issue of M.MVS takes one weight row into row r of
its accumulator; an issue that is not the last leaves a progress point, and the last one moves the counter, in another thread's open row
through its outside queue (R69). Its INT8 products too are those of log entry 111. -/
def Obligations.ProductsComplete : Prop :=
  (∀ (s s1 s2 s3 : State) (th u : Thread) (f : FX) (acc : Acc) (bs : List (List Byte)), AtIssue s th → AtIssue s3 u →
    let k := anum f.d
    let a := s.getX th.row (xnum f.a)
    let b := s.getX th.row (xnum f.b)
    let al := if f.tya.bytes = 1 ∧ f.tya ≠ .e2m1 then 32 else 64
    let len := 32 * f.imm.toNat * f.tya.bytes
    MatrixReady s th [k] → a.toNat % al = 0 → b.toNat % al = 0 →
    (s.accStatus th.row k ≠ 1 → Faults (.mMma f) s th .accfault 0 [] ∧ Faults (.mMmag f) s th .accfault 0 []) ∧
    (s.accStatus th.row k = 1 → Yields (readAcc k) s acc s1 →
      (∀ as : List (List Byte), f.tya ≠ .e2m1 → Yields (rowReads a (strideOf f.md len) len) s1 as s2 →
        Yields (rowReads b len len) s2 bs s3 →
        Completes (.mMma f) s th (withResults s3 u [(k, productAcc acc (fun _ => true) 32 f.imm.toNat fun i j n =>
          some ((rowElem f.tya (as.getD i []) n).mul (rowElem f.tyb (bs.getD j []) n)))]) .next) ∧
      (∀ (s' : State) (ra rb : List Byte), f.tya = .e2m1 → f.md ≠ 32 → Yields (Exec.loadLines a 576) s1 ra s' →
        Yields (Exec.loadLines b 576) s' rb s3 →
        Completes (.mMma f) s th (withResults s3 u [(k, productAcc acc (fun _ => true) 32 1 fun i j n =>
          some ((blockValue ra 16 512 i n).mul (blockValue rb 16 512 j n)))]) .next) ∧
      (∀ (s' : State) (ra rb : List (List Byte)), f.tya = .e2m1 → f.md = 32 →
        Yields ((List.range 2).mapM fun i => Exec.loadLines (wordAdd a (192 * i)) 192) s1 ra s' →
        Yields ((List.range 2).mapM fun i => Exec.loadLines (wordAdd b (192 * i)) 192) s' rb s3 →
        Completes (.mMma f) s th (withResults s3 u [(k, productAcc acc (fun _ => true) 16 1 fun i j n => some
          ((blockValue (ra.getD (i / 16) []) 8 128 (i % 16) n).mul (blockValue (rb.getD (j / 16) []) 8 128 (j % 16) n)))]) .next) ∧
      (∀ as : List (Option (List Byte)), Yields (gatherRows f a len) s1 as s2 → Yields (rowReads b len len) s2 bs s3 →
        Completes (.mMmag f) s th (withResults s3 u [(k, productAcc acc (fun i => (as.getD i none).isSome) 32 f.imm.toNat fun i j n =>
          some ((rowElem f.tya ((as.getD i none).getD []) n).mul (rowElem f.tyb (bs.getD j []) n)))]) .next))) ∧
  (∀ (s s1 s2 s3 : State) (th u : Thread) (f : FX) (acc : Acc) (batch : List (List Byte)) (ws : List Line), AtIssue s th → AtIssue s3 u →
    let k := anum f.d
    let nk := bitsAt f.imm.toNat 0 6 + 1
    let nb := bitsAt f.imm.toNat 6 3 + 1
    let nr := bitsAt f.imm.toNat 9 5 + 1
    let len := 32 * nk * f.tya.bytes
    let b := s.getX th.row (xnum f.b)
    let w := ws.flatMap lineToBytes
    let r := s3.prog u.row
    let acc' := acc.ofElems fun i j =>
      if i = r ∧ j < nb then
        addChunks (acc.elem i j) 32 (fun n => some ((rowElem f.tya w n).mul (rowElem f.tyb (batch.getD j []) n))) nk 0
      else acc.elem i j
    let t := s3.updThread u.id fun t => t.setAcc k acc'
    let t := if r = 0 ∧ bitsAt f.imm.toNat 14 1 = 1 then t.setAccStatus u.row k 1 true else t
    MatrixReady s th [k] → b.toNat % 64 = 0 → s.accStatus th.row k = 1 →
    (f.c = .x 0 → Yields (readAcc k) s acc s1 → Yields (mvsBatch b nb len) s1 batch s2 →
      Yields ((List.range (len / 64)).mapM fun _ => Exec.vsrc f.a 8) s2 ws s3 →
      (r + 1 < nr → Completes (.mMvs f) s th (t.setCtrl u.row 0 32 32 (r + 1)) .again) ∧
      (nr ≤ r + 1 → Completes (.mMvs f) s th ((t.setCtrl u.row 0 32 32 0).updThread u.id fun t => { t with staged := [] }) .next)) ∧
    (∀ (s' s'' : State) (dp : Nat), f.c ≠ .x 0 → Yields (Exec.counterAddr (s.getX th.row (xnum f.c))) s dp s' →
      Yields (Exec.reachRow dp true) s' () s'' → Yields (readAcc k) s'' acc s1 → Yields (mvsBatch b nb len) s1 batch s2 →
      Yields ((List.range (len / 64)).mapM fun _ => Exec.vsrc f.a 8) s2 ws s3 →
      (r + 1 < nr → Completes (.mMvs f) s th (t.setCtrl u.row 0 32 32 (r + 1)) .again) ∧
      (nr ≤ r + 1 → Completes (.mMvs f) s th
        (let v := (t.setCtrl u.row 0 32 32 0).updThread u.id fun t => { t with staged := [] }
         if Exec.openOther v u dp then Exec.queueOn dp (.count u.id dp nr) v else v.counterMove dp nr []) .next)))

/-- R236, R245, R246: M.SACC scales and adds, M.ZERO and M.LDACC define an accumulator, one that is DEFINED and has no tile being restored
first, and M.LDACC with add adds to one. -/
def Obligations.AccumulatorUpdatesComplete : Prop :=
  ∀ (s s0 s1 s2 s3 : State) (th u u2 : Thread) (f : FX), AtIssue s th → AtIssue s2 u → AtIssue s3 u2 →
    let k := anum f.d
    let ks := anum f.a
    let a := s.getX th.row (xnum f.a)
    let bf := f.md.toNat / 32 % 2 = 1
    let len := if bf then 64 else 128
    (∀ src dst : Acc, MatrixReady s th [k, ks] → s.accStatus th.row k = 1 → s.accStatus th.row ks = 1 →
      Yields (readAcc ks) s src s1 → Yields (readAcc k) s1 dst s2 →
      let out := dst.ofElems fun i j =>
        let n := if f.md.toNat % 2 = 1 then i / 16 else 0
        let m := 2 + if f.md.toNat % 2 = 1 then j / 16 else 0
        let ea := field (s.getX th.row (xnum f.b)) (8 * n) 8
        let eb := field (s.getX th.row (xnum f.b)) (8 * m) 8
        if ea = 255 ∨ eb = 255 then FloatFmt.nan .f32
        else ((f32 (dst.elem i j)).add ((f32 (src.elem i j)).scale ((ea : Int) + eb - 254))).rne .f32
      let t := s2.setAccStatus u.row k 1 (s2.accInc u.row k || s2.accInc u.row ks)
      (f.md.toNat / 2 % 2 = 0 → Completes (.mSacc f) s th
        (withResults t u (if k = ks then [(k, out)] else [(k, out), (ks, src)])) .next) ∧
      (f.md.toNat / 2 % 2 = 1 → Completes (.mSacc f) s th
        (withResults (t.setAccStatus u.row ks 1 false) u [(k, out), (ks, src.ofElems fun _ _ => 0)]) .next)) ∧
    (MatrixReady s th [k] → field (s.astat th.row) 0 8 ≠ 0 ∨ State.asaveOk (s.asave th.row) = true →
      Yields (nameAcc k) s () s0 → Yields (defineAcc k Acc.zero) s0 () s1 → Completes (.mZero f) s th s1 .next) ∧
    (∀ rows : List (List Byte), MatrixReady s th [k] → a.toNat % 64 = 0 → f.md.toNat / 64 % 2 = 0 →
      field (s.astat th.row) 0 8 ≠ 0 ∨ State.asaveOk (s.asave th.row) = true → Yields (nameAcc k) s () s0 →
      Yields (rowReads a (strideOf f.md len) len) s0 rows s2 →
      Yields (defineAcc k ((u.acc k).ofElems fun i j => loadedElem bf (rows.getD i []) j)) s2 () s3 →
      Completes (.mLdacc f) s th s3 .next) ∧
    (∀ (rows : List (List Byte)) (acc : Acc), MatrixReady s th [k] → a.toNat % 64 = 0 → f.md.toNat / 64 % 2 = 1 →
      s.accStatus th.row k = 1 → Yields (rowReads a (strideOf f.md len) len) s rows s1 → Yields (readAcc k) s1 acc s3 →
      Completes (.mLdacc f) s th (withResults (s3.setAccStatus u2.row k 1 false) u2
        [(k, acc.ofElems fun i j => accAdd (acc.elem i j) (loadedElem bf (rows.getD i []) j))]) .next)

/-- R236, R243, R246: M.GATH stores its gathered rows, M.STACC the lines of a complete accumulator, and M.DRAIN waits for the matrix
instructions in flight, restores the accumulator that it names, writes dirty accumulators back, and discards one, as its bits ask. That an
accumulator which it discards has INC 0 is the model's choice (log entry 120). -/
def Obligations.AccumulatorTransfersComplete : Prop :=
  (∀ (s s0 s1 s2 : State) (th u : Thread) (f : FX), AtIssue s th → AtIssue s0 u →
    let k := anum f.b
    let a := s.getX th.row (xnum f.a)
    let bf := f.md.toNat / 32 % 2 = 1
    let len := if bf then 64 else 128
    let glen := 32 * f.imm.toNat * f.tya.bytes
    let d := s.getX th.row (xnum f.d)
    (∀ rows : List (Option (List Byte)), MatrixReady s th [] → a.toNat % (if f.tya.bytes = 1 ∧ f.tya ≠ .e2m1 then 32 else 64) = 0 →
      (∀ i < 32, (wordAdd d (i * glen)).toNat % 2048 + glen ≤ 2048) → Yields (gatherRows f a glen) s rows s1 →
      Yields (storeRows d glen rows) s1 () s2 →
      Completes (.mGath f) s th s2 .next) ∧
    (∀ acc : Acc, MatrixReady s th [k] → a.toNat % 64 = 0 → s.accStatus th.row k = 1 →
      s.accInc th.row k = false ∨ f.md.toNat / 64 % 2 = 1 → Yields (readAcc k) s acc s1 →
      Yields (storeAcc bf a (strideOf f.md len) len acc) s1 () s2 →
      Completes (.mStacc f) s th s2 .next) ∧
    (s.islandOn (2 * th.die + 1) = true →
      (th.matrix ≠ [] → Stalls (.mDrain f) s th 0xC 0 .matrix) ∧
      (th.matrix = [] → (f.md.toNat / 2 % 2 = 1 → Yields (nameAcc (anum f.d)) s () s0) → (f.md.toNat / 2 % 2 = 0 → s0 = s) →
        (f.md.toNat % 2 = 1 → s0.writeBack u false = some s1) → (f.md.toNat % 2 = 0 → s1 = s0) →
        Completes (.mDrain f) s th (if f.md.toNat / 2 % 2 = 1 then
          (s1.setAccStatus u.row (anum f.d) 0 false).updThread u.id fun t => t.setAcc (anum f.d) Acc.none else s1) .next))) ∧
  ∀ (s : State) (th : Thread) (k : Nat), AtIssue s th → s.accStatus th.row k ≠ 1 ∨ (th.acc k).bound = true →
    Yields (nameAcc k) s () s

/-- R248 to R251: M.SPMM multiplies the rows that the tile gives, with an absent row left unchanged; M.TDIR gives the number of nonzero
values and stores it in the tile word, or gives the estimate of a dynamic tile. That the product of an INT8 zero and a negative value is
-0 is the model's choice (log entry 111, DEDUCED). -/
def Obligations.SparseTilesComplete : Prop :=
  ∀ (s s1 s2 s3 s4 : State) (th u : Thread) (f : FX) (e : TileEntry), AtIssue s th →
    let a := s.getX th.row (xnum f.a)
    let b := s.getX th.row (xnum f.b)
    let len := 32 * f.tya.bytes
    a.toNat % 32 = 0 → Yields (readEntry a) s e s1 →
    (∀ (rows : List (Nat × Nat × List Byte)) (acc : Acc) (bs : List (List Byte)), MatrixReady s th [anum f.d] →
      b.toNat % (if f.tya.bytes = 1 ∧ f.tya ≠ .e2m1 then 32 else 64) = 0 → s.accStatus th.row (anum f.d) = 1 →
      (e.kind = 2 → Yields (walkedRows e a f.tya) s1 rows s2) →
      (e.kind ≠ 2 → ∃ rs, Yields (tileRows e f.tya) s1 rs s2 ∧ rows = rs.map fun p => (p.1, 2 ^ 32 - 1, p.2)) →
      Yields (readAcc (anum f.d)) s2 acc s3 → Yields (rowReads b len len) s3 bs s4 → AtIssue s4 u →
      let rowAt (i : Nat) := rows.find? fun p => p.1 == i
      Completes (.mSpmm f) s th (withResults s4 u [(anum f.d, productAcc acc (fun i => (rowAt i).isSome) 32 1 fun i j n =>
        match rowAt i with
        | some (_, mask, ra) =>
          if bitsAt mask n 1 = 1 then some ((rowElem f.tya ra n).mul (rowElem f.tyb (bs.getD j []) n)) else none
        | none => none)]) .next) ∧
    (MatrixReady s th [] → AtIssue s1 u → e.kind = 2 → Completes (.mTdir f) s th (s1.setX u.row (xnum f.d) (.ofNat 64 e.est)) .next) ∧
    (∀ rows : List (Nat × List Byte), MatrixReady s th [] → AtIssue s2 u → e.kind ≠ 2 → Yields (tileRows e f.tya) s1 rows s2 →
      let n := (rows.flatMap fun p => (List.range 32).filter fun k => ! (rowElem f.tya p.2 k).isZero).length
      Yields (Exec.store a (wordBytes (setField e.word 2 11 n))) (s2.setX u.row (xnum f.d) (.ofNat 64 n)) () s3 →
      Completes (.mTdir f) s th s3 .next)

/-- R251, R252: the instructions of a walk. -/
def Obligations.WalkInstructionsComplete : Prop :=
  ∀ (s s1 : State) (th u : Thread) (f : FA) (bs : List Byte), AtIssue s th → AtIssue s1 u →
    let a := s.getX th.row (xnum f.a)
    let b := s.getX th.row (xnum f.b)
    let k := s.skink th.place
    let moved (t : State) (n : Nat) : State := if f.md.toNat % 2 = 1 then t.setX u.row (xnum f.a) (wordAdd a n) else t
    let emit (mask : Nat) (q : WalkReq) : State :=
      s.setSkink { k with emitted := k.emitted.filter (·.1 != a.toNat % 32) ++
        [(a.toNat % 32, mask, (lineToBytes (s.getV th.row (vnum f.b))).take (32 * q.tya.bytes))] }
    (Yields (Exec.load a f.ty.bytes) s bs s1 → Completes (.wLdi f) s th (moved (s1.setX u.row (xnum f.d)
      (if f.md.toNat / 2 % 2 = 1 then wordOfInt (signed (8 * f.ty.bytes) (leNat bs)) else leWord bs)) f.ty.bytes) .next) ∧
    (Yields (Exec.load a 64) s bs s1 → Completes (.wLdv f) s th (moved (s1.setV u.row (vnum f.d) (leLine bs)) 64) .next) ∧
    (∀ q, k.cur = some q → Completes (.wEmit f) s th (emit (2 ^ 32 - 1) q) .next ∧
      Completes (.wEmitz f) s th (emit ((s.getX th.row (xnum f.c)).toNat % 2 ^ 32) q) .next ∧
      Completes (.wEnd f) s th (s.setSkink { k with
        cur := none, emitted := [], issues := 0
        ends := if q.thread = noThread then k.ends else k.ends ++ [(q.thread, .rows k.emitted)] }) (.close 1)) ∧
    Completes (.wAdv f) s th (s.setX th.row (xnum f.d)
      (wordAdd a (((List.range 32).filter fun i => b.toNat.testBit i).length * f.ty.bytes))) .next ∧
    Completes (.wSel f) s th (s.setV th.row (vnum f.d)
      (ofLanes f.ty.width (selectLanes b.toNat (lane (s.getV th.row (vnum f.a)) f.ty.width) 32 0 0))) .next

/-- R264, R265: ROW.OPEN, ROW.HOLD and ROW.REL on a row that the checks admit: the result says what they found, a buffer that must change
is activated, and the hold entry is written; ROW.HOLD first waits for what R365 asks of its page. That ROW.HOLD completes on a LOST entry
of its row under either policy, which R267 both denies and states, is the model's choice (log entry 98). -/
def Obligations.RowInstructionsComplete : Prop :=
  ∀ (s s1 s2 s3 : State) (th u u2 u3 : Thread) (f : FM) (dp : Nat) (l : BankLoc) (va : Word), AtIssue s th →
    Yields (namedRow f) s (dp, l, va) s1 → AtIssue s1 u → AtIssue s2 u2 → AtIssue s3 u3 →
    let b := (s1.subarray l.subId).buf
    let hs := s1.holdState u.row l.sub
    let policy := if f.ql = 1 then 2 else 1
    (Yields (Exec.checkHold dp va) s1 () s1 →
      (State.bufRow b = some l.rown → Completes (.rowOpen f) s th (s1.setX u.row (xnum f.t) 1) .next) ∧
      (State.bufRow b ≠ some l.rown → ((∃ r, b = .thread r) ∨ ∃ r t, b = .held r t) →
        Completes (.rowOpen f) s th (s1.setX u.row (xnum f.t) 2) .next) ∧
      (State.bufRow b ≠ some l.rown → (b = .free ∨ ∃ r, b = .opened r) → Yields (activateRow dp l (.opened l.rown)) s1 () s2 →
        Completes (.rowOpen f) s th (s2.setX u2.row (xnum f.t) 0) .next)) ∧
    (b = .free ∨ (∃ r, b = .opened r) ∨ (∃ r, b = .held r u.id) →
      ((hs = 1 ∨ hs = 2) → s1.holdRow u.row l.sub = l.rown →
        Completes (.rowHold f) s th ((s1.setHold u.row l.sub policy l.rown).setX u.row (xnum f.t) 2) .next) ∧
      (¬ ((hs = 1 ∨ hs = 2) ∧ s1.holdRow u.row l.sub = l.rown) → State.bufRow b = some l.rown →
        Yields (holdPage dp l) s1 () s3 → u3.row = u.row →
        Completes (.rowHold f) s th ((((s3.setBuf l.subId (.held l.rown u.id)).unclaim l.subId (u.id + 1)).setX u.row (xnum f.t) 1).setHold
          u.row l.sub policy l.rown) .next) ∧
      (¬ ((hs = 1 ∨ hs = 2) ∧ s1.holdRow u.row l.sub = l.rown) → State.bufRow b ≠ some l.rown →
        Yields (holdPage dp l) s1 () s3 → Yields (activateRow dp l (.held l.rown u.id)) s3 () s2 → u2.row = u.row →
        Completes (.rowHold f) s th ((s2.setX u.row (xnum f.t) 0).setHold u.row l.sub policy l.rown) .next)) ∧
    (hs ≠ 0 → s1.holdRow u.row l.sub = l.rown → Completes (.rowRel f) s th
      (((if hs = 3 then s1 else s1.setBuf l.subId (.opened l.rown)).setHold u.row l.sub 0 0).setX u.row (xnum f.t) (.ofNat 64 hs)) .next) ∧
    (hs = 0 ∨ s1.holdRow u.row l.sub ≠ l.rown → Completes (.rowRel f) s th (s1.setX u.row (xnum f.t) 0) .next)

/-- R276, R278, R282, R331: TX.BEGIN opens a group or says why it does not, TX.COMMIT commits one that is not doomed, TX.ABORT discards
one, and the SAFEPT forms mark in-memory work and close a row whose pre-emption was deferred, but not in an exchange of its domain (R331):
after SAFEPT.end nothing is deferred by R282, and the scheduler decides such a close again once the exchange has ended (log entry 102, the
model's choice). That TX.COMMIT re-binds a hold whatever the regulator grants is the model's choice too (log entry 80). -/
def Obligations.GroupAndSafePointInstructionsComplete : Prop :=
  ∀ (s : State) (th : Thread) (f : FS), AtIssue s th →
    let other := s.threads.any fun t => t.exec == .bank && t.place == th.place && t.id != th.id && s.inGroup t.row
    let point : Flow := if th.deferred.isSome && ! s.exchangeHolds th then .close 2 else .next
    (s.inGroup th.row = true → Completes (.txBegin f) s th (s.setX th.row (xnum f.d) 2) .next) ∧
    (s.inGroup th.row = false → other = true → Completes (.txBegin f) s th (s.setX th.row (xnum f.d) 1) .next) ∧
    (s.inGroup th.row = false → other = false → Completes (.txBegin f) s th
      ((s.pokeWord (th.row + 0x7E0) (setField (setField (s.bstat th.row) 0 2 1) 8 16 0)).setX th.row (xnum f.d)
        (.ofNat 64 (2 ^ 63 + availWord th.place))) .next) ∧
    (th.sb = [] → s.inGroup th.row = false → Completes (.txCommit f) s th (s.setX th.row (xnum f.d) 0) .next) ∧
    (th.sb = [] → s.inGroup th.row = true → field (s.bstat th.row) 1 1 = 1 →
      Completes (.txCommit f) s th ((s.clearGroup th).setX th.row (xnum f.d) 0) .next) ∧
    (∀ u, th.sb = [] → s.inGroup th.row = true → field (s.bstat th.row) 1 1 = 0 →
      let t := ((reopenCommitted s th).commitGroup th).clearGroup th
      AtIssue t u → Completes (.txCommit f) s th (t.setX u.row (xnum f.d) 1) .next) ∧
    Completes (.txAbort f) s th (if s.inGroup th.row then s.clearGroup th else s) .next ∧
    Completes (.safeptPoint f) s th s point ∧
    Completes (.safeptBegin f) s th (s.pokeWord (th.row + 0x7E0) (setField (s.bstat th.row) 24 1 1)) .next ∧
    Completes (.safeptEnd f) s th ((s.pokeWord (th.row + 0x7E0) (setField (s.bstat th.row) 24 1 0)).updThread th.id fun t =>
      { t with deferred := none }) point

/-- R280, R281: with good operands, a move of ATTN with every page done writes the token count, and any other move takes the tokens of one
page into the state block, the last of them writing the token count. -/
def Obligations.AttentionCompletes : Prop :=
  ∀ (s : State) (th : Thread) (f : FA) (qa sa : Nat), AtIssue s th →
    let d := lineToBytes (s.getV th.row (vnum f.a))
    let qv := s.getX th.row (xnum f.b)
    let sv := s.getX th.row (xnum f.c)
    let h := 2 ^ (d.getD 12 0).toNat
    let n := leNat ((d.drop 8).take 4)
    let perPage := 512 / h
    let pages := (n + perPage - 1) / perPage
    let g := s.prog th.row
    let init := f.md = 1 ∧ g = 0
    let done (t : State) : State := (t.setX th.row (xnum f.d) (.ofNat 64 n)).setCtrl th.row 0 32 32 0
    5 ≤ (d.getD 12 0).toNat ∧ (d.getD 12 0).toNat ≤ 7 → qv.toNat % 64 = 0 → sv.toNat % 64 = 0 →
    Yields (attnOwn qv (2 * h)) s qa s → Yields (attnOwn sv (64 + 4 * h)) s sa s →
    (pages ≤ g → Completes (.attn f) s th (done (if init then s.attnWrite sa (attnInit h) else s)) .next) ∧
    (∀ (s1 s' s2 : State) (page : Nat) (va : Word) (ks vs : List Byte) (u : Thread), g < pages →
      Yields (attnPage (leWord (d.take 8)) g) s (page, va) s1 → AtIssue s2 u → u.row = th.row →
      let toks := min perPage (n - g * perPage)
      Yields (attnBytes page (2 * h * toks) va) s1 ks s' → Yields (attnBytes (page + 1024) (2 * h * toks) va) s' vs s2 →
      let kvs := (List.range toks).map fun t => (bf16s h (ks.drop (2 * h * t)), bf16s h (vs.drop (2 * h * t)))
      let fin := kvs.foldl (fun st kv => attnToken h (leNat ((d.drop 16).take 4)) (bf16s h (s.mem.bytes qa (2 * h))) kv.1 kv.2 st)
        (if init then attnInit h else s2.attnRead sa h)
      (g + 1 < pages → Completes (.attn f) s th ((s2.attnWrite sa fin).setCtrl th.row 0 32 32 (g + 1)) .again) ∧
      (g + 1 = pages → Completes (.attn f) s th (done (s2.attnWrite sa fin)) .next))

/-- R297, R298, R301, R306: H.SIG writes the signatures of an input, H.PROBE submits a probe with one region a table, H.INS and H.DEL add
their parts under the next USN, and H.USN and H.WUSN read the USN words. R304, R305, R307: H.REHASH with every unit done writes the next
bucket, a unit that was given up ends it with the bucket and bit 63 set, and H.DEDUP stores the count line and the distinct rows in
ascending order. -/
def Obligations.RetrievalInstructionsComplete : Prop :=
  (∀ (s s1 s2 s3 : State) (th th1 u : Thread) (f : FH) (h : HashCtx), AtIssue s th → AtIssue s1 th1 →
    let a := s.getX th.row (xnum f.a)
    let b := s.getX th.row (xnum f.b)
    let c := s.getX th.row (xnum f.c)
    let d := s.getX th.row (xnum f.d)
    let n := f.cnt.toNat
    a.toNat % 64 = 0 →
    (∀ xs : List Nat, b.toNat % 64 = 0 → Yields (hashDescriptor a (f.tbl.toNat + n) true) s h s2 → Yields (hashInput h b) s2 xs s1 →
      Completes (.hSig f) s th (s1.setV th1.row (vnum f.d)
        (ofLanes 16 ((List.range n).map fun j => signature h (f.tbl.toNat + j) xs))) .next) ∧
    (∀ (counter : Nat) (region : List (Nat × Nat)), th.sb = [] → d.toNat % 64 = 0 → c.toNat % 16 = 0 → (s.oneSided.filter (·.thread == th.id)).length < 16 →
      Yields (hashPages a (f.tbl.toNat + n)) s h s2 → Yields (probeTarget d (576 * n)) s2 region s3 → Yields (tableHeld a h) s3 () s3 →
      Yields (Exec.counterAddr c) s3 counter s1 →
      let o : OneSided :=
        { id := s1.nextId, kind := .probe h f.tbl.toNat ((List.range n).map (lane (s.getV th.row (vnum f.b)) 16)), thread := th.id
          asid := s1.asidOf th.row, tenant := s1.tenantOf th.row, privl := s1.privOf th.row, unit := th.ownerUnit, dst := d, src := 0
          idx := none, es := 576, n := n, counter := counter, taken := [], failed := [], wrote := [], probes := []
          idxs := [], region := region }
      Completes (.hProbe f) s th ({ s1 with oneSided := s1.oneSided ++ [o], nextId := s1.nextId + 1 }.dropNoMapping (o.owner s1)) .next) ∧
    (∀ (delete queued : Bool) (th2 : Thread) (old : Nat), th.sb = [] → Yields (hashTable a (f.tbl.toNat + n)) s h s2 → AtIssue s2 th2 →
      let parts : List HashPart := (List.range n).map fun j =>
        ⟨0, h, f.tbl.toNat + j, lane (s.getV th.row (vnum f.c)) 16 j, b.toNat % 2 ^ 32, delete, none, th2.id, s2.tenantOf th2.row⟩
      Yields (Exec.atomicAs (fun id dp => .update id dp parts) .add (wordAdd a 0x40) 8 1 0) s2 (old, queued) s1 →
      let usn := (old + 1) % 2 ^ 64
      let t : State := if queued then s1 else { s1 with parts := s1.parts ++ parts.map fun p => { p with usn := usn } }
      Completes (if delete then .hDel f else .hIns f) s th (t.setX th1.row (xnum f.d) (.ofNat 64 usn)) .next) ∧
    (∀ bs : List Byte, th.sb = [] → Yields (hashDescriptor a 0 false) s h s2 →
      Yields (readNewest (wordAdd a (if f.md = 1 then 0x48 else 0x40)) 8) s2 bs s1 →
      Completes (.hUsn f) s th (s1.setX th1.row (xnum f.d) (leWord bs)) .next) ∧
    (∀ (dp at_ : Nat) (own own' : Bool) (bs : List Byte), Yields (hashDescriptor a 0 false) s h s2 →
      Yields (Exec.plainAddr a .read 0) s2 (dp, own) s3 → Yields (Exec.plainAddr (wordAdd a 0x48) .read 0) s3 (at_, own') s3 →
      Yields (readNewest (wordAdd a 0x48) 8) s3 bs s1 → b.toNat ≤ (leWord bs).toNat → AtIssue (importApplied s1 th1.id dp b.toNat) u →
      Completes (.hWusn f) s th ((importApplied s1 th1.id dp b.toNat).setX u.row (xnum f.d) (leWord bs)) .next)) ∧
  (∀ (s s1 s2 s3 : State) (th : Thread) (f : FH), AtIssue s th →
    let a := s.getX th.row (xnum f.a)
    let b := s.getX th.row (xnum f.b)
    let d := s.getX th.row (xnum f.d)
    let n := f.cnt.toNat
    (th.sb = [] → th.split = none → n ≤ s.prog th.row → Completes (.hRehash f) s th
      ((s.setX th.row (xnum f.d) (wordAdd b n)).setCtrl th.row 0 32 32 0) .next) ∧
    (∀ sp : Split, th.sb = [] → th.split = some sp → sp.stage = 4 → sp.failed = none → sp.short = true →
      Completes (.hRehash f) s th (((s.updThread th.id fun t => { t with split := none }).setX th.row (xnum f.d)
        (.ofNat 64 (2 ^ 63 + sp.bucket))).setCtrl th.row 0 32 32 0) .next) ∧
    (∀ (bs : List Byte) (m : Nat) (ws : List Nat), a.toNat % 64 = 0 → d.toNat % 64 = 0 → Yields (dedupLines a n) s bs s1 →
      let rows := dedupRows ((List.range n).flatMap fun j => regionEntries (bs.drop (576 * j)))
      let cap := min b.toNat 4096 / 32 * 32
      m = min rows.length cap →
      ws = (List.range ((m + 31) / 32 * 32)).map (fun k => match (rows.take m)[k]? with
        | some (r, p) => if f.md = 1 then r + p * 2 ^ 24 else r
        | none => 0x80000000) →
      Yields (Exec.store d (leBytes 4 m ++ leBytes 60 (decide (cap < rows.length)).toNat) .plain false) s1 () s2 →
      Yields (storeEntries d ws) s2 () s3 → Completes (.hDedup f) s th s3 .next))

/-- R79 to R82, R314, R315: SYN.BIND gives an object its lines at their present versions, SYN.ACQ waits for the sequence and takes the
published versions into the view, and SYN.REL, with no store of its lines left, raises the sequence and publishes. R79 gives the home of
an object that a T-thread or a B-thread binds; that the home of one that a service core binds is the core itself is the model's choice
(log entry 85). -/
def Obligations.SyncObjectInstructionsComplete : Prop :=
  ∀ (s s1 s2 : State) (th th2 u : Thread) (f : FA) (g : FS) (o : Nat), AtIssue s th →
    (let a := s.getX th.row (xnum f.a)
     let n := s.getX th.row (xnum f.b)
     let x := s.syncObj (s.tenantOf th.row) o
     Yields (syncName a) s o s →
     (State.inScope th x = false → Faults (.synAcq f) s th .scopemiss 0 [] ∧ Faults (.synRel f) s th .scopemiss 0 []) ∧
     (State.inScope th x = true →
       (x.seq.toNat < n.toNat → Stalls (.synAcq f) s th 4 0 (.seq o n)) ∧
       (n.toNat ≤ x.seq.toNat → AtIssue (x.pub.foldl (fun s p => s.advanceView th.id p.1 p.2) s) u →
         Completes (.synAcq f) s th ((x.pub.foldl (fun s p => s.advanceView th.id p.1 p.2) s).setX u.row (xnum f.d) x.seq) .next) ∧
       (s.linesDone th x.bnd = true → Completes (.synRel f) s th
         ((s.setSync (s.tenantOf th.row) o { x with seq := x.seq + 1, pub := x.bnd.map fun l => (l, s.verOf l) }).setX th.row (xnum f.d)
           (x.seq + 1)) .next) ∧
       (s.linesDone th x.bnd = false → Stalls (.synRel f) s th 0xC 0 (.sbClear x.bnd)))) ∧
    (let a := s.getX th.row (xnum g.a)
     let b := s.getX th.row (xnum g.b)
     let scope := g.sel.toNat % 8
     ∀ (ranges : List (Word × Nat)) (lines : List Nat), b.toNat % 16 = 0 → Yields (syncName a) s o s →
       ¬ (th.exec = .bank ∧ scope < 2) → AtIssue s2 th2 →
       Yields ((List.range (g.sel.toNat / 8 + 1)).mapM fun i => bindRange (wordAdd b (16 * i))) s ranges s1 →
       Yields ((ranges.flatMap fun r => (List.range (r.2 / 64)).map fun i => wordAdd r.1 (64 * i)).mapM bindLine) s1 lines s2 →
       let bnd := lines.eraseDups
       Completes (.synBind g) s th (s2.setSync (s2.tenantOf th.row) o
         { seq := 0, bnd := bnd, pub := bnd.map fun l => (l, s2.verOf l), scope := scope
           homeKind := (match th.exec with | .bank => 1 | .service => 3 | _ => 0), home := if th.exec = .bank then th.place / 16384 else th.place }) .next)

/-- R328 to R334, R396: binding and leaving a domain, a step that every member has registered for, votes, and aborts, which any row of the
tenant makes and polls for. That a bind of a bound domain answers in the state after its descriptor is read, and that the pages of all
members are awaited before any member is looked at, is the model's choice (log entry 38). -/
def Obligations.DomainInstructionsComplete : Prop :=
  ∀ (s s1 : State) (th : Thread) (f : FA) (g : FS) (d : Domain) (m : Nat), AtIssue s th →
    (let a := s.getX th.row (xnum f.a)
     let b := s.getX th.row (xnum f.b)
     Yields (boundDomain a) s d s →
     (Yields (memberOf d) s m s →
       Completes (.synVote f) s th (s.setDomain { d with votes := setAt d.votes m (some (b.toNat % d.patterns)) }) .next) ∧
     (d.abort = false → Completes (.synPollab f) s th s .next) ∧
     (d.abort = true → Faults (.synPollab f) s th .aborted 0 []) ∧
     Completes (.synAbort f) s th (s.setDomain { d with abort := f.md != 1 }) .next) ∧
    (let a := s.getX th.row (xnum g.a)
     Yields (boundDomain a) s d s →
     (s.atDomain th d.name = true → Completes (.synDomUnbind g) s th
       ((dropExchanges { s with domains := s.domains.filter (·.name != d.name) } d.name).setX th.row (xnum g.d) 0) .next) ∧
     (Yields (memberOf d) s m s →
       let k := d.counters.getD m 0
       let e := if d.registered.getD m false then d else d.register m k s.now (State.writtenLines th)
       (s.storesDone th = false → Stalls (.synStep g) s th 0xC 0 .sbAndQueues) ∧
       (s.storesDone th = true → d.abort = true → Faults (.synStep g) s th .aborted 0 []) ∧
       (∀ u, s.storesDone th = true → d.abort = false → e.allAt k = true →
         let p := (assoc e.patternOf k).getD e.pattern
         let t := e.regLines.foldl (fun s l => if l.1 = k then s.viewNewest th.id l.2 else s) s
         let t := (t.setDomain { e with
           counters := setAt e.counters m (k + 1), registered := setAt e.registered m false
           buffers := e.buffers.filter fun b => ! (b.1.1 == m && b.1.2.1 + 1 == k) }).updThread th.id fun t =>
             { t with exchange := some (e.name, k, p) }
         AtIssue t u → Completes (.synStep g) s th (t.setX u.row (xnum g.d) (.ofNat 64 (k + p * 2 ^ 56))) .next))) ∧
    (∀ (name : Nat) (bs : List Byte) (u : Thread), Yields (domName (s.getX th.row (xnum g.a))) s name s → s.atDomain th name = true →
      (s.getX th.row (xnum g.b)).toNat % 64 = 0 → Yields (Exec.load (s.getX th.row (xnum g.b)) 64) s bs s1 →
      let w := (List.range 8).map fun k => leWord ((bs.drop (8 * k)).take 8)
      let shape := w.getD 0 0
      let p := if field shape 0 10 = 0 then 1024 else field shape 0 10
      let slots := field shape 10 9
      let patterns := field shape 19 2 + 1
      (∀ c : Word, ((s.domain? name).isSome = true ∧ c = 1 ∨ s.domain? name = none ∧ domFieldsOk (domLevel name) w = false ∧ c = 2) →
        AtIssue (s1.dropAnswers th.id) u → Completes (.synDomBind g) s th ((s1.dropAnswers th.id).setX u.row (xnum g.d) c) .next) ∧
      (∀ (s2 s3 s4 : State) (rows sched : List Word) (found : List (Option Nat)) (pool : Nat), s.domain? name = none →
        domFieldsOk (domLevel name) w = true → Yields (wordTable (w.getD 1 0) p) s1 rows s2 →
        Yields (wordTable (w.getD 2 0) (patterns * slots)) s2 sched s3 → Yields (awaitMembers rows) s3 () s3 →
        Yields (rows.mapM fun r => domMember name r) s3 found s4 → (found.filterMap id).length = p →
        (found.filterMap id).eraseDups.length = p → scheduleOk p slots patterns sched = true → s4.domPool name slots = some pool →
        let e : Domain :=
          { name := name, tenant := s4.tenantOf th.row, members := found.filterMap id, slots := slots, patterns := patterns
            width := field shape 32 16, sched := sched.map fun e => (field e 0 10, field e 10 10)
            counters := List.replicate p 1, registered := List.replicate p false, votes := List.replicate p none
            sealed := List.replicate p none, pattern := 0, patternOf := [], abort := false, begun := [], regLines := []
            buffers := [], pool := if slots = 0 then 641 else pool }
        let t := (dropExchanges { s4 with domains := s4.domains ++ [e] } name).dropAnswers th.id
        AtIssue t u → Completes (.synDomBind g) s th (t.setX u.row (xnum g.d) 0) .next))

/-- R103, R331, R332, R335, R336: SYN.SEND in its slot leaves the line for the destination, SYN.RECV after it takes the line, and SYN.QCFG
creates and destroys queues within the pool. R103 gives WKIND 9, with the domain in WARG, for a wait on a barrier domain; that SYN.SEND
and SYN.RECV wait for their slots with it, WARG being the domain modulo 64, is the model's reading, as R332 names no wait kind (log entry
37, DEDUCED). -/
def Obligations.ExchangeAndQueueInstructionsComplete : Prop :=
  ∀ (s : State) (th : Thread) (f : FI) (g : FS) (d : Domain) (m k owner dest : Nat), AtIssue s th →
    (let i := f.imm.toNat % 256
     Yields (slotEntry i) s (d, m, k, owner, dest) s →
     (owner = m → d.slotBegun k i s.now = true → d.slotEnded k i s.now = false → Completes (.synSend f) s th
       (s.setDomain { d with buffers := ((dest, k, i), s.getV th.row (vnum f.a)) :: d.buffers.filter (·.1 != (dest, k, i)) }) .next) ∧
     (owner ≠ m → Faults (.synSend f) s th .slotowner 0 []) ∧
     (owner = m → d.slotEnded k i s.now = true → Faults (.synSend f) s th .slotmiss 0 []) ∧
     (owner = m → d.slotBegun k i s.now = false → d.slotEnded k i s.now = false →
       Stalls (.synSend f) s th 9 (d.name % 64) (.slot d.name k i false)) ∧
     (∀ b, dest = m → d.slotEnded k i s.now = true → d.buffers.find? (·.1 == (m, k, i)) = some b → Completes (.synRecv f) s th
       ((s.setDomain { d with buffers := d.buffers.filter (·.1 != (m, k, i)) }).setV th.row (vnum f.d) b.2) .next) ∧
     (dest ≠ m → Faults (.synRecv f) s th .slotowner 0 []) ∧
     (dest = m → d.slotEnded k i s.now = false → Stalls (.synRecv f) s th 9 (d.name % 64) (.slot d.name k i true)) ∧
     (dest = m → d.slotEnded k i s.now = true → d.buffers.find? (·.1 == (m, k, i)) = none → Faults (.synRecv f) s th .datapoison 0 [])) ∧
    (let a := s.getX th.row (xnum g.a)
     let c := field a 8 10
     let n := field a 0 8
     let cap := (s.getX th.row (xnum g.b)).toNat
     let wrote (t : State) (w : Word) : State := t.setX th.row (xnum g.d) w
     (640 ≤ c → Faults (.synQcfgCreate g) s th .protect 0 [] ∧ Faults (.synQcfgDel g) s th .protect 0 []) ∧
     (c < 640 →
       (∀ q, s.queue? c n = some q → Completes (.synQcfgCreate g) s th (wrote s 1) .next ∧
         Completes (.synQcfgDel g) s th (if q.tenant ≠ s.tenantOf th.row then wrote s 1
           else wrote { s with queues := s.queues.filter fun u => ! (u.cluster == c && u.num == n) } 0) .next) ∧
       (s.queue? c n = none → Completes (.synQcfgDel g) s th (wrote s 1) .next ∧
         (cap % 16 ≠ 0 ∨ cap < 16 ∨ 1024 < cap → Completes (.synQcfgCreate g) s th (wrote s 2) .next) ∧
         (cap % 16 = 0 → 16 ≤ cap → cap ≤ 1024 → 8192 < s.poolUsed c + cap → Completes (.synQcfgCreate g) s th (wrote s 3) .next) ∧
         (cap % 16 = 0 → 16 ≤ cap → cap ≤ 1024 → s.poolUsed c + cap ≤ 8192 → Completes (.synQcfgCreate g) s th
           (wrote { s with queues := s.queues ++ [⟨c, n, s.tenantOf th.row, cap, []⟩] } 0) .next))))

/-- R84, R317 to R320, R325: the instructions that append a command or a marker to a context of their tenant write its number once the
store buffer is empty and there is room; an operand that is not aligned faults; a context that is not the tenant's faults with PROTECT.
R320: a unit of CE.GATH or CE.SCAT takes one line of the index list; the first one reads the descriptor and takes a place in the context's
queue, and the last one appends the command and writes its number. That the later units act on the descriptor as the first one read it is
the model's reading (log entry 41). -/
def Obligations.EngineSubmissionsComplete : Prop :=
  (∀ (s : State) (th : Thread) (f : FA) (k : Nat), AtIssue s th →
    let a := s.getX th.row (xnum f.a)
    let b := s.getX th.row (xnum f.b)
    let c := s.getX th.row (xnum f.c)
    let d := xnum f.d
    (NamesContext s th c k → th.sb = [] → b.toNat % 64 = 0 →
      AppendsCommand (.ceFill f) s th k (bareCommand .fill a b (field c 16 32)) [] d ∧
      (a.toNat % 64 = 0 → AppendsCommand (.ceCopy f) s th k (bareCommand .copy a b (field c 16 32)) [] d ∧
        AppendsCommand (.decStrm f) s th k (bareCommand .decStrm a b (field c 16 32)) [] d)) ∧
    (b.toNat % 64 ≠ 0 → Faults (.ceFill f) s th .align b [] ∧ Faults (.ceCopy f) s th .align b [] ∧ Faults (.decStrm f) s th .align b []) ∧
    (b.toNat % 64 = 0 → a.toNat % 64 ≠ 0 → Faults (.ceCopy f) s th .align a [] ∧ Faults (.decStrm f) s th .align a []) ∧
    (a.toNat % 64 ≠ 0 → Faults (.decLoad f) s th .align a [] ∧ Faults (.ceGath f) s th .align a [] ∧
      Faults (.ceScat f) s th .align a []) ∧
    ((∀ k, ¬ NamesContext s th c k) → b.toNat % 64 = 0 → Faults (.ceFill f) s th .protect 0 [] ∧
      (a.toNat % 64 = 0 → Faults (.ceCopy f) s th .protect 0 [] ∧ Faults (.decStrm f) s th .protect 0 [])) ∧
    ((∀ k, ¬ NamesContext s th b k) → a.toNat % 64 = 0 → Faults (.decLoad f) s th .protect 0 [] ∧ Faults (.ceGath f) s th .protect 0 [] ∧
      Faults (.ceScat f) s th .protect 0 []) ∧
    (NamesContext s th b k → th.sb = [] → a.toNat % 64 = 0 → AppendsCommand (.decLoad f) s th k
      { bareCommand .decLoad a 0 0 with w := 2 ^ (f.md.toNat % 4), k := 2 ^ (f.md.toNat / 4 % 4 + 1) } [] d) ∧
    (NamesContext s th a k → s.storesDone th = true → AppendsCommand (.synTlMark f) s th k (bareCommand .marker 0 0 0)
      ((State.writtenLines th).map fun l => (l, s.verOf l)) d) ∧
    (NamesContext s th a k → s.storesDone th = false → Stalls (.synTlMark f) s th 0xC 0 .sbAndQueues) ∧
    ((∀ k, ¬ NamesContext s th a k) → Faults (.synTlMark f) s th .protect 0 [])) ∧
  (∀ (s s1 s2 : State) (th u u2 : Thread) (f : FA) (k : Nat) (ls : List Line) (line : List Byte), AtIssue s th → AtIssue s2 u2 →
    let a := s.getX th.row (xnum f.a)
    let d := lineToBytes (ls.headD 0)
    let m := leNat ((d.drop 24).take 4)
    let all := ls ++ [leLine line]
    a.toNat % 64 = 0 → NamesContext s th (s.getX th.row (xnum f.b)) k → th.sb = [] →
    (th.keptLines k (s.prog th.row) = some ls ∧ Yields (gatherChecks d) s () s ∧ s.contextGated k = false ∧ s1 = s ∨
      ∃ bs, th.keptLines k (s.prog th.row) = none ∧ ls = [leLine bs] ∧ Yields (Exec.load a 64) s bs s1 ∧ Yields (gatherChecks bs) s1 () s1 ∧
        AtIssue s1 u ∧ s1.contextGated k = false ∧ s1.queueLoad k u.id < 64) →
    Yields (Exec.load (wordAdd (leWord ((d.drop 16).take 8)) (64 * (ls.length - 1))) 64) s1 line s2 →
    (ls.length < (4 * m + 63) / 64 →
      let t := (s2.updThread u2.id fun t => { t with reserved := some (k, all) }).setCtrl u2.row 0 32 32 ls.length
      Completes (.ceGath f) s th t .again ∧ Completes (.ceScat f) s th t .again) ∧
    ((4 * m + 63) / 64 ≤ ls.length →
      let idx := (List.range m).map fun i => lane (all.getD (i / 16 + 1) 0) 32 (i % 16)
      let c (kind : EngKind) : EngCmd := { bareCommand kind (leWord (d.take 8)) (leWord ((d.drop 8).take 8)) m with
        es := elemBytes (d.getD 28 0).toNat, idx := idx }
      let t (kind : EngKind) : State := ((commandAppended s2 u2 k (c kind) []).updThread u2.id fun t =>
        { t with reserved := none }).setCtrl u2.row 0 32 32 0
      let num : Word := .ofNat 64 (((s2.ctx k).sub + 1) % 2 ^ 64)
      ∀ v, (AtIssue (t .gath) v → Completes (.ceGath f) s th ((t .gath).setX v.row (xnum f.d) num) .next) ∧
        (AtIssue (t .scat) v → Completes (.ceScat f) s th ((t .scat).setX v.row (xnum f.d) num) .next)))

/-- R84, R317, R318, R323, R324: reading, configuring, retrying, clearing and cancelling a context of the tenant, and waiting for its
timeline. -/
def Obligations.ContextInstructionsComplete : Prop :=
  ∀ (s s1 : State) (th u : Thread) (f : FA) (g : FS) (k : Nat), AtIssue s th →
    (NamesContext s th (s.getX th.row (xnum f.a)) k →
      let x := s.ctx k
      let n := (s.getX th.row (xnum f.b)).toNat
      let wrote (w : Word) : State := s.setX th.row (xnum f.d) w
      Completes (.synTlTl f) s th (wrote (.ofNat 64 x.tl)) .next ∧
      Completes (.synTlSub f) s th (wrote (.ofNat 64 x.sub)) .next ∧
      Completes (.synTlFl f) s th (wrote (x.flags k)) .next ∧
      (n ≤ x.tl → AtIssue (importWrote s th.id x n) u →
        Completes (.synWtl f) s th ((importWrote s th.id x n).setX u.row (xnum f.d) (.ofNat 64 x.tl)) .next) ∧
      (x.tl < n → f.md = 1 → x.halt = true → Completes (.synWtl f) s th (wrote 0) .next) ∧
      (x.tl < n → f.md ≠ 1 ∨ x.halt = false →
        Stalls (.synWtl f) s th 3 k (.timeline k (s.getX th.row (xnum f.b)) (f.md == 1)))) ∧
    (NamesContext s th (s.getX th.row (xnum g.a)) k →
      let x := s.ctx k
      let b := s.getX th.row (xnum g.b)
      let wrote (t : State) (w : Word) : State := t.setX th.row (xnum g.d) w
      Completes (.ceCtxRead g) s th (wrote s x.ring) .next ∧
      Completes (.ceCtxClr g) s th (wrote (s.setCtx k { x with err := false }) ({ x with err := false }.flags k)) .next ∧
      (let y := x.cancel b.toNat
       let t := match x.cq.head? with
         | some c => if y.cq.head?.map EngCmd.num = some c.num then s.setCtx k y
           else ((s.setCtx k y).dropAccesses (State.ofContext k) (ctxParty k)).dropNoMapping c.owner
         | none => s.setCtx k y
       AtIssue t u → Completes (.ceCancel g) s th (t.setX u.row (xnum g.d) (.ofNat 64 y.tl)) .next) ∧
      (∀ (dp : Nat) (own : Bool), b.toNat % 64 = 0 → Yields (Exec.plainAddr b .read 0) s (dp, own) s1 → s1.inTile dp = true → AtIssue s1 u →
        let y := { s1.ctx k with rbase := b.toNat, rsz := g.imm.toNat, handbacks := 0 }
        Completes (.ceCtxRing g) s th ((s1.setCtx k y).setX u.row (xnum g.d) y.ring) .next) ∧
      (let y := if ! x.halt then x else
        { x with
          halt := false, haltAt := 0
          cq := match x.cq with
            | [] => []
            | c :: r => { c with
                taken := c.taken.filter fun i => decide (i < x.haltAt)
                loaded := c.loaded.filter fun l => decide (l.1 < x.haltAt) } :: r }
       let t := match y.cq.head? with
         | some c => (s.setCtx k y).dropNoMapping c.owner
         | none => s.setCtx k y
       AtIssue t u → Completes (.ceCtxRetry g) s th (t.setX u.row (xnum g.d) (y.flags k)) .next))

/-- R352, R353, R361: a control register that exists at the issuer's privilege, with an index in its range, is read, or written once the
store buffer is empty. That a register of a tenant number that no tenant has reads zero, and that a write of it changes nothing, is the
model's choice (log entry 42). A write of ALLOT makes every synchronisation object of the tenant fresh, as R314 says of an allotment; that
the contexts which the write keeps go on, and only those that it adds are fresh, is the model's choice (log entry 44). -/
def Obligations.ControlRegisterAccessesComplete : Prop :=
  ∀ (s : State) (th : Thread) (f : FS) (c : CrInfo) (tenant i : Nat), AtIssue s th →
    let a := s.getX th.row (xnum f.a)
    let v := s.getX th.row (xnum f.b)
    let writes (ins : Instr) (cr : Nat) : Prop :=
      Yields (crCheck cr a true) s (c, tenant, i) s → th.sb = [] →
      (cr = 0x33 → ∃ t, s.tenant? tenant = some t ∧ t.asidFirst ≤ field v 0 10 ∧ field v 0 10 < t.asidFirst + t.asidCount) →
      Completes ins s th (controlRegisterWritten s c cr tenant i v) .next
    (Yields (crCheck f.sel.toNat a false) s (c, tenant, i) s → Completes (.sysRdcr f) s th (s.setX th.row (xnum f.d)
      (if c.perTenant then ((s.tenant? tenant).map fun t => t.readCr f.sel.toNat i).getD 0 else s.readCr f.sel.toNat i)) .next) ∧
    (f.sel.toNat ≠ 0x80 → writes (.sysWrcr f) f.sel.toNat) ∧ writes (.clhaltWrite f) 0xA0 ∧ writes (.wacntWrite f) 0x62

/-- R355: a routine is loaded from its image, or refused with status 2, and the empty command removes it. That the image is the longest
run of good lines from its base, up to 16, is the model's choice (log entry 31). -/
def Obligations.RoutineTableWritesComplete : Prop :=
  ∀ (s s1 : State) (th : Thread) (f : FS) (c : CrInfo) (tenant k : Nat) (t : Tenant), AtIssue s th → th.sb = [] →
    let v := s.getX th.row (xnum f.b)
    let set (s : State) (t : Tenant) (r : Routine) : State := s.setTenant { t with routines := assocSet t.routines k r }
    Yields (crCheck 0x80 (s.getX th.row (xnum f.a)) true) s (c, tenant, k) s →
    let logged (v : Word) : State := if v &&& ~~~c.mask ≠ 0 then s.logRec .reservedWrite [v] else s
    (∀ body : List Line, s1.tenant? tenant = some t →
      Yields (imageLines (.ofNat 64 (field ((v ||| 1) &&& c.mask) 6 50 * 64)) 16 0) (logged (v ||| 1)) body s1 →
      let ok := ! body.isEmpty && body.all fun l => (List.range 5).all fun i => routineWordOk (slotWord l i)
      let r : Routine := if ok then ⟨1, field ((assoc t.rtabb k).getD 0) 0 12 + 1, body⟩ else ⟨2, 0, []⟩
      Completes (.rtabLoad f) s th (set s1 t r) .next ∧
      (f.sel.toNat = 0x80 → field v 0 1 = 1 → Completes (.sysWrcr f) s th (set s1 t r) .next)) ∧
    (s.tenant? tenant = some t → Completes (.rtabEmpty f) s th (set s t ⟨0, 0, []⟩) .next ∧
      (f.sel.toNat = 0x80 → field v 0 1 = 0 → Completes (.sysWrcr f) s th (set (logged v) t ⟨0, 0, []⟩) .next))

/-- R357, R359: at their privileges, SYS.TLBWR writes a good translation into the TLB of the issuer's unit and SYS.TLBINV sends an
invalidation to every receiver; below them each faults with PRIV. That the checks are made before the wait is the model's choice (log
entry 43). -/
def Obligations.TranslationInstructionsComplete : Prop :=
  ∀ (s s1 : State) (th : Thread) (f : FS), AtIssue s th →
    let a := s.getX th.row (xnum f.a)
    let b := s.getX th.row (xnum f.b)
    let d := s.getX th.row (xnum f.d)
    let p := s.privOf th.row
    let size := field a 0 2
    let va := field a 16 40 * 2 ^ 16
    (p ≠ 2 → Faults (.sysTlbwr f) s th .priv 0 []) ∧ (p = 0 → Faults (.sysTlbinv f) s th .priv 0 []) ∧
    (∀ u, p = 2 → size ≠ 3 → field a 2 14 = 0 → field a 56 8 = 0 → leafOk b size = true → va % pageSize size = 0 → th.unit = some u →
      Completes (.sysTlbwr f) s th (s.fillTlb ⟨u, f.sel.toNat % 2 ^ 10, va, size, b⟩) .next) ∧
    (∀ counter : Nat, 1 ≤ p → d.toNat % 16 = 0 → th.sb = [] → Yields (Exec.counterAddr d) s counter s1 →
      let own : List Nat := ((s.tenant? (s.tenantOf th.row)).map fun t => (List.range t.asidCount).map fun i => t.asidFirst + i).getD []
      p = 2 ∨ 2 ^ 15 ≤ f.sel.toNat ∨ f.sel.toNat % 2 ^ 10 ∈ own →
      Completes (.sysTlbinv f) s th ({ s1 with nextId := s1.nextId + 1 }.invalidate
        { id := s1.nextId, tenant := s.tenantOf th.row, asids := if 2 ^ 15 ≤ f.sel.toNat then own else [f.sel.toNat % 2 ^ 10]
          start := a.toNat, len := b.toNat, counter := counter, waiting := List.range 664, frames := [], entries := [], sent := s1.now }) .next)

/-- R354, R371: SYS.TRAP faults with SYSTRAP and its operand, SYS.LOG writes at most one record a microsecond and tenant, SYS.MPOST posts
into a free slot or says that it could not, and SYS.SCRUB begins a scrub or says why not. -/
def Obligations.ServiceInstructionsComplete : Prop :=
  ∀ (s s1 : State) (th u : Thread) (f : FS), AtIssue s th →
    let a := s.getX th.row (xnum f.a)
    let b := s.getX th.row (xnum f.b)
    let tn := s.tenantOf th.row
    let v := s.getV th.row (vnum f.a)
    let us := s.now / 1000
    let minusOne (i : Instr) : Prop := ∀ v, AtIssue s1 v → Completes i s th (s1.setX v.row (xnum f.d) (-1)) .next
    Faults (.sysTrap f) s th .systrap a [] ∧
    (∀ t, s.tenant? tn = some t →
      (t.lastLogUs = some us → Completes (.sysLog f) s th (s.setTenant { t with logDropped := t.logDropped + 1 }) .next) ∧
      (t.lastLogUs ≠ some us → Completes (.sysLog f) s th ((s.logRec .sysLog [setField (s.rowVa th) 56 8 f.sel.toNat, a, b,
        .ofNat 64 (s.now % 2 ^ 48 + tn % 64 * 2 ^ 48 + min 1023 t.logDropped * 2 ^ 54)]).setTenant
          { t with logDropped := 0, lastLogUs := some us }) .next) ∧
      (Yields (reachRing t t.hring t.hringNext) s () s1 →
        (∀ dp, s1.ringSlot t t.hring t.hringNext = some dp → s1.slotFree dp = true →
          let w := ((s1.setTenant { t with hringNext := t.hringNext + 1 }).putSlot dp v).raise tn (b.toNat % t.vecCount)
          AtIssue w u → Completes (.sysMpostHost f) s th (w.setX u.row (xnum f.d) (.ofNat 64 (t.hringNext % 2 ^ ringLog t.hring))) .next) ∧
        (s1.ringSlot t t.hring t.hringNext = none → minusOne (.sysMpostHost f)) ∧
        (∀ dp, s1.ringSlot t t.hring t.hringNext = some dp → s1.slotFree dp = false → minusOne (.sysMpostHost f))) ∧
      (Yields (reachRing t t.mbox t.mboxNext) s () s1 →
        (∀ dp, s1.ringSlot t t.mbox t.mboxNext = some dp → t.posts = [] → s1.slotFree dp = true →
          let w := (s1.setTenant { t with mboxNext := t.mboxNext + 1 }).putSlot dp v
          AtIssue w u → Completes (.sysMpostMbox f) s th (w.setX u.row (xnum f.d) (.ofNat 64 (t.mboxNext % 2 ^ ringLog t.mbox))) .next) ∧
        (s1.ringSlot t t.mbox t.mboxNext = none → minusOne (.sysMpostMbox f)) ∧
        (∀ dp, s1.ringSlot t t.mbox t.mboxNext = some dp → t.posts ≠ [] ∨ s1.slotFree dp = false → minusOne (.sysMpostMbox f)))) ∧
    (s.privOf th.row ≠ 2 → Faults (.sysScrub f) s th .priv 0 []) ∧
    (∀ (dp : Nat) (own : Bool), s.privOf th.row = 2 → b.toNat % 512 = 0 → Yields (Exec.plainAddr b .write 1) s (dp, own) s1 →
      let r := s1.startScrub (field a 0 6) dp
      AtIssue r.1 u → Completes (.sysScrub f) s th (r.1.setX u.row (xnum f.d) (.ofNat 64 r.2)) .next)

/-- R22, R24 to R28, R38: power, reset, the stages of the boot and the commands of firmware. The model's choices: that Activate FW at
READY writes the flash and restarts nothing (log entry 61), what the mailbox answers beyond success, a free value (log entry 73), and what
of the flash, the rollback counter, the log and the hub time survives a restart (log entry 62). -/
def Obligations.BootEventsTakeEffect : Prop :=
  ∀ s : State,
    (s.boot.powered = false → Does .powerGood s (s.restart true)) ∧ Does .powerLoss s (s.restart false) ∧
    (LinkUp s → Does .perst s (s.restart true)) ∧
    (∀ b, (s.restart b).boot = { Boot.reset with powered := b, flash := s.boot.flash, rollback := s.boot.rollback } ∧
      (s.restart b).mem = State.reset.mem ∧ (s.restart b).threads = [] ∧ (s.restart b).tenants = State.reset.tenants ∧
      (s.restart b).islands = State.reset.islands ∧ (s.restart b).ports = State.reset.ports) ∧
    (s.inp = .stage .done → s.boot.powered = true → s.boot.recov = false → s.boot.thermTrip = false →
      (s.boot.stage = 0 → Does .bootStageDone s { s with boot := { s.boot with stage := 1, verified := [] } }) ∧
      (∀ img, s.boot.stage = 1 → s.boot.flash[0]? = some img →
        (s.verifyImage 0 img = 0 → Does .bootStageDone s
          { s with boot := { s.boot with stage := 2, verified := s.boot.verified ++ [img.version] } }) ∧
        (s.verifyImage 0 img ≠ 0 → Does .bootStageDone s (s.enterRecovery (s.verifyImage 0 img)))) ∧
      (s.boot.stage = 2 → ((s.raiseIslands [29]).verifyImages [1, 2, 3, 4]).2 = true →
        Does .bootStageDone s (((s.raiseIslands [29]).verifyImages [1, 2, 3, 4]).1.toStage 3)) ∧
      (s.boot.stage = 3 → Does .bootStageDone s
        (((s.raiseIslands ([30, 31] ++ (List.range 8).map (16 + ·))).clearStackMemory).toStage 4)) ∧
      (s.boot.stage = 4 → Does .bootStageDone s (((s.raiseIslands (List.range 16)).clearTileMemory).toStage 5)) ∧
      (s.boot.stage = 5 → ∃ r : BitVec 16, Does .bootStageDone s { s.raiseIslands [24, 25, 26, 27] with
          acl := []
          ports := s.ports.map fun p => { Port.reset p.num with st := .normal }
          boot := { s.boot with stage := 6, err := 0, memoryActive := true, rollback := r } } ∧
        s.boot.rollback.toNat ≤ r.toNat ∧ (∀ v ∈ s.boot.verified, v.toNat ≤ r.toNat) ∧ (r = s.boot.rollback ∨ r ∈ s.boot.verified)) ∧
      (s.boot.stage = 1 → s.boot.flash[0]? = none → Does .bootStageDone s (s.enterRecovery 3)) ∧
      (∀ k img, s.boot.stage = 2 → 1 ≤ k → k ≤ 4 → s.boot.flash[k]? = some img → s.verifyImage k img ≠ 0 →
        (∀ j, 1 ≤ j → j < k → ∃ m, s.boot.flash[j]? = some m ∧ s.verifyImage j m = 0) →
        ∃ t, Does .bootStageDone s t ∧ t.boot.stage = 2 ∧ t.boot.recov = true ∧ t.boot.err = s.verifyImage k img ∧
          ∀ i, t.islands[29]? = some i → i.st = 0 ∧ i.req = 0)) ∧
    (s.boot.powered = true → s.boot.recov = false → s.boot.thermTrip = false → s.boot.stage < 6 →
      (s.inp = .stage .readError → s.boot.stage = 1 ∨ s.boot.stage = 2 → Does .bootStageDone s (s.enterRecovery 3)) ∧
      (∀ err, s.inp = .stage (.fatal err) → s.boot.stage ≠ 1 → 4 ≤ err.toNat → err.toNat ≤ 6 →
        Does .bootStageDone s ({ s with boot := { s.boot with stage := 15, err := err.toNat, fatalPin := true } }.logRec .boot
          [.ofNat 64 err.toNat, 15]))) ∧
    (∀ err, (s.enterRecovery err).boot = { s.boot with recov := true, err := err } ∧
      (s.boot.stage = 1 ∨ s.boot.stage = 2 → ∀ i, (s.enterRecovery err).islands[29]? = some i → i.st = 0 ∧ i.req = 0)) ∧
    (LinkUp s →
      Does .getFwInfo s { s with mailbox := .words (Config.mailboxAnswer 0) } ∧
      Does .identify s { s with mailbox := .words (Config.mailboxAnswer 1) } ∧
      (∀ img, s.inp = .image img →
        Does .transferFw s { s with boot := { s.boot with supplied := some img }, mailbox := .success }) ∧
      (∀ slot img, s.inp = .unit slot → s.boot.supplied = some img → slot < 5 → s.verifyImage slot img = 0 →
        (s.boot.recov = true → Does .activateFw s { s with
          mailbox := .success
          boot := { s.boot with
            flash := setAt s.boot.flash slot img, supplied := none, recov := false, err := 0, stage := 1, verified := [] } }) ∧
        (s.boot.recov = false → Does .activateFw s { s with
          mailbox := .success, boot := { s.boot with flash := setAt s.boot.flash slot img, supplied := none } })) ∧
      (∀ slot, s.inp = .unit slot → s.boot.supplied = none ∨ 5 ≤ slot → Does .activateFw s { s with mailbox := .refused }) ∧
      (∀ slot img, s.inp = .unit slot → s.boot.supplied = some img → slot < 5 → s.verifyImage slot img ≠ 0 →
        Does .activateFw s ({ s with mailbox := .refused, boot := { s.boot with
          err := if s.boot.recov then s.verifyImage slot img else s.boot.err } }.logRec .boot
            [.ofNat 64 (s.verifyImage slot img), .ofNat 64 slot])))

/-- R25, R26, R88, R353, R367, R369, R371, R373, R374: before READY the mailbox is busy; at READY the host creates tenants, sets windows,
keys and fabric entries, scrubs, and reads receipts and the log; and it reads and writes memory within a line, and opens secured sessions.
That an access to an address in no window is made, and that a window that meets another is refused, is the model's choice (log entries 63
and 64); so is that a request is refused where its window lacks the R or the W bit (log entry 13, DEDUCED). What an SPDM session answers
is a free value (log entry 73). -/
def Obligations.HostEventsTakeEffect : Prop :=
  ∀ s : State,
    (LinkUp s → s.boot.stage ≠ 6 →
      Does .mailboxBusy s ({ s with mailbox := .busy }.logRec .host [.ofNat 64 s.boot.stage])) ∧
    (IsReady s →
      (∀ r, s.inp = .tenantReq r →
        (s.tenantFits r = true → Does .createTenant s
          { { s with tenants := s.tenants ++ [State.newTenant r] }.allotFresh r.tenant 0 (tenantAllot r) with mailbox := .success }) ∧
        (s.tenantFits r = false → Does .createTenant s { s with mailbox := .refused })) ∧
      (∀ n win winb wins t, s.inp = .window n win winb wins → s.tenant? n = some t → win < 64 →
        let b := winb &&& maskAt 16 32
        let z := wins &&& maskAt 0 46
        let span := State.windowSpan b z
        (∀ u ∈ s.tenants, ∀ w ∈ u.windows, ¬ (u.num = n ∧ w.1 = win) →
          State.spansMeet span.1 span.2 (State.windowSpan w.2.1 w.2.2).1 (State.windowSpan w.2.1 w.2.2).2 = false) →
        Does .setWindow s { (s.setTenant (t.setWindow win b z)).clearBankWindows n with mailbox := .success }) ∧
      (∀ n slot k t, s.inp = .key n slot k → s.tenant? n = some t → s.secured = true → t.keyFirst ≤ slot →
        slot < t.keyFirst + t.keyCount → Does .loadKey s { s with keys := assocSet s.keys slot k, mailbox := .success }) ∧
      (∀ n area nonce, s.inp = .scrub n area nonce → area % 512 = 0 → s.anyWindow area = false →
        s.region area = .dram ∨ s.inTile area = true →
        ((s.startScrub n area).2 = 0 → Does .scrubTenant s
          { (s.startScrub n area).1.hubPoke (area + 0xC0) (leBytes 32 nonce.toNat) with mailbox := .words [0] }) ∧
        ((s.startScrub n area).2 ≠ 0 → Does .scrubTenant s { s with mailbox := .words [.ofNat 64 (s.startScrub n area).2] })) ∧
      (∀ n b, s.inp = .unit n → assoc s.receipts n = some b → Does .getReceipt s { s with mailbox := .bytes b }) ∧
      (∀ i v, (s.inp = .fabricEntry true i v → i < 4096 → Does .setAclSetRoute s
          { s with route := assocSet s.route i (v &&& (maskAt 0 7 ||| maskAt 8 7 ||| maskAt 15 1)), mailbox := .success }) ∧
        (s.inp = .fabricEntry false i v → i < 256 → Does .setAclSetRoute s
          { s with acl := assocSet s.acl i (v &&& maskAt 0 39), mailbox := .success })) ∧
      (∀ n, s.inp = .unit n → Does .getLog s { s with mailbox := .records (s.log.drop n) }) ∧
      (∀ a n ide t, s.inp = .memRead a n ide → 1 ≤ n → a % 64 + n ≤ 64 → a + n ≤ 0x018000000000 → s.hostReach a n = .ok t →
        t.boot = s.boot →
        let w := t.countWindow (t.windowTenant a) a false
        (∀ tn, t.hostBlocked a .read ide = some tn → Does .cxlMemRead s ((t.hostCompletion [] true).hostViolation tn a)) ∧
        (t.hostBlocked a .read ide = none →
          (∀ u, w.openAt? a = some u → Does .cxlMemRead s (w.enqueue u.id (.hostRead a n))) ∧
          (w.openAt? a = none → w.poisoned a n = true → Does .cxlMemRead s { w with hostData := w.hostData ++ [([], true)] }) ∧
          (w.openAt? a = none → w.poisoned a n = false →
            Does .cxlMemRead s { w with hostData := w.hostData ++ [(w.newest a n, false)] }))) ∧
      (∀ a n bs, s.inp = .registerRead a n → inHandleSlots a = false → s.controlBytes a n = some bs →
        Does .cxlMemRead s { s with hostData := s.hostData ++ [(bs, false)] }) ∧
      (∀ a bs ide, s.inp = .memWrite a bs ide → bs ≠ [] → a % 64 + bs.length ≤ 64 → a + bs.length ≤ 0x018000000000 →
        s.hostBlocked a .write ide = none → Does .cxlMemWrite s ((s.countWindow (s.windowTenant a) a true).outsideStore a bs))) ∧
    (∀ r, s.inp = .spdm r → LinkUp s → Does .spdmRequest s { s with
      mailbox := .bytes (Config.spdmAnswer r s.boot.flash s.boot.rollback)
      secured := match r with
        | .keyExchange => true
        | .endSession => false
        | _ => s.secured })

/-- R29 to R32, R34: writes of an island's REQ field at READY start a transition or are refused with their code, a write before READY is
refused with code 5, and a transition that is done ends with STATE at REQ and DONE set; a tile island takes its matrix island with it.
That a refused request leaves REQ as it was is the model's choice (log entry 82), and so is that a gate image stands until the tile island
is ON (log entry 92). -/
def Obligations.IslandEventsTakeEffect : Prop :=
  ∀ (s : State) (w : IslWrite) (i : Island), s.islands[w.island]? = some i →
    let n := w.island
    let s1 := s.updIsland n fun i => { i with done := i.done && ! w.clearDone, fcap := w.fcap.toNat }
    let refused (i : Instr) (k : Nat) : Prop := Does i s (s1.updIsland n fun i => { i with refuse := k })
    let going (req : Nat) (i : Island) : Island := { i with req := req, st := 3 }
    (s.inp = .island w → s.boot.thermTrip = false →
      (s.boot.stage ≠ 6 →
        let t := s.updIsland n fun i => { i with refuse := 5 }
        Does .islctlReqOn s t ∧ Does .islctlReqCgated s t ∧ Does .islctlReqPgated s t ∧ Does .islctlReqReserved s t) ∧
      (s.boot.stage = 6 → refused .islctlReqReserved 3 ∧
        (28 ≤ n → refused .islctlReqCgated 1 ∧ refused .islctlReqPgated 1) ∧
        (n < 16 → n % 2 = 1 → s1.islandOn (n - 1) = false → refused .islctlReqOn 2) ∧
        (∀ i1, s1.islands[n]? = some i1 → i1.st ≠ 3 →
          (i1.st ≠ 0 → n < 16 → n % 2 = 1 → s1.islandOn (n - 1) = true → Does .islctlReqOn s (s1.updIsland n (going 0))) ∧
          (i1.st ≠ 0 → (16 ≤ n ∨ n % 2 = 0) → Does .islctlReqOn s (s1.updIsland n (going 0))) ∧
          (16 ≤ n → n < 24 → i1.st = 0 → Does .islctlReqCgated s ((s1.updIsland n (going 1)).drainIsland n) ∧
            Does .islctlReqPgated s ((s1.updIsland n (going 2)).drainIsland n)) ∧
          (24 ≤ n → n < 28 → i1.st = 0 →
            let lost (t : State) : State := (List.range 32).foldl (fun s k => s.linkLost (32 * (n - 24) + k)) t
            Does .islctlReqCgated s (lost (s1.updIsland n (going 1))) ∧ Does .islctlReqPgated s (lost (s1.updIsland n (going 2)))) ∧
          (n < 16 → n % 2 = 1 → i1.st = 0 → Does .islctlReqCgated s (s1.updIsland n (going 1)) ∧
            Does .islctlReqPgated s (s1.updIsland n (going 2))) ∧
          (n < 16 → n % 2 = 0 → i1.st = 0 →
            let both (req : Nat) : State := ((s1.updIsland n (going req)).updIsland (n + 1) (going req)).drainIsland n
            Does .islctlReqCgated s (both 1) ∧ Does .islctlReqPgated s (both 2))))) ∧
    (s.inp = .unit n → i.st = 3 →
      let ended (s : State) (n : Nat) : State := s.updIsland n fun i => if i.st = 3 then { i with st := i.req, done := true } else i
      (i.req = 0 → 16 ≤ n ∨ n % 2 = 1 → Does .islandTransitionDone s (ended s n)) ∧
      (i.req = 0 → n < 16 → n % 2 = 0 → Does .islandTransitionDone s { ended s n with gates := s.gates.filter (·.die != n / 2) }) ∧
      (i.req ≠ 0 → 24 ≤ n → Does .islandTransitionDone s (ended s n)) ∧
      (i.req ≠ 0 → 16 ≤ n → n < 24 → (s.drainIsland n).islandRows n = [] → Does .islandTransitionDone s (ended (s.drainIsland n) n)) ∧
      (i.req ≠ 0 → 16 ≤ n → n < 24 → (s.drainIsland n).islandRows n ≠ [] → Does .islandTransitionDone s (s.drainIsland n)) ∧
      (∀ tile, i.req ≠ 0 → n < 16 → n % 2 = 1 → s.islands[n - 1]? = some tile → tile.st ≠ 3 ∨ tile.req = 0 →
        let u := s.gateMatrix (n / 2) i.req
        (u.2 = true → Does .islandTransitionDone s (ended u.1 n)) ∧ (u.2 = false → Does .islandTransitionDone s u.1)) ∧
      (∀ tile, i.req ≠ 0 → n < 16 → n % 2 = 1 → s.islands[n - 1]? = some tile → tile.st = 3 → tile.req ≠ 0 →
        Does .islandTransitionDone s s) ∧
      (i.req ≠ 0 → n < 16 → n % 2 = 0 → (s.gateTiles (n / 2) i.req).2 = true →
        let u := (s.gateTiles (n / 2) i.req).1
        let m := ((u.islands[n + 1]?).map (·.req)).getD i.req
        (u.gateMatrix (n / 2) m).2 = true →
        Does .islandTransitionDone s (ended (ended (u.gateMatrix (n / 2) m).1 n) (n + 1))))

/-- R4, R35 to R38, R271, R275, R363: control registers, power and heat. Which islands a die holds, when bits 0 and 1 of PKGPWR.THR are
set, what a thermal trip does to the rows, and that the fast guard ends with a power interval is the model's choice (log entries 46, 47,
49 and 83). A power interval takes one step of R36, down, up or none. The memory of a stack whose masks are applied stays as it is, since
no address reaches its rows, which R275 zeroes, until a page that is moved there is written (log entry 48). -/
def Obligations.PowerEventsTakeEffect : Prop :=
  ∀ s : State,
    (∀ w, s.inp = .watts w → s.boot.powered = true → s.boot.stage ≠ 0 →
      Does .plimWrite s { s with power := { s.power with plim := max 1200 (min 4800 w.toNat) } }) ∧
    (∀ a v mask t, s.inp = .register a v mask → LinkUp s → inHandleSlots a = false → s.writeControl a v mask = some t →
      Does .controlRegisterWrite s t) ∧
    (∀ v, s.inp = .register ctlPower v 0x0000FFFF00000000 → LinkUp s → Does .controlRegisterWrite s
      { s with power := { s.power with plim := max 1200 (min 4800 (field v 32 16)) } }) ∧
    (∀ v, LinkUp s →
      (s.tenants.any (·.num != 0) = true → ∀ size, s.inp = .farTier size v → Does .farTierRegisterWrite s (s.logRec .farTier [v])) ∧
      (s.tenants.any (·.num != 0) = false →
        (s.inp = .farTier true v → Does .farTierRegisterWrite s { s with fars := v }) ∧
        (s.inp = .farTier false v → Does .farTierRegisterWrite s { s with farb := v }))) ∧
    (∀ k r, s.inp = .unit k → s.stackRegs[k]? = some r →
      (LinkUp s → s.quiesced k = false → Does .rowhctlApply s (s.updStack k fun r => { r with refuse := 1 })) ∧
      (LinkUp s → s.quiesced k = true → inverseMasksGood r = false → Does .rowhctlApply s (s.updStack k fun r => { r with refuse := 2 })) ∧
      (LinkUp s → s.quiesced k = true → inverseMasksGood r = true → Does .rowhctlApply s
        { s.updStack k fun r => { r with active := r.staged, applying := true, appliedAt := s.now } with
          bankWins := s.bankWins.filter fun b => b.bank / 16384 != k }) ∧
      (r.applying = true → r.appliedAt + 40000000 ≤ s.now → Does .rowhashApplyDone s
        { s with stackRegs := setAt s.stackRegs k { r with applying := false, done := true } })) ∧
    (∀ r, s.inp = .power r → s.islands.length = 32 →
      let regs := s.stackRegs.map fun g => if g.fast then { g with fast := false, step := 12, lim := 0x600 } else g
      let paced (f : Nat → Nat) : List StackRegs := regs.map fun g => { g with step := f g.step, lim := 0x1800 * (16 - f g.step) / 16 }
      let calm := r.pnow.toNat * 100 < s.power.plim * 1000 * 95
      let n := if calm then s.power.lowIntervals + 1 else 0
      let hot := s.power.plim * 1000 < r.pnow.toNat
      let above (ns : List Nat) : Prop := ∃ k ∈ ns, s.islandOn k = true ∧ islandFloor k < s.limitOf k
      let below (ns : List Nat) : Prop := ∃ k ∈ ns, s.islandOn k = true ∧ s.limitOf k < islandNominal k
      ∃ t, Does .powerInterval s t ∧ t.power.pnow = r.pnow.toNat ∧ t.power.lowIntervals = n ∧ t.power.plim = s.power.plim ∧
        t.power.thr / 4 = (if s.power.hotDies = [] then 0 else 1) + s.power.thr / 8 % 2 * 2 ∧
        (∀ (k : Nat) (i : Island), t.islands[k]? = some i → i.pavg = (r.islandPower.getD k 0).toNat ∧ i.temp = r.islandTemp.getD k 0) ∧
        (hot →
          (above State.matrixIslands → LimitsStep s t (State.matrixIslands.filter s.islandOn) lowerLimit ∧ t.stackRegs = regs) ∧
          (¬ above State.matrixIslands → above State.tileIslands →
            LimitsStep s t (State.tileIslands.filter s.islandOn) lowerLimit ∧ t.stackRegs = regs) ∧
          (¬ above State.matrixIslands → ¬ above State.tileIslands →
            ((∃ g ∈ regs, g.step < 12) → LimitsStep s t [] lowerLimit ∧ t.stackRegs = paced fun k => min 12 (k + 1)) ∧
            (¬ (∃ g ∈ regs, g.step < 12) → LimitsStep s t State.stackIslands lowerLimit ∧ t.stackRegs = regs))) ∧
        (¬ hot → n < 20 → LimitsStep s t [] raiseLimit ∧ t.stackRegs = regs) ∧
        (¬ hot → 20 ≤ n →
          let slow := ∃ k ∈ State.stackIslands, s.limitOf k < islandNominal k
          (slow → LimitsStep s t State.stackIslands raiseLimit ∧ t.stackRegs = regs) ∧
          (¬ slow → (∃ g ∈ regs, 0 < g.step) → LimitsStep s t [] raiseLimit ∧ t.stackRegs = paced (· - 1)) ∧
          (¬ slow → ¬ (∃ g ∈ regs, 0 < g.step) → t.stackRegs = regs ∧
            (below State.tileIslands → LimitsStep s t (State.tileIslands.filter s.islandOn) raiseLimit) ∧
            (¬ below State.tileIslands → LimitsStep s t (State.matrixIslands.filter s.islandOn) raiseLimit)))) ∧
    (∃ t, Does .fastGuard s t ∧ (∀ r ∈ t.stackRegs, r.fast = true ∧ r.lim = 0x600) ∧
      (∀ (k : Nat) (i : Island), k < 16 → t.islands[k]? = some i → i.limit = islandFloor k) ∧
      (∀ k : Nat, 16 ≤ k → t.limitOf k = s.limitOf k) ∧
      t.power = { s.power with thr := s.power.thr % 2 + 2 + s.power.thr / 4 * 4 }) ∧
    (∀ d, s.inp = .unit d →
      let others := s.power.hotDies.filter (· != d)
      Does .thermalLimit s ({ s with power :=
        { s.power with hotDies := d :: others, thr := s.power.thr % 4 + 4 + s.power.thr / 8 * 8 } }.reclock) ∧
      Does .thermalRelease s ({ s with power :=
        { s.power with
          hotDies := others
          thr := s.power.thr % 4 + (if others.isEmpty then 0 else 4) + s.power.thr / 8 * 8 } }.reclock)) ∧
    (let u := (List.range 128).foldl (fun s k => s.linkLost k) s
     ∃ t, Does .thermalTrip s t ∧ t.boot = { u.boot with thermTrip := true, memoryActive := false } ∧
      t.power = { u.power with thr := u.power.thr % 8 + 8 } ∧
      (∀ (k : Nat) (i : Island), k ≠ 28 → t.islands[k]? = some i → i.st = 2 ∧ i.fnow = 0) ∧
      ∀ th ∈ t.threads, th.island ≠ 28 → th.slot = none)

/-- R187, R375 to R379: flits and the states of ports, requests of other modules that are admitted, and the answers to requests that this
module has sent. How a reading of the lane checks, an inbound request and an answer come as events, what a request waits for, and how many
bytes answer a transfer is the model's choice (log entries 65, 66 and 67); so is that the loss of a link fails at once every element still
to be answered of an operation with an element left for it, and leaves the counter to the counter move that follows (log entry 60), and
that the loss waits for the rows that say which operations these are (log entry 104). -/
def Obligations.FabricEventsTakeEffect : Prop :=
  ∀ s : State,
    (∀ n bs p, s.inp = .flit n bs → s.ports[n]? = some p → p.st ≠ .down →
      let f := flitOf bs
      (flitCrcHolds bs = false → Does .flitReceive s (s.onPort n Port.crcFailed)) ∧
      (flitCrcHolds bs = true → f.nak = false → f.typ ≠ 1 → f.typ ≠ 2 → Does .flitReceive s (s.onPort n fun p => p.takeAck f.ack s.now)) ∧
      (flitCrcHolds bs = true → f.nak = false → f.typ = 1 ∨ f.typ = 2 → (f.seq.toNat + 4096 - p.expect) % 4096 = 0 →
        Does .flitReceive s (((s.onPort n fun p => p.takeAck f.ack s.now).updPort n fun p =>
          { p with expect := nextSeq p.expect }.answer false).acceptFlit n f))) ∧
    (∀ n, s.inp = .unit n →
      (s.noProgress n 10000 = true → Does .replayTimeout s (s.onPort n fun p => { p with sent := p.sent ++ p.replay.map flitBytes })) ∧
      (∀ t, s.noProgress n 50000 = true → s.linkRows = .ok t → Does .linkLost s (s.linkLost n)) ∧
      (∀ t sub, s.noProgress n 50000 = true → s.linkRows = .wait t sub → Does .linkLost s t) ∧
      (s.islandOn (24 + n / 32) = true → Does .linkRetrained s
        (s.onPort n fun p => if p.st = .down then
          { Port.reset p.num with st := .normal, waiting := p.waiting, crcErrors := p.crcErrors } else p)) ∧
      Does .portRetrain s (s.onPort n fun p => if p.st = .degraded then { p with st := .repair } else p)) ∧
    (∀ n lane, s.inp = .portFlag n lane → Does .laneDegraded s (s.onPort n fun p =>
      let fails := (2 * s.now + lane.toNat) :: p.laneFails.filter fun f => decide (s.now < f / 2 + 1000000)
      if 16 ≤ (fails.filter fun f => f % 2 == lane.toNat).length then
        (if p.st = .normal then { p with laneFails := [], st := .drain, badLane := true, crcErrors := 0 }.drained
         else { p with laneFails := [] })
      else { p with laneFails := fails })) ∧
    (∀ n good, s.inp = .portFlag n good → Does .retrainDone s (s.onPort n fun p =>
      if p.st = .repair then { p with st := if good then .normal else .degraded, badLane := p.badLane && ! good } else p)) ∧
    (∀ m, s.inp = .inbound m →
      let who := State.inboundParty m
      let refused : State := s.refuseInbound m (m.va ||| .ofNat 64 (2 ^ 63))
      (s.admits m [35] = .refused → Does .inboundGetRequest s refused) ∧
      (s.admits m [36] = .refused → Does .inboundPut s refused) ∧
      (s.admits m [34, 36] = .refused → Does .inboundLaunch s refused) ∧
      (s.admits m [35, 36] = .refused → Does .inboundAtomicRequest s refused) ∧
      (∀ (asid n : Nat) (k : AccKind) (write : Bool) (also : List Nat) (ps : List (Nat × Nat)) (w t : State),
        s.reachAll who false (((lineParts m.va.toNat n).flatMap fun p => s.tableReads m.dtenant.toNat asid p.1) ++ also) = .ok w →
        w.inboundParts m asid n k = .ok ps → w.inboundWaits ps = false → w.partsReach who write ps = .ok t →
        let u := (ps.foldl (fun s p => s.countWindow m.dtenant.toNat p.1 write) t).inboundTaken ps
        let wrote := u.partsWrite (State.inboundMark m) ps m.bytes
        (s.admits m [35] = .admitted asid → n = m.n → k = .read → write = false → also = [] →
          ((ps.any fun p => u.poisoned p.1 p.2) = true → Does .inboundGetRequest s (u.respondError m 0x15)) ∧
          ((ps.any fun p => u.poisoned p.1 p.2) = false → Does .inboundGetRequest s (u.respond m 2 (u.partsBytes ps)))) ∧
        (n = m.bytes.length → k = .write → write = true → also = s.slotReads m.dtenant.toNat →
          let inQueue := ∃ p ∈ ps, lineOf p.1 ∈ u.launchSlots m
          (s.admits m [36] = .admitted asid → ¬ inQueue ∨ u.admits m [34, 36] ≠ .refused →
            Does .inboundPut s (wrote.respond m 4 [])) ∧
          (s.admits m [36] = .admitted asid → inQueue → u.admits m [34, 36] = .refused →
            Does .inboundPut s (u.refuseInbound m (m.va ||| .ofNat 64 (2 ^ 63)))) ∧
          (∀ a, s.admits m [34, 36] = .admitted asid → ps = [(a, 64)] → a ∈ u.launchSlots m →
            Does .inboundLaunch s (wrote.respond m 4 []))) ∧
        (∀ dp v old, s.admits m [35, 36] = .admitted asid → n = m.n → k = .rmw → write = true → also = [] → ps = [(dp, n)] →
          u.doAtomic none m.op dp n m.v.toNat m.w.toNat (State.inboundMark m) = some (v, old) →
          Does .inboundAtomicRequest s (v.respond m 9 (leBytes n old)))) ∧
      (∀ asid key x, s.admits m [37] = .admitted asid → (s.syncs.find? fun o => o.1 == (m.dtenant.toNat, m.object)) = some (key, x) →
        x.scope = 4 →
        (m.acquire = true → m.w.toNat ≤ x.seq.toNat → Does .inboundSync s (s.respond m 6 (wordBytes x.seq))) ∧
        (m.acquire = false →
          let y := { x with seq := x.seq + 1, pub := x.bnd.map fun l => (l, s.verOf l) }
          Does .inboundSync s ({ s with syncs := s.syncs.map fun (o : (Nat × Nat) × SyncObj) =>
            if o.1 = (m.dtenant.toNat, m.object) then ((m.dtenant.toNat, m.object), y) else o }.respond m 6 (wordBytes y.seq))))) ∧
    (∀ tag r, s.remote? tag = some r →
      let gone := s.dropRemote tag
      let key := remoteKey r.va
      (∀ bs id n, s.inp = .replyData tag bs → r.kind = .load id n → bs.length = n →
        Does .getData s (gone.answer id (sizedKey key n) (.data (sizedKey key n) bs))) ∧
      (∀ bs op i o, s.inp = .replyData tag bs → r.kind = .index op i → bs.length = 4 →
        (gone.oneSided.find? (·.id == op)) = some o →
        Does .getData s (gone.setOneSided { o with idxs := (i, leNat bs) :: o.idxs })) ∧
      (∀ id, s.inp = .unit tag → r.kind = .store id → Does .putAcknowledgement s
        ((gone.updThread id fun t => { t with sb := t.sb.drop 1 }).progressClose id false)) ∧
      (∀ w id op n v x, s.inp = .replyWord tag w → r.kind = .atomic id op n v x →
        Does .atomicReply s (gone.answer id key (.data key (leBytes n w.toNat)))) ∧
      (∀ code, s.inp = .replyCode tag code →
        let cause : Cause := if code.toNat = 0x1A then .remotepage else .datapoison
        (∀ id n, r.kind = .load id n → Does .fabricError s (gone.answer id (sizedKey key n) (.fault (sizedKey key n) cause))) ∧
        (∀ id op n v x, r.kind = .atomic id op n v x → Does .fabricError s (gone.answer id key (.fault key cause))) ∧
        (∀ id, r.kind = .store id → Does .fabricError s (gone.dropStore id r.va)) ∧
        (∀ op i o, r.kind = .element op i ∨ r.kind = .index op i → (gone.oneSided.find? (·.id == op)) = some o →
          (i ∈ o.taken → Does .fabricError s gone) ∧ (i ∉ o.taken → Does .fabricError s (gone.failElement o i code.toNat))) ∧
        (∀ k i c rest, r.kind = .command k i → (gone.ctx k).cq = c :: rest →
          ((gone.ctx k).halt = true → Does .fabricError s gone) ∧
          ((gone.ctx k).halt = false → Does .fabricError s
            (gone.handBack k c (if code.toNat = 0x1A then 0x11 else code.toNat) r.va)))))

/-- R57, R73 to R76, R84 to R86, R99, R143, R181, R186, R251, R253, R255, R302: the moves that the module makes beside issues. A next line
past the body of a hardware loop of two lines is not filled ahead: that is the model's choice (log entry 78). So is that a store of a
group that has been discarded drains as one of the group (log entry 100), that an FSHIP on another row acts whole at its APPLY (log entry
32), and that the table of a DEC.LOAD is set at its COMPLETE (log entry 72), that an update's part on lines of several open rows joins the
outside queue of the first (log entry 123), and that one whose descriptor is uncorrectable keeps its place in its family (log entry 81).
-/
def Obligations.MovesTakeEffect : Prop :=
  ∀ s : State,
    (∀ id th e rest, s.inp = .unit id → s.thread? id = some th → th.sb = e :: rest →
      let out (t : State) : State := t.progressClose id false
      let landed (t : State) : State := ((t.popSB th.id).landStore (some th.id) e.dp e.bytes e.mark).viewNewest th.id (lineOf e.dp)
      (∀ m, e.remote = some m → Does .drain s (s.sendRemote m e.va (.store id) e.bytes)) ∧
      (∀ row t, e.remote = none → e.mark = .group row → s.chargeCopy th row = .ok t →
        Does .drain s (out ((t.shadowWrite id e.dp e.bytes).popSB id))) ∧
      (e.remote = none → (∀ row, e.mark ≠ .group row) →
        (s.region e.dp = .control → Does .drain s (out ((s.popSB th.id).storeControl th e.dp e.bytes))) ∧
        (∀ u, s.region e.dp ≠ .control → s.openAt? e.dp = some u → u.id ≠ th.id → Does .drain s
          (out ((s.popSB th.id).updThread u.id fun t =>
            { t with oq := t.oq ++ [.write (some th.id) e.dp e.bytes e.mark], oqAt := t.oqAt ++ [t.issued] }))) ∧
        (∀ u, s.region e.dp ≠ .control → s.openAt? e.dp = some u → u.id = th.id → Does .drain s (out (landed s))) ∧
        (∀ t, s.region e.dp ≠ .control → s.openAt? e.dp = none → s.reach (th.id + 1) e.dp true = .ok t → Does .drain s (out (landed t))))) ∧
    (∀ id line v, s.inp = .triple id line v → v ≤ s.verOf (lineOf line) →
      let t := s.advanceView id (lineOf line) v
      (s.commitOf (lineOf line) v = 0 → Does .refresh s t) ∧
      (s.commitOf (lineOf line) v ≠ 0 → Does .refresh s
        ((s.commitLines (s.commitOf (lineOf line) v)).foldl (fun s p => s.advanceView id p.1 p.2) t))) ∧
    (∀ id th, s.inp = .unit id → s.thread? id = some th →
      (State.shipFirst th = true → th.slot.isSome = true → State.takesOutside th = true ∨ th.closing.isSome = true ∧ th.matrix = [] →
        Does .apply s ((s.applyFirst th).progressClose id false)) ∧
      (∀ e rest, th.slot.isSome = true → State.takesOutside th = true → th.oq = e :: rest → State.shipFirst th = false →
        let t : State := { (s.showClose th).doomGroups with touched := [] }
        Does .apply s (((t.updThread id fun t => { t with oq := rest, oqAt := t.oqAt.drop 1, appliedSince := true }).applyEntry th rest
          e).progressClose id false)) ∧
      (∀ m rest, th.matrix = m :: rest → s.clocked (2 * th.die + 1) = true → Does .matrixArithComplete s
        ((s.updThread id fun t => m.results.foldl (fun t r => t.setAcc r.1 r.2) { t with matrix := rest }).progressClose id false))) ∧
    (∀ id va th t f, s.inp = .pair id va → s.thread? id = some th → th.slot.isSome = true → th.closing = none → pcWellFormed th.ip = true →
      (va = lineOf th.ip.toNat ∨
        va = lineOf th.ip.toNat + lineBytes ∧ (∃ g ∈ th.fbuf, g.va = lineOf th.ip.toNat ∧ g.issued = true) ∧ s.pastLoop th = false) →
      (th.fbuf.any fun f => f.va == va) = false → s.fillLine th va true = .line t f → Does .fetchFill s t) ∧
    (∀ id slot ahead th dp t, s.inp = .prefetch id slot ahead → s.thread? id = some th → th.slot.isSome = true →
      ahead ≤ s.slotDepth th.row slot.val → s.slotDone th.row slot.val = false →
      s.check th (s.slotAhead th.row slot.val ahead) .read = .ok dp → s.openAt? dp = none → s.region dp ≠ .control →
      s.reach (th.id + 1) dp false = .ok t → Does .streamPrefetch s
        ((t.noteBankWindow th (s.slotAhead th.row slot.val ahead).toNat dp).refresh id (lineOf dp) (t.verOf (lineOf dp)))) ∧
    (∀ k c rest, s.inp = .unit k → (s.ctx k).cq = c :: rest → (s.ctx k).halt = false →
      s.engineRuns k = true → (∀ i < c.accesses, i ∈ c.taken) →
      let x := { s.ctx k with tl := (s.ctx k).tl + 1, cq := rest }
      Does .complete s (s.setCtx k (if c.kind = .decLoad then { x with table := c.decoded, k := c.k, w := c.w } else x))) ∧
    (∀ k i c rest t lines read, s.inp = .access (.command k i) → (s.ctx k).cq = c :: rest → (s.ctx k).halt = false → i ∉ c.taken →
      i < c.accesses → s.engineTakes k i = true → s.receiverGated c.unit = false →
      s.transfer c.owner (c.xfer (s.ctx k) i) (.command k i) c.num [] none 4 = .done t lines read →
      let c' := { c with
        taken := i :: c.taken, lines := c.lines ++ lines
        loaded := if c.kind = .decLoad then c.loaded ++ [(i, leLine read)] else c.loaded }
      Does .engacc s (t.setCtx k { s.ctx k with
        cq := c' :: rest, wrote := (s.ctx k).wrote ++ lines.map fun l => (c.num, l.1, l.2) })) ∧
    (∀ k i c rest f, s.inp = .translate (.command k i) → (s.ctx k).cq = c :: rest → (s.ctx k).halt = false → i ∉ c.taken →
      i < c.accesses → s.engineTakes k i = true → s.receiverGated c.unit = false → s.flightOf c.owner (c.xfer (s.ctx k) i) (.command k i) c.num 4 = .ok f →
      Does .engacc s (s.addFlight f)) ∧
    (∀ id o w t, s.inp = .unit id → (s.oneSided.find? (·.id == id)) = some o → (∀ i < o.n, i ∈ o.taken) → s.outsideHeld o.counter = false →
      s.reachAll (opParty o.id) false ((o.failed.filter (·.2 == 0x40)).flatMap fun f => s.poisonReads o f.1) = .ok w →
      w.reach (opParty o.id) o.counter true = .ok t → Does .counterMove s (t.endOneSided o)) ∧
    (∀ n p, s.inp = .unit n → s.partsNow.parts[n]? = some p → s.partsNow.partNext p = true →
      let rows := s.partsNow.partRows p
      let e : OQEntry := .part p.hash.desc p.usn p.table
      (∀ th, s.partsNow.joins? rows.2 rows.1 none = some th → Does .happly s (s.partsNow.joinOnce th e)) ∧
      (∀ t u, s.partsNow.joins? rows.2 rows.1 none = none → p.split = none →
        s.partsNow.partsReach (hashParty p.hash.desc) false rows.1 = .ok t → t.partsReach (hashParty p.hash.desc) true rows.2 = .ok u →
        let v := u.withdraw e
        v.descMeets p ((v.applyUpdate p).finishPart p) = false → Does .happly s (((v.applyUpdate p).finishPart p).noteApplied p))) ∧
    (∀ c q rest u, s.inp = .unit c → (s.skink c).queue = q :: rest → (s.skink c).cur = none → s.islandOn (2 * (c / 80) + 1) = true →
      s.threadAt? q.wrow = some u → s.thread? q.thread = none → Does .walkBegin s (s.endWalk (s.skink c) q rest .protect)) ∧
    (∀ c q rest u r, s.inp = .unit c → (s.skink c).queue = q :: rest → (s.skink c).cur = none → s.islandOn (2 * (c / 80) + 1) = true →
      s.threadAt? q.wrow = some u → s.thread? q.thread = some r → u.closing = none → s.code u.row = 1 → s.tagOf u.row = .fixed →
      s.clhalt.contains c = false → Does .walkBegin s (s.beginWalk c (s.skink c) q rest u r)) ∧
    (∀ c q u, s.inp = .unit c → (s.skink c).cur = some q → 1536 ≤ (s.skink c).issues → s.threadAt? q.wrow = some u →
      u.closing = none → Does .walkerWatchdog s ((s.takeFault u.id .watchdog 0).progressClose u.id false))

/-- R94 to R97, R103 to R106, R109 to R112, R115, R116, R120, R121, R123, R32: the scheduler, the allocator, the posts, and the command
stores of parties outside the rows. The model's choices: quantumClose and priorityClose compare the effective priority of the waiting rows
with the base priority of the open one, and count READY from when the row became so (log entry 51); rowReclaim, spawnReply, rowReload and
gatedRowMove take the row and handle that the event names among those of equal rank in the search (log entry 52); rowEviction, rowReload
and gatedRowMove carry the row with every reference to its lines (log entry 53); a TH.SPAWN's reply writes the PC word over another
party's write of it (log entry 96); a command store to a core's row is recorded as the host's (log entry 114); priorityClose counts one
close for each time that a row is READY (log entry 51); and the rows that device firmware has given make up the pools (log entry 87). -/
def Obligations.SchedulerEventsTakeEffect : Prop :=
  ∀ s : State,
    (∀ c n, s.inp = .command c n →
      let stored (code : Nat) : State := s.outsideStore (rowOf c.row)
        (wordBytes (.ofNat 64 (code % 16 * 2 ^ 4 + c.prio.toNat * 2 ^ 8)) ++ (match c.pc with
          | some w => wordBytes w
          | none => []))
      Does .start s (stored 1) ∧ Does .stop s (stored 2) ∧ Does .redirect s (stored 3) ∧ Does .resume s (stored 4) ∧
      Does .kill s (stored 5) ∧ Does .step s (stored 6) ∧ (7 ≤ n.toNat → Does .commandReserved s (stored n.toNat))) ∧
    (∀ id th, s.inp = .unit id → s.thread? id = some th →
      (∀ k, s.isReady th = true → th.closing = none → s.islandOn th.island = true → s.halted th = false → s.freeSlot th = some k →
        s.firstReady th k = true →
        (th.exec ≠ .bank → Does .rowSchedOpen s (s.openRow th k)) ∧
        (∀ t, th.exec = .bank → s.openBank th = .ok t → Does .rowSchedOpen s (t.openRow th k))) ∧
      (s.scheduled th = true → 4096 ≤ s.cyclesSince th th.openedAt →
        (s.inExchange th = false → (∃ u ∈ s.waitingRows th, s.prio th.row ≤ s.effective u) → Does .quantumClose s (s.preempt th)) ∧
        (s.inExchange th = true ∨ (∀ u ∈ s.waitingRows th, s.effective u < s.prio th.row) →
          Does .quantumClose s (s.updThread id fun t => { t with openedAt := s.ticksOf th }))) ∧
      (s.mayPreempt th = true →
        (∀ u ∈ s.openRows th, u.closing = none ∧ u.deferred = none ∧ (u.id = th.id ∨ s.prio th.row < s.prio u.row)) →
        (∀ u, s.firstClaimant th = some u →
          Does .priorityClose s ((s.updThread u.id fun t => { t with servedAt := some t.readyAt }).preempt th))) ∧
      (∀ u, s.firstClaimant th = some u → u ∈ s.waitingRows th ∧ s.prio th.row + 16 ≤ s.effective u ∧ s.freeSlot u = none ∧
        u.servedAt ≠ some u.readyAt) ∧
      (∀ w, th.stall = some w → th.slot.isSome = true → th.closing = none → s.code th.row = 3 →
        (if s.slotWanted th then 32 else 256) ≤ s.cyclesSince th th.stalledAt →
        Does .spinWindowExpiry s ((s.beginClose id (State.waitBits w.wkind w.warg)).progressClose id false)) ∧
      (∀ w, th.stall = some w → th.slot = none → s.code th.row = 4 → s.condHolds th w.cond = true →
        Does .waitWake s (s.setLogical id 2)) ∧
      (∀ w d, th.stall = some w → w.cond = .watch d → 256 ≤ s.cyclesSince th th.tickAt → s.logical th = 4 →
        let t := s.updThread id fun t => { t with tickAt := t.tickAt + 256000 }
        (256 < s.prog th.row → Does .thWaitTick s (t.setCtrl th.row 0 32 32 (s.prog th.row - 256))) ∧
        (0 < s.prog th.row → s.prog th.row ≤ 256 → Does .thWaitTick s (t.endWatch th d 0)) ∧
        (s.prog th.row = 0 → Does .thWaitTick s s)) ∧
      (s.tagOf th.row = .placed → s.code th.row = 0 → th.slot = none → th.closing = none → th.oq = [] →
        let t := (s.rowToData th).giveRow (s.tenantOf th.row) th.row th.evicted
        (th.backing = none → Does .rowReclaim s t) ∧
        (∀ b, th.backing = some b → Does .rowReclaim s (if th.evicted then t else t.giveRow (s.tenantOf th.row) b true))) ∧
      (∀ b t, th.backing = some b → s.evictable th = true → (∀ u ∈ s.threads, s.evictable u = true → u.id ≠ th.id → s.goesFirst th u = true) →
        s.candidates none 0 = [] → s.reach (hubParty b) b true = .ok t →
        let u := (((t.moveRow th.row b).setRaw b 0 0 4 6).setRaw b 2 42 1 1).updThread id fun t =>
          { t with evicted := true, accs := t.accs.map Acc.unbind }
        Does .rowEviction s (u.giveRow 0 th.row false))) ∧
    (∀ id row handle th q, s.inp = .triple id row handle → s.thread? id = some th → th.spawn = some q →
      let done (s : State) : State := (s.updThread id fun t => { t with spawn := none }).dropClaims (serviceParty (2 ^ 32 + id))
      (q.cancelled = true → Does .spawnReply s (done s)) ∧
      (∀ h, q.cancelled = false → handle = 0 → s.refuses (s.hintRow th q.hint) (field q.desc 8 1) = true → s.reachHint th q.hint = .ok h →
        Does .spawnReply s (((done h).setX th.row q.dest 0).endSpawn th q)) ∧
      (∀ h r, q.cancelled = false → handle ≠ 0 → s.chosen (s.hintRow th q.hint) (field q.desc 8 1) row = true → s.handleFree handle = true →
        s.reachHint th q.hint = .ok h → h.reach (hubParty row) row true = .ok r →
        let ident := bitsAt (r.ctrl th.row 2).toNat 0 16 + field q.desc 9 2 * 2 ^ 16
        let t := (done r).placeRow row handle ident (field q.desc 0 8) q.pc.toNat (field q.desc 11 1 == 1) []
        let t := (List.range 32).foldl (fun s i => s.viewNewest id (row + 64 * i)) t
        ∀ u, t.threadAt? row = some u → Does .spawnReply s ((t.setX th.row q.dest (t.rowVa u)).endSpawn th q))) ∧
    (∀ id row th, s.inp = .pair id row → s.thread? id = some th →
      (∀ k t, s.code th.row = 6 → th.evicted = true → s.reloadDue th = true → s.chosen (some (tileRow th.place 0)) 0 row = true →
        s.reach (hubParty th.row) th.row false = .ok t → t.region row = .tile k →
        let u := ({ t with freeRows := t.freeRows.filter (· != row) } : State).moveRow th.row row
        let u := ((u.setRaw row 0 0 8 (if t.ctrlField th.row 0 16 4 = 0 then 1 else 4)).setRaw row 2 42 1 0).updThread id
          fun t => { t with evicted := false, place := k }
        let v := u.updThread id fun t => { t with tickAt := min t.tickAt (u.ticksOf t), readyAt := u.ticksOf t }
        let w := if (th.split.any fun p => p.stage == 4 && p.failed.isSome) then v.endUnit id else v
        Does .rowReload s (if t.ctrlField th.row 0 4 4 = 0 then w else w.takeCommand id (t.ctrlField th.row 0 4 4))) ∧
      (∀ k l, s.region th.row = .tile k → s.region row = .tile l → s.tagOf th.row = .placed → s.isReady th = true →
        s.gates.any (·.die == State.dieOfTile k) = true → State.dieOfTile l ≠ State.dieOfTile k → s.chosen (some th.row) 0 row = true →
        let t := ({ s with freeRows := s.freeRows.filter (· != row) } : State).moveRow th.row row
        let t := (t.giveRow 0 th.row false).updThread id fun t => { t with place := l }
        Does .gatedRowMove s (t.updThread id fun u => { u with readyAt := t.ticksOf u }))) ∧
    (∀ n t msg id rest, s.inp = .unit n → s.tenant? n = some t → t.posts = (msg, id) :: rest →
      (s.ringSlot t t.mbox t.mboxNext = none → Does .post s (((s.setTenant { t with posts := rest }).logRec .faultMessage
        ((List.range 5).map fun i => msg.extractLsb' (64 * i) 64)).raise n 0)) ∧
      (∀ dp th r, s.ringSlot t t.mbox t.mboxNext = some dp → s.slotFree dp = true →
        s.reachPosting t (State.ringVa t.mbox t.mboxNext) = .ok r →
        let u := (r.setTenant { t with posts := rest, mboxNext := t.mboxNext + 1 }).putSlot dp msg
        u.thread? id = some th → Does .post s
          { u with posted := assocSet u.posted dp ((List.range 32).map fun i => (th.row + 64 * i, u.verOf (th.row + 64 * i))) }))

/-- R170, R358 to R362, R322, R365, R368, R371, R372: the translation service, invalidations and their stragglers, handback messages,
launch packets, the hot-page tracker, and the end of a scrub. The model's choices: that a walk without a mapping which an invalidation
overlapped is made again (translationReply, log entry 45), the ASID of a launched row (launchPacket, log entry 54), what a scrub counts
(scrubComplete, log entry 57), what a straggler's reset drops (stragglerReset, log entry 58), what makes a page hot or cold and how the
tracker comes by its frames (trackerPeriod, log entries 89 and 87), and that a violation record waits for its place in the ring (the
refused launchPacket, log entry 91). -/
def Obligations.ServiceEventsTakeEffect : Prop :=
  ∀ s : State,
    (∀ id m, s.inp = .unit id → s.miss? id = some m → m.stage = 0 →
      let posted : State := { s with missMail := s.missMail ++ [(m.unit, State.missMessage m)] }
      ((∃ n ∈ s.misses, n.id ≠ id ∧ State.samePage n m = true ∧ (n.stage = 1 ∨ n.stage = 2)) →
        Does .translationMissPost s (posted.setMiss { m with stage := 2 })) ∧
      ((∀ n ∈ s.misses, n.id ≠ id → State.samePage n m = true → n.stage ≠ 1 ∧ n.stage ≠ 2) →
        Does .translationMissPost s (posted.setMiss { m with stage := 1 }))) ∧
    (∀ id m r, s.inp = .unit id → s.miss? id = some m → m.stage = 1 ∨ m.stage = 2 → s.receiverGated m.unit = false →
      s.reachWalk (serviceParty m.unit) m.tenant m.asid m.va.toNat = .ok r →
      let t := (r.takeMessage m).dropClaims (serviceParty m.unit)
      (∀ leaf size, t.walk m.tenant m.asid m.va.toNat = some (leaf, size) →
        let page := m.va.toNat / pageSize size * pageSize size
        let ofPage (n : Miss) : Bool := n.unit == m.unit && n.asid == m.asid && n.va.toNat / pageSize size == page / pageSize size
        let cut (n : Miss) : Bool := ofPage n && n.stage != 3 && n.cutOn page (pageSize size)
        let others : List TlbEntry := t.tlbs.filter fun e =>
          ! (e.unit == m.unit && e.asid == m.asid && rangesMeet e.page (pageSize e.size) page (pageSize size))
        ((∀ n ∈ t.misses, cut n = false) → Does .translationReply s ({ t with
          tlbs := ⟨m.unit, m.asid, page, size, leaf⟩ :: others, misses := t.misses.filter fun n => ! ofPage n } : State).progressWriteBacks) ∧
        ((∃ n ∈ t.misses, cut n = true) → Does .translationReply s
          ({ t with misses := t.misses.filter fun n => ! ofPage n || n.stage == 3 } : State).progressWriteBacks)) ∧
      (t.walk m.tenant m.asid m.va.toNat = none →
        let ms : List Miss := t.misses.filter fun n => State.samePage n m && (n.stage == 1 || n.stage == 2)
        ((∃ n ∈ ms, n.cutOn (pageOf n.va.toNat) pageBytes = true) → Does .translationReply s (ms.foldl (fun s n => s.dropMiss n.id) t).progressWriteBacks) ∧
        ((∀ n ∈ ms, n.cutOn (pageOf n.va.toNat) pageBytes = false) → Does .translationReply s (ms.foldl (fun s n => s.noMappingReply n) t).progressWriteBacks))) ∧
    (∀ m : Miss, (m.prefetch = true → s.noMappingReply m = s.dropMiss m.id) ∧
      (m.prefetch = false → m.thread.bind s.thread? = none → s.noMappingReply m = s.setMiss { m with stage := 3 }) ∧
      (∀ th, m.prefetch = false → m.thread.bind s.thread? = some th → th.closing = none →
        (∀ x w, th.waitsFor = some (.translation x w m.va) →
          ((th.split.map (·.stage)) = some 1 → s.noMappingReply m = (s.dropMiss m.id).failSplit th.id .pagefault m.va) ∧
          ((th.split.map (·.stage)) ≠ some 1 →
            let data := if m.kind = 2 then ((th.check.bind (·.source)).getD m.va) else m.va
            s.noMappingReply m = ((s.dropMiss m.id).takeFault th.id .pagefault data).progressClose th.id false)) ∧
        (∀ k, th.waitsFor = some (.restore k m.va) → s.noMappingReply m =
          (((s.dropMiss m.id).setAccStatus th.row k 2 (s.accInc th.row k)).takeFault th.id .accfault 0).progressClose th.id false))) ∧
    (∀ iv u v, s.inp = .pair iv u → (s.invs.find? (·.id == iv)) = some v →
      (s.receiverGated u = true ∨ s.inFlight v u = false → Does .tlbAck s (s.acknowledged iv u)) ∧
      (u ∈ v.waiting → v.sent + 8000 ≤ s.now → s.receiverGated u = false → s.inFlight v u = true →
        (u < 640 → Does .stragglerReset s ((s.clusterReset v u).acknowledged iv u)) ∧
        (640 ≤ u → Does .stragglerReset s ((s.stackReset v u).acknowledged iv u)))) ∧
    (∀ iv v t, s.inp = .unit iv → (s.invs.find? (·.id == iv)) = some v → v.waiting = [] → s.outsideHeld v.counter = false →
      s.reach (hubParty (2 ^ 62 + iv)) v.counter true = .ok t →
      Does .invalidationCounterMove s
        { (t.counterMove v.counter 1 []).outsideTaken v.counter with invs := t.invs.filter (·.id != iv) }) ∧
    (∀ k h rest t dp r, s.inp = .unit k → (s.ctx k).pending = h :: rest → s.ctxTenant? k = some t → (s.ctx k).rbase ≠ 0 →
      let va := (s.ctx k).rbase + (s.ctx k).handbacks % 2 ^ (s.ctx k).rsz * 64
      s.hubTranslate t va .write = some dp → s.inTile dp = true → s.slotFree dp = true → s.reachPosting t va = .ok r →
      Does .handbackPost s ((r.setCtx k { r.ctx k with pending := rest, handbacks := (r.ctx k).handbacks + 1 }).putSlot dp
        (State.handbackMessage k h))) ∧
    (∀ n row handle t dp q r, s.inp = .triple n row handle → (s.logStale n).tenant? n = some t →
      let va := State.ringVa t.lqb t.lqSeq
      (s.logStale n).reachPosting t va = .ok q → q.hubTranslate t va .rmw = some dp →
      q.reach (hubParty (rowOf dp)) dp false = .ok r →
      let w := r.word64 dp
      let desc := r.word64 (dp + 16)
      let hintVa := (r.word64 (dp + 24)).toNat
      let hint := r.hubTranslate t hintVa .read
      let took (s : State) : State := s.setTenant { t with lqSeq := (t.lqSeq + 1) % 2 ^ 32, lqTaken := (t.lqTaken + 1) % 2 ^ 32 }
      (field w 63 1 = 0 ∨ field w 0 32 ≠ t.lqSeq % 2 ^ 32 → Does .launchPacket s r) ∧
      (field w 63 1 = 1 → field w 0 32 = t.lqSeq % 2 ^ 32 →
        (∀ x, (x = r ∧ (field t.lqp 0 2 < field desc 9 2 ∨ field desc 9 2 = 3 ∨ (r.scrub.map (·.tenant)) = some t.num)) ∨
            (field desc 9 2 ≤ field t.lqp 0 2 ∧ field desc 9 2 ≠ 3 ∧ (r.scrub.map (·.tenant)) ≠ some t.num ∧ handle = 0 ∧
              r.refuses hint (field desc 8 1) = true ∧ r.reachPosting t hintVa = .ok x) →
          let written := (took x).hubPoke dp (wordBytes (State.launchStatus (x.word64 dp) 2))
          let refused := written.violate t.num 10 (.ofNat 64 dp) 0 t.num (written.modid.toNat % 4096) false
          (field (x.word64 dp) 62 1 = 0 → Does .launchPacket s refused) ∧
          (field (x.word64 dp) 62 1 = 1 → Does .launchPacket s (refused.raise t.num 0))) ∧
        (∀ y x, field desc 9 2 ≤ field t.lqp 0 2 → field desc 9 2 ≠ 3 → (r.scrub.map (·.tenant)) ≠ some t.num → handle ≠ 0 →
          r.chosen hint (field desc 8 1) row = true → r.handleFree handle = true → r.reachPosting t hintVa = .ok y →
          y.reach (hubParty row) row true = .ok x →
          let d := x.word64 (dp + 16)
          let placed := (took x).placeRow row handle (State.launchIdent t (field d 9 2)) (field d 0 8) (x.word64 (dp + 8)).toNat
            (field d 11 1 == 1) ((List.range 4).map fun i => x.word64 (dp + 32 + 8 * i))
          ∀ u, placed.threadAt? row = some u →
            let done := placed.hubPoke dp (wordBytes (State.launchStatus (x.word64 dp) 1) ++ wordBytes (placed.rowVa u))
            (field (x.word64 dp) 62 1 = 0 → Does .launchPacket s done) ∧
            (field (x.word64 dp) 62 1 = 1 → Does .launchPacket s (done.raise t.num 2))))) ∧
    (∀ ms, s.inp = .tracker ms → s.trackerAt + 1000000 ≤ s.now → (∀ k < 24, (ms.filter fun m => s.moveStack m == k).length ≤ 256) →
      Does .trackerPeriod s { ms.foldl State.trackerMove s with pageUse := [], trackerAt := s.now }) ∧
    (∀ page, s.inp = .unit page →
      (∀ st f, (s.dpitOf page).st = .moving → (s.dpitOf page).loc1 = .frame st f →
        let freed : State := { s with trackerPool := (st, f) :: s.trackerPool.filter (· != (st, f)) }
        (∀ a b, (s.dpitOf page).loc2 = .frame a b → Does .dpitMoveDone s
          (({ freed with trackerPool := freed.trackerPool.filter (· != (a, b)) } : State).setDpit
            { s.dpitOf page with st := .home, loc1 := .frame a b, loc2 := .frame 0 0 })) ∧
        (∀ a, (s.dpitOf page).loc2 = .far a → Does .dpitMoveDone s
          (freed.setDpit { s.dpitOf page with st := .far, loc1 := .far a, loc2 := .frame 0 0 }))) ∧
      (∀ f a b, (s.dpitOf page).st = .moving → (s.dpitOf page).loc1 = .far f → (s.dpitOf page).loc2 = .frame a b →
        Does .dpitMoveDone s (({ s with trackerPool := s.trackerPool.filter (· != (a, b)) } : State).setDpit
          { s.dpitOf page with st := .home, loc1 := .frame a b, loc2 := .frame 0 0 })) ∧
      ((s.dpitOf page).st = .revert → Does .dpitRevertDone s
        ((s.freeCopies page (s.dpitOf page).loc2).setDpit { s.dpitOf page with st := .home, loc2 := .frame 0 0 }))) ∧
    (∀ sc t v, s.scrub = some sc → s.scrubQuiet sc.tenant = true → s.tenant? sc.tenant = some t → s.outsideHeld sc.area = false →
      s.reach (hubParty sc.area) sc.area true = .ok v →
      let u := v.scrubErase t sc
      let body := u.receiptBody (u.scrub.getD sc) t
      let sig := Config.deviceSign (.ofNat 384 (leNat (sha384 body)))
      let receipt := body ++ leBytes 48 (sig.extractLsb' 0 384).toNat ++ leBytes 48 (sig.extractLsb' 384 384).toNat
      let r := (((u.pokeAll sc.area receipt).setGran sc.area receipt.length .full).counterMove (sc.area + 0x1F0) 1 []).outsideTaken sc.area
      Does .scrubComplete s { r with
        scrub := none, tenants := r.tenants.filter (·.num != sc.tenant), receiptCount := r.receiptCount + 1
        receipts := assocSet r.receipts sc.tenant receipt })

/-- R261, R268, R270, R272, R283, R331, R337: refresh, the activation regulator, claims, Encke, exchanges, and the deadlock guard. Which
waiting activate is left to its own party (log entry 56), what a channel's reset drops (log entry 58), which tenants it tells (log entry
112), and what the guard takes for a blocked cycle (log entry 59) are the model's choices. -/
def Obligations.WatchdogAndRefreshEventsTakeEffect : Prop :=
  ∀ s : State,
    (∀ sub, s.inp = .unit sub →
      (∀ r, (s.subarray sub).buf = .opened r → Does .subarrayRefresh s (s.setBuf sub .free)) ∧
      (∀ r, (s.subarray sub).buf = .thread r ∨ (∃ id, (s.subarray sub).buf = .held r id) →
        Does .subarrayRefresh s (s.setSub { s.subarray sub with refreshing := true })) ∧
      ((s.subarray sub).refreshing = true → s.regulatorFree (sub / 131072) (sub % 131072 / 2048) = true → Does .refreshReactivate s
        ((s.charge (sub / 131072) (sub % 131072 / 2048)).setSub { s.subarray sub with refreshing := false })) ∧
      (∀ c rest id th, (s.subarray sub).claims = c :: rest → s.occupant? sub = some id → s.thread? id = some th →
        c.2 + 2048000 ≤ s.islandTicks (16 + sub / 393216) → s.mayPreempt th = true → Does .claimTimeout s (s.preempt th))) ∧
    (∀ stack r key rest, s.inp = .unit stack → s.stackRegs[stack]? = some r → r.waiting = key :: rest →
      let sub := key / 256
      let next := s.updStack stack fun r => { r with waiting := r.waiting.drop 1 }
      s.regulatorFree stack (sub % 131072 / 2048) = true → s.refreshPending stack = false → s.takesGrant key = false →
      (next.subarray sub).buf = .free ∨ (∃ r, (next.subarray sub).buf = .opened r) → Does .activateGrant s
        ((next.charge stack (sub % 131072 / 2048)).setBuf sub (.opened (key % 256)))) ∧
    (∀ id th t r, s.inp = .unit id → s.thread? id = some th → th.deferred = some t → th.slot.isSome = true → th.closing = none →
      s.stackRegs[th.place / 16384]? = some r → r.lim1 ≤ s.cyclesSince th t →
      Does .enckeWatchdog s ((s.takeFault id .watchdog 0).progressClose id false)) ∧
    (∀ stack ch th t r, s.inp = .pair stack ch → th ∈ s.threads → th.exec = .bank → th.place / 16384 = stack →
      th.place % 16384 / 512 = ch → th.slot.isSome = true → th.deferred = some t → s.stackRegs[stack]? = some r →
      r.lim1 + r.lim2 ≤ s.cyclesSince th t → Does .channelReset s (s.resetChannel stack ch)) ∧
    (∀ name, s.inp = .unit name → Does .slotBoundary s
      (((s.threads.filter (waitsForSlot name)).map (·.id)).foldl (fun s id => s.waitWake id) s)) ∧
    (∀ c u, s.inp = .unit c →
      let blocked := s.blockedPushers c
      let cycle := s.blockedCycle c blocked.length blocked
      u ∈ s.queues → IsTarget c cycle u →
      (∀ v ∈ s.queues, IsTarget c cycle v → v ≠ u → u.cap < v.cap ∨ u.cap = v.cap ∧ u.num < v.num) →
      (s.poolUsed c + 16 ≤ 8192 → Does .deadlockGuard s { s with queues := s.queues.map fun v =>
        if v.cluster = c ∧ v.num = u.num then { v with cap := v.cap + 16 } else v }) ∧
      (8192 < s.poolUsed c + 16 → Does .deadlockGuard s
        (cycle.foldl (fun s th => (s.takeFault th.id .qdeadlock 0).progressClose th.id false) s)))
end

