-- ==== Sys2Proof/Laws/Memory.lean ====
section
/-!
SUPPORT. Memory: a write keeps the canonical form, a read after a write gives the bytes written and every other byte as it was, and
reading a range is reading its bytes.
-/
namespace Sys2Proof.Machine.Memory

/-- The canonical form as one order and one exclusion. -/
theorem wf_iff (m : Memory) :
    m.wf = true ↔ m.Pairwise (fun c d => c.1 < d.1) ∧ ∀ c ∈ m, c.2 ≠ unlisted := by
  induction m with
  | nil => simp [wf]
  | cons c m ih =>
    cases m with
    | nil => simp [wf]
    | cons d m =>
      simp only [wf, Bool.and_eq_true, bne_iff_ne, decide_eq_true_eq, ih, List.pairwise_cons, List.mem_cons, forall_eq_or_imp]
      constructor
      · rintro ⟨⟨h1, h2⟩, ⟨h3, h4⟩, h5, h6⟩
        exact ⟨⟨⟨h2, fun x hx => Nat.lt_trans h2 (h3 x hx)⟩, h3, h4⟩, h1, h5, h6⟩
      · rintro ⟨⟨⟨h2, -⟩, h3, h4⟩, h1, h5, h6⟩
        exact ⟨⟨h1, h2⟩, ⟨h3, h4⟩, h5, h6⟩

theorem below_sublist (m : Memory) (a : Nat) : (m.below a).Sublist m := by
  induction m with
  | nil => simp [below]
  | cons c m ih => simp only [below]; split <;> simp [ih]

theorem since_sublist (m : Memory) (a : Nat) : (m.since a).Sublist m := by
  induction m with
  | nil => simp [since]
  | cons c m ih =>
    simp only [since]
    split
    · exact ih.cons c
    · exact List.Sublist.refl _

theorem below_lt (m : Memory) (a : Nat) : ∀ c ∈ m.below a, c.1 < a := by
  induction m with
  | nil => simp [below]
  | cons c m ih =>
    simp only [below]
    split
    · simpa [‹c.1 < a›] using ih
    · simp

theorem since_ge (m : Memory) (a : Nat) (h : m.Pairwise (fun c d => c.1 < d.1)) : ∀ c ∈ m.since a, a ≤ c.1 := by
  induction m with
  | nil => simp [since]
  | cons c m ih =>
    rw [List.pairwise_cons] at h
    simp only [since]
    split
    · exact ih h.2
    · rename_i hc
      intro d hd
      rcases List.mem_cons.1 hd with rfl | hd
      · omega
      · have := h.1 d hd
        omega

theorem cells_mem (bs : List Byte) (a : Nat) : ∀ c ∈ cells a bs, a ≤ c.1 ∧ c.1 < a + bs.length ∧ c.2 ≠ unlisted := by
  induction bs generalizing a with
  | nil => simp [cells]
  | cons b bs ih =>
    intro c hc
    simp only [cells] at hc
    have tail : c ∈ cells (a + 1) bs → a ≤ c.1 ∧ c.1 < a + (b :: bs).length ∧ c.2 ≠ unlisted := fun h => by
      have := ih (a + 1) c h
      simp only [List.length_cons]
      exact ⟨by omega, by omega, this.2.2⟩
    split at hc
    · exact tail hc
    · rcases List.mem_cons.1 hc with rfl | hc
      · simp_all
      · exact tail hc

theorem cells_sorted (bs : List Byte) (a : Nat) : (cells a bs).Pairwise (fun c d => c.1 < d.1) := by
  induction bs generalizing a with
  | nil => simp [cells]
  | cons b bs ih =>
    simp only [cells]
    split
    · exact ih _
    · exact List.pairwise_cons.2 ⟨fun c hc => (by have := cells_mem bs (a + 1) c hc; simp only; omega), ih _⟩

/-- A write keeps the canonical form. -/
theorem setBytes_wf (m : Memory) (a : Nat) (bs : List Byte) (h : m.wf = true) : (m.setBytes a bs).wf = true := by
  rw [wf_iff] at h ⊢
  obtain ⟨hs, hz⟩ := h
  unfold setBytes
  constructor
  · refine List.pairwise_append.2 ⟨hs.sublist (below_sublist m a),
      List.pairwise_append.2 ⟨cells_sorted bs a, hs.sublist (since_sublist m _), ?_⟩, ?_⟩
    · intro c hc d hd
      have := cells_mem bs a c hc
      have := since_ge m _ hs d hd
      omega
    · intro c hc d hd
      have h1 := below_lt m a c hc
      rcases List.mem_append.1 hd with hd | hd
      · have := cells_mem bs a d hd
        omega
      · have := since_ge m _ hs d hd
        omega
  · intro c hc
    rcases List.mem_append.1 hc with hc | hc
    · exact hz c ((below_sublist m a).mem hc)
    · rcases List.mem_append.1 hc with hc | hc
      · exact (cells_mem bs a c hc).2.2
      · exact hz c ((since_sublist m _).mem hc)

theorem get_append (m n : Memory) (x : Nat) (h : ∀ c ∈ n, c.1 ≠ x) : Memory.get (m ++ n) x = m.get x := by
  induction m with
  | nil =>
    induction n with
    | nil => rfl
    | cons c n ih => simp_all [get]
  | cons c m ih => simp [get, ih]

theorem get_append_right (m n : Memory) (x : Nat) (h : ∀ c ∈ m, c.1 ≠ x) : Memory.get (m ++ n) x = n.get x := by
  induction m with
  | nil => rfl
  | cons c m ih => simp_all [get]

theorem get_none (m : Memory) (x : Nat) (h : ∀ c ∈ m, c.1 ≠ x) : m.get x = unlisted := by
  have := get_append_right m [] x h
  rwa [List.append_nil] at this

theorem get_below (m : Memory) (a x : Nat) (h : m.Pairwise (fun c d => c.1 < d.1)) (hx : x < a) : (m.below a).get x = m.get x := by
  induction m with
  | nil => rfl
  | cons c m ih =>
    rw [List.pairwise_cons] at h
    simp only [below]
    split
    · simp [get, ih h.2]
    · rename_i hc
      rw [get_none (c :: m)]
      · rfl
      · intro d hd
        rcases List.mem_cons.1 hd with rfl | hd
        · omega
        · have := h.1 d hd
          omega

theorem get_since (m : Memory) (a x : Nat) (hx : a ≤ x) : (m.since a).get x = m.get x := by
  induction m with
  | nil => rfl
  | cons c m ih =>
    simp only [since]
    split
    · rename_i hc
      rw [ih, get, if_neg (by omega)]
    · rfl

theorem get_cells (bs : List Byte) (a x : Nat) (h : a ≤ x) : (cells a bs).get x = bs.getD (x - a) unlisted := by
  induction bs generalizing a with
  | nil => simp [cells, get]
  | cons b bs ih =>
    simp only [cells]
    by_cases hx : x = a
    · subst hx
      split
      · rw [get_none]
        · simp_all
        · intro c hc
          have := cells_mem bs (x + 1) c hc
          omega
      · simp [get]
    · have hd : x - a = x - (a + 1) + 1 := by omega
      split
      · rw [ih (a + 1) (by omega), hd, List.getD_cons_succ]
      · rw [get, if_neg (by simpa using fun h => hx h.symm), ih (a + 1) (by omega), hd, List.getD_cons_succ]

/-- A byte after a write: the byte written inside the range, and as before outside it. -/
theorem get_setBytes (m : Memory) (a : Nat) (bs : List Byte) (x : Nat) (h : m.wf = true) :
    (m.setBytes a bs).get x = if a ≤ x ∧ x < a + bs.length then bs.getD (x - a) unlisted else m.get x := by
  rw [wf_iff] at h
  obtain ⟨hs, -⟩ := h
  unfold setBytes
  by_cases h1 : x < a
  · rw [if_neg (by omega), get_append, get_below m a x hs h1]
    intro c hc
    rcases List.mem_append.1 hc with hc | hc
    · have := cells_mem bs a c hc
      omega
    · have := since_ge m _ hs c hc
      omega
  · rw [get_append_right]
    · by_cases h2 : x < a + bs.length
      · rw [if_pos ⟨by omega, h2⟩, get_append, get_cells bs a x (by omega)]
        intro c hc
        have := since_ge m _ hs c hc
        omega
      · rw [if_neg (by omega), get_append_right, get_since m _ x (by omega)]
        intro c hc
        have := cells_mem bs a c hc
        omega
    · intro c hc
      have := below_lt m a c hc
      omega

/-- A byte outside the bytes written is as before. -/
theorem get_setBytes_other (m : Memory) (a : Nat) (bs : List Byte) (x : Nat) (h : m.wf = true)
    (hx : x < a ∨ a + bs.length ≤ x) : (m.setBytes a bs).get x = m.get x := by
  rw [get_setBytes m a bs x h, if_neg (by omega)]

@[simp] theorem bytes_length (m : Memory) (a n : Nat) : (m.bytes a n).length = n := by
  induction n generalizing m a with
  | zero => rfl
  | succ n ih => simp [bytes, ih]

theorem bytes_succ (m : Memory) (a n : Nat) (h : m.Pairwise (fun c d => c.1 < d.1)) :
    m.bytes a (n + 1) = m.get a :: (m.since a).bytes (a + 1) n := by
  rw [bytes]
  congr 1
  rw [← get_since m a a (Nat.le_refl a)]
  have hs := h.sublist (since_sublist m a)
  have hg := since_ge m a h
  cases hm : m.since a with
  | nil => rfl
  | cons c n =>
    rw [hm] at hs hg
    rw [List.pairwise_cons] at hs
    simp only [get]
    split
    · rfl
    · rw [get_none]
      intro d hd
      have := hs.1 d hd
      have := hg c (by simp)
      omega

/-- Reading a range is reading its bytes. -/
theorem bytes_eq (m : Memory) (a n : Nat) (h : m.wf = true) : m.bytes a n = (List.range n).map fun i => m.get (a + i) := by
  rw [wf_iff] at h
  obtain ⟨hs, -⟩ := h
  induction n generalizing m a with
  | zero => rfl
  | succ n ih =>
    rw [bytes_succ m a n hs, ih _ _ (hs.sublist (since_sublist m a)), List.range_succ_eq_map, List.map_cons, List.map_map]
    congr 1
    apply List.map_congr_left
    intro i _
    rw [get_since m a _ (by omega)]
    simp only [Function.comp]
    congr 1
    omega

/-- A range read back after a write to it. -/
theorem bytes_setBytes_same (m : Memory) (a : Nat) (bs : List Byte) (h : m.wf = true) : (m.setBytes a bs).bytes a bs.length = bs := by
  rw [bytes_eq _ _ _ (setBytes_wf m a bs h)]
  apply List.ext_getElem
  · simp
  · intro i h1 h2
    simp only [List.length_map, List.length_range] at h1
    simp [get_setBytes m a bs _ h, h1]

/-- A range apart from a write reads as before. -/
theorem bytes_setBytes_other (m : Memory) (a : Nat) (bs : List Byte) (x n : Nat) (h : m.wf = true)
    (hx : x + n ≤ a ∨ a + bs.length ≤ x) : (m.setBytes a bs).bytes x n = m.bytes x n := by
  rw [bytes_eq _ _ _ (setBytes_wf m a bs h), bytes_eq _ _ _ h]
  apply List.map_congr_left
  intro i hi
  have := List.mem_range.1 hi
  exact get_setBytes_other m a bs _ h (by omega)

end Sys2Proof.Machine.Memory

namespace Sys2Proof.Machine

@[simp] theorem leBytes_length (n v : Nat) : (leBytes n v).length = n := by
  induction n generalizing v with
  | zero => rfl
  | succ n ih => simp [leBytes, ih]

/-- The little-endian bytes of a value give it back. -/
theorem leNat_leBytes (n v : Nat) : leNat (leBytes n v) = v % 2 ^ (8 * n) := by
  induction n generalizing v with
  | zero => simp [leBytes, leNat, Nat.mod_one]
  | succ n ih =>
    rw [leBytes, leNat, ih, BitVec.toNat_ofNat, show 8 * (n + 1) = 8 + 8 * n by omega, Nat.pow_add, Nat.mod_mul]

@[simp] theorem leWord_wordBytes (w : Word) : leWord (wordBytes w) = w := by
  apply BitVec.eq_of_toNat_eq
  have := w.isLt
  simp only [leWord, wordBytes, leNat_leBytes, BitVec.toNat_ofNat]
  omega

@[simp] theorem leLine_lineToBytes (l : Line) : leLine (lineToBytes l) = l := by
  apply BitVec.eq_of_toNat_eq
  have := l.isLt
  simp only [leLine, lineToBytes, leNat_leBytes, BitVec.toNat_ofNat]
  rw [show 8 * 64 = 512 by rfl, Nat.mod_mod, Nat.mod_eq_of_lt this]

end Sys2Proof.Machine
end

