-- ==== Sys2Proof/Laws/State.lean ====
section
/-!
SUPPORT. What each plain update of the state leaves alone: one lemma per update and field, and what the row writes leave alone.
-/
namespace Sys2Proof.Machine.State

@[simp] theorem setThread_agenda (s : State) (th : Thread) : (s.setThread th).agenda = s.agenda := rfl
@[simp] theorem setThread_fresh (s : State) (th : Thread) : (s.setThread th).fresh = s.fresh := rfl
@[simp] theorem setThread_cur (s : State) (th : Thread) : (s.setThread th).cur = s.cur := rfl
@[simp] theorem setThread_inp (s : State) (th : Thread) : (s.setThread th).inp = s.inp := rfl
@[simp] theorem setThread_touched (s : State) (th : Thread) : (s.setThread th).touched = s.touched := rfl
@[simp] theorem setThread_now (s : State) (th : Thread) : (s.setThread th).now = s.now := rfl
@[simp] theorem setThread_mem (s : State) (th : Thread) : (s.setThread th).mem = s.mem := rfl
@[simp] theorem setThread_hist (s : State) (th : Thread) : (s.setThread th).hist = s.hist := rfl
@[simp] theorem setThread_commits (s : State) (th : Thread) : (s.setThread th).commits = s.commits := rfl
@[simp] theorem setThread_gran (s : State) (th : Thread) : (s.setThread th).gran = s.gran := rfl
@[simp] theorem setThread_tags (s : State) (th : Thread) : (s.setThread th).tags = s.tags := rfl
@[simp] theorem setThread_bad (s : State) (th : Thread) : (s.setThread th).bad = s.bad := rfl
@[simp] theorem setThread_nextId (s : State) (th : Thread) : (s.setThread th).nextId = s.nextId := rfl
@[simp] theorem setThread_shadows (s : State) (th : Thread) : (s.setThread th).shadows = s.shadows := rfl
@[simp] theorem setThread_ctxs (s : State) (th : Thread) : (s.setThread th).ctxs = s.ctxs := rfl
@[simp] theorem setThread_oneSided (s : State) (th : Thread) : (s.setThread th).oneSided = s.oneSided := rfl
@[simp] theorem setThread_counted (s : State) (th : Thread) : (s.setThread th).counted = s.counted := rfl
@[simp] theorem setThread_parts (s : State) (th : Thread) : (s.setThread th).parts = s.parts := rfl
@[simp] theorem setThread_applied (s : State) (th : Thread) : (s.setThread th).applied = s.applied := rfl
@[simp] theorem setThread_syncs (s : State) (th : Thread) : (s.setThread th).syncs = s.syncs := rfl
@[simp] theorem setThread_domains (s : State) (th : Thread) : (s.setThread th).domains = s.domains := rfl
@[simp] theorem setThread_queues (s : State) (th : Thread) : (s.setThread th).queues = s.queues := rfl
@[simp] theorem setThread_tlbs (s : State) (th : Thread) : (s.setThread th).tlbs = s.tlbs := rfl
@[simp] theorem setThread_misses (s : State) (th : Thread) : (s.setThread th).misses = s.misses := rfl
@[simp] theorem setThread_invs (s : State) (th : Thread) : (s.setThread th).invs = s.invs := rfl
@[simp] theorem setThread_bankWins (s : State) (th : Thread) : (s.setThread th).bankWins = s.bankWins := rfl
@[simp] theorem setThread_subs (s : State) (th : Thread) : (s.setThread th).subs = s.subs := rfl
@[simp] theorem setThread_skinks (s : State) (th : Thread) : (s.setThread th).skinks = s.skinks := rfl
@[simp] theorem setThread_dpit (s : State) (th : Thread) : (s.setThread th).dpit = s.dpit := rfl
@[simp] theorem setThread_trackerPool (s : State) (th : Thread) : (s.setThread th).trackerPool = s.trackerPool := rfl
@[simp] theorem setThread_islands (s : State) (th : Thread) : (s.setThread th).islands = s.islands := rfl
@[simp] theorem setThread_boot (s : State) (th : Thread) : (s.setThread th).boot = s.boot := rfl
@[simp] theorem setThread_power (s : State) (th : Thread) : (s.setThread th).power = s.power := rfl
@[simp] theorem setThread_stackRegs (s : State) (th : Thread) : (s.setThread th).stackRegs = s.stackRegs := rfl
@[simp] theorem setThread_tenants (s : State) (th : Thread) : (s.setThread th).tenants = s.tenants := rfl
@[simp] theorem setThread_acl (s : State) (th : Thread) : (s.setThread th).acl = s.acl := rfl
@[simp] theorem setThread_route (s : State) (th : Thread) : (s.setThread th).route = s.route := rfl
@[simp] theorem setThread_clhalt (s : State) (th : Thread) : (s.setThread th).clhalt = s.clhalt := rfl
@[simp] theorem setThread_modid (s : State) (th : Thread) : (s.setThread th).modid = s.modid := rfl
@[simp] theorem setThread_keys (s : State) (th : Thread) : (s.setThread th).keys = s.keys := rfl
@[simp] theorem setThread_farb (s : State) (th : Thread) : (s.setThread th).farb = s.farb := rfl
@[simp] theorem setThread_fars (s : State) (th : Thread) : (s.setThread th).fars = s.fars := rfl
@[simp] theorem setThread_log (s : State) (th : Thread) : (s.setThread th).log = s.log := rfl
@[simp] theorem setThread_msix (s : State) (th : Thread) : (s.setThread th).msix = s.msix := rfl
@[simp] theorem setThread_posted (s : State) (th : Thread) : (s.setThread th).posted = s.posted := rfl
@[simp] theorem setThread_scrub (s : State) (th : Thread) : (s.setThread th).scrub = s.scrub := rfl
@[simp] theorem setThread_receipts (s : State) (th : Thread) : (s.setThread th).receipts = s.receipts := rfl
@[simp] theorem setThread_receiptCount (s : State) (th : Thread) : (s.setThread th).receiptCount = s.receiptCount := rfl
@[simp] theorem setThread_ports (s : State) (th : Thread) : (s.setThread th).ports = s.ports := rfl
@[simp] theorem setThread_remotes (s : State) (th : Thread) : (s.setThread th).remotes = s.remotes := rfl
@[simp] theorem setThread_gates (s : State) (th : Thread) : (s.setThread th).gates = s.gates := rfl
@[simp] theorem setThread_mailbox (s : State) (th : Thread) : (s.setThread th).mailbox = s.mailbox := rfl
@[simp] theorem setThread_hostData (s : State) (th : Thread) : (s.setThread th).hostData = s.hostData := rfl
@[simp] theorem setThread_secured (s : State) (th : Thread) : (s.setThread th).secured = s.secured := rfl
@[simp] theorem setThread_units (s : State) (th : Thread) : (s.setThread th).units = s.units := rfl
@[simp] theorem setThread_flights (s : State) (th : Thread) : (s.setThread th).flights = s.flights := rfl
@[simp] theorem setThread_pageUse (s : State) (th : Thread) : (s.setThread th).pageUse = s.pageUse := rfl
@[simp] theorem setThread_trackerAt (s : State) (th : Thread) : (s.setThread th).trackerAt = s.trackerAt := rfl
@[simp] theorem setThread_hubWrites (s : State) (th : Thread) : (s.setThread th).hubWrites = s.hubWrites := rfl
@[simp] theorem setThread_ringWrites (s : State) (th : Thread) : (s.setThread th).ringWrites = s.ringWrites := rfl
@[simp] theorem setThread_missMail (s : State) (th : Thread) : (s.setThread th).missMail = s.missMail := rfl
@[simp] theorem setThread_dues (s : State) (th : Thread) : (s.setThread th).dues = s.dues := rfl
@[simp] theorem setThread_sideband (s : State) (th : Thread) : (s.setThread th).sideband = s.sideband := rfl
@[simp] theorem setThread_freeRows (s : State) (th : Thread) : (s.setThread th).freeRows = s.freeRows := rfl

@[simp] theorem updThread_agenda (s : State) (id : Nat) (f : Thread → Thread) : (s.updThread id f).agenda = s.agenda := rfl
@[simp] theorem updThread_fresh (s : State) (id : Nat) (f : Thread → Thread) : (s.updThread id f).fresh = s.fresh := rfl
@[simp] theorem updThread_cur (s : State) (id : Nat) (f : Thread → Thread) : (s.updThread id f).cur = s.cur := rfl
@[simp] theorem updThread_inp (s : State) (id : Nat) (f : Thread → Thread) : (s.updThread id f).inp = s.inp := rfl
@[simp] theorem updThread_touched (s : State) (id : Nat) (f : Thread → Thread) : (s.updThread id f).touched = s.touched := rfl
@[simp] theorem updThread_now (s : State) (id : Nat) (f : Thread → Thread) : (s.updThread id f).now = s.now := rfl
@[simp] theorem updThread_mem (s : State) (id : Nat) (f : Thread → Thread) : (s.updThread id f).mem = s.mem := rfl
@[simp] theorem updThread_hist (s : State) (id : Nat) (f : Thread → Thread) : (s.updThread id f).hist = s.hist := rfl
@[simp] theorem updThread_commits (s : State) (id : Nat) (f : Thread → Thread) : (s.updThread id f).commits = s.commits := rfl
@[simp] theorem updThread_gran (s : State) (id : Nat) (f : Thread → Thread) : (s.updThread id f).gran = s.gran := rfl
@[simp] theorem updThread_tags (s : State) (id : Nat) (f : Thread → Thread) : (s.updThread id f).tags = s.tags := rfl
@[simp] theorem updThread_bad (s : State) (id : Nat) (f : Thread → Thread) : (s.updThread id f).bad = s.bad := rfl
@[simp] theorem updThread_nextId (s : State) (id : Nat) (f : Thread → Thread) : (s.updThread id f).nextId = s.nextId := rfl
@[simp] theorem updThread_shadows (s : State) (id : Nat) (f : Thread → Thread) : (s.updThread id f).shadows = s.shadows := rfl
@[simp] theorem updThread_ctxs (s : State) (id : Nat) (f : Thread → Thread) : (s.updThread id f).ctxs = s.ctxs := rfl
@[simp] theorem updThread_oneSided (s : State) (id : Nat) (f : Thread → Thread) : (s.updThread id f).oneSided = s.oneSided := rfl
@[simp] theorem updThread_counted (s : State) (id : Nat) (f : Thread → Thread) : (s.updThread id f).counted = s.counted := rfl
@[simp] theorem updThread_parts (s : State) (id : Nat) (f : Thread → Thread) : (s.updThread id f).parts = s.parts := rfl
@[simp] theorem updThread_applied (s : State) (id : Nat) (f : Thread → Thread) : (s.updThread id f).applied = s.applied := rfl
@[simp] theorem updThread_syncs (s : State) (id : Nat) (f : Thread → Thread) : (s.updThread id f).syncs = s.syncs := rfl
@[simp] theorem updThread_domains (s : State) (id : Nat) (f : Thread → Thread) : (s.updThread id f).domains = s.domains := rfl
@[simp] theorem updThread_queues (s : State) (id : Nat) (f : Thread → Thread) : (s.updThread id f).queues = s.queues := rfl
@[simp] theorem updThread_tlbs (s : State) (id : Nat) (f : Thread → Thread) : (s.updThread id f).tlbs = s.tlbs := rfl
@[simp] theorem updThread_misses (s : State) (id : Nat) (f : Thread → Thread) : (s.updThread id f).misses = s.misses := rfl
@[simp] theorem updThread_invs (s : State) (id : Nat) (f : Thread → Thread) : (s.updThread id f).invs = s.invs := rfl
@[simp] theorem updThread_bankWins (s : State) (id : Nat) (f : Thread → Thread) : (s.updThread id f).bankWins = s.bankWins := rfl
@[simp] theorem updThread_subs (s : State) (id : Nat) (f : Thread → Thread) : (s.updThread id f).subs = s.subs := rfl
@[simp] theorem updThread_skinks (s : State) (id : Nat) (f : Thread → Thread) : (s.updThread id f).skinks = s.skinks := rfl
@[simp] theorem updThread_dpit (s : State) (id : Nat) (f : Thread → Thread) : (s.updThread id f).dpit = s.dpit := rfl
@[simp] theorem updThread_trackerPool (s : State) (id : Nat) (f : Thread → Thread) : (s.updThread id f).trackerPool = s.trackerPool := rfl
@[simp] theorem updThread_islands (s : State) (id : Nat) (f : Thread → Thread) : (s.updThread id f).islands = s.islands := rfl
@[simp] theorem updThread_boot (s : State) (id : Nat) (f : Thread → Thread) : (s.updThread id f).boot = s.boot := rfl
@[simp] theorem updThread_power (s : State) (id : Nat) (f : Thread → Thread) : (s.updThread id f).power = s.power := rfl
@[simp] theorem updThread_stackRegs (s : State) (id : Nat) (f : Thread → Thread) : (s.updThread id f).stackRegs = s.stackRegs := rfl
@[simp] theorem updThread_tenants (s : State) (id : Nat) (f : Thread → Thread) : (s.updThread id f).tenants = s.tenants := rfl
@[simp] theorem updThread_acl (s : State) (id : Nat) (f : Thread → Thread) : (s.updThread id f).acl = s.acl := rfl
@[simp] theorem updThread_route (s : State) (id : Nat) (f : Thread → Thread) : (s.updThread id f).route = s.route := rfl
@[simp] theorem updThread_clhalt (s : State) (id : Nat) (f : Thread → Thread) : (s.updThread id f).clhalt = s.clhalt := rfl
@[simp] theorem updThread_modid (s : State) (id : Nat) (f : Thread → Thread) : (s.updThread id f).modid = s.modid := rfl
@[simp] theorem updThread_keys (s : State) (id : Nat) (f : Thread → Thread) : (s.updThread id f).keys = s.keys := rfl
@[simp] theorem updThread_farb (s : State) (id : Nat) (f : Thread → Thread) : (s.updThread id f).farb = s.farb := rfl
@[simp] theorem updThread_fars (s : State) (id : Nat) (f : Thread → Thread) : (s.updThread id f).fars = s.fars := rfl
@[simp] theorem updThread_log (s : State) (id : Nat) (f : Thread → Thread) : (s.updThread id f).log = s.log := rfl
@[simp] theorem updThread_msix (s : State) (id : Nat) (f : Thread → Thread) : (s.updThread id f).msix = s.msix := rfl
@[simp] theorem updThread_posted (s : State) (id : Nat) (f : Thread → Thread) : (s.updThread id f).posted = s.posted := rfl
@[simp] theorem updThread_scrub (s : State) (id : Nat) (f : Thread → Thread) : (s.updThread id f).scrub = s.scrub := rfl
@[simp] theorem updThread_receipts (s : State) (id : Nat) (f : Thread → Thread) : (s.updThread id f).receipts = s.receipts := rfl
@[simp] theorem updThread_receiptCount (s : State) (id : Nat) (f : Thread → Thread) : (s.updThread id f).receiptCount = s.receiptCount := rfl
@[simp] theorem updThread_ports (s : State) (id : Nat) (f : Thread → Thread) : (s.updThread id f).ports = s.ports := rfl
@[simp] theorem updThread_remotes (s : State) (id : Nat) (f : Thread → Thread) : (s.updThread id f).remotes = s.remotes := rfl
@[simp] theorem updThread_gates (s : State) (id : Nat) (f : Thread → Thread) : (s.updThread id f).gates = s.gates := rfl
@[simp] theorem updThread_mailbox (s : State) (id : Nat) (f : Thread → Thread) : (s.updThread id f).mailbox = s.mailbox := rfl
@[simp] theorem updThread_hostData (s : State) (id : Nat) (f : Thread → Thread) : (s.updThread id f).hostData = s.hostData := rfl
@[simp] theorem updThread_secured (s : State) (id : Nat) (f : Thread → Thread) : (s.updThread id f).secured = s.secured := rfl
@[simp] theorem updThread_units (s : State) (id : Nat) (f : Thread → Thread) : (s.updThread id f).units = s.units := rfl
@[simp] theorem updThread_flights (s : State) (id : Nat) (f : Thread → Thread) : (s.updThread id f).flights = s.flights := rfl
@[simp] theorem updThread_pageUse (s : State) (id : Nat) (f : Thread → Thread) : (s.updThread id f).pageUse = s.pageUse := rfl
@[simp] theorem updThread_trackerAt (s : State) (id : Nat) (f : Thread → Thread) : (s.updThread id f).trackerAt = s.trackerAt := rfl
@[simp] theorem updThread_hubWrites (s : State) (id : Nat) (f : Thread → Thread) : (s.updThread id f).hubWrites = s.hubWrites := rfl
@[simp] theorem updThread_ringWrites (s : State) (id : Nat) (f : Thread → Thread) : (s.updThread id f).ringWrites = s.ringWrites := rfl
@[simp] theorem updThread_missMail (s : State) (id : Nat) (f : Thread → Thread) : (s.updThread id f).missMail = s.missMail := rfl
@[simp] theorem updThread_dues (s : State) (id : Nat) (f : Thread → Thread) : (s.updThread id f).dues = s.dues := rfl
@[simp] theorem updThread_sideband (s : State) (id : Nat) (f : Thread → Thread) : (s.updThread id f).sideband = s.sideband := rfl
@[simp] theorem updThread_freeRows (s : State) (id : Nat) (f : Thread → Thread) : (s.updThread id f).freeRows = s.freeRows := rfl

@[simp] theorem logRec_agenda (s : State) (k : LogKind) (b : List Word) : (s.logRec k b).agenda = s.agenda := rfl
@[simp] theorem logRec_fresh (s : State) (k : LogKind) (b : List Word) : (s.logRec k b).fresh = s.fresh := rfl
@[simp] theorem logRec_cur (s : State) (k : LogKind) (b : List Word) : (s.logRec k b).cur = s.cur := rfl
@[simp] theorem logRec_inp (s : State) (k : LogKind) (b : List Word) : (s.logRec k b).inp = s.inp := rfl
@[simp] theorem logRec_touched (s : State) (k : LogKind) (b : List Word) : (s.logRec k b).touched = s.touched := rfl
@[simp] theorem logRec_now (s : State) (k : LogKind) (b : List Word) : (s.logRec k b).now = s.now := rfl
@[simp] theorem logRec_mem (s : State) (k : LogKind) (b : List Word) : (s.logRec k b).mem = s.mem := rfl
@[simp] theorem logRec_hist (s : State) (k : LogKind) (b : List Word) : (s.logRec k b).hist = s.hist := rfl
@[simp] theorem logRec_commits (s : State) (k : LogKind) (b : List Word) : (s.logRec k b).commits = s.commits := rfl
@[simp] theorem logRec_gran (s : State) (k : LogKind) (b : List Word) : (s.logRec k b).gran = s.gran := rfl
@[simp] theorem logRec_tags (s : State) (k : LogKind) (b : List Word) : (s.logRec k b).tags = s.tags := rfl
@[simp] theorem logRec_bad (s : State) (k : LogKind) (b : List Word) : (s.logRec k b).bad = s.bad := rfl
@[simp] theorem logRec_threads (s : State) (k : LogKind) (b : List Word) : (s.logRec k b).threads = s.threads := rfl
@[simp] theorem logRec_nextId (s : State) (k : LogKind) (b : List Word) : (s.logRec k b).nextId = s.nextId := rfl
@[simp] theorem logRec_shadows (s : State) (k : LogKind) (b : List Word) : (s.logRec k b).shadows = s.shadows := rfl
@[simp] theorem logRec_ctxs (s : State) (k : LogKind) (b : List Word) : (s.logRec k b).ctxs = s.ctxs := rfl
@[simp] theorem logRec_oneSided (s : State) (k : LogKind) (b : List Word) : (s.logRec k b).oneSided = s.oneSided := rfl
@[simp] theorem logRec_counted (s : State) (k : LogKind) (b : List Word) : (s.logRec k b).counted = s.counted := rfl
@[simp] theorem logRec_parts (s : State) (k : LogKind) (b : List Word) : (s.logRec k b).parts = s.parts := rfl
@[simp] theorem logRec_applied (s : State) (k : LogKind) (b : List Word) : (s.logRec k b).applied = s.applied := rfl
@[simp] theorem logRec_syncs (s : State) (k : LogKind) (b : List Word) : (s.logRec k b).syncs = s.syncs := rfl
@[simp] theorem logRec_domains (s : State) (k : LogKind) (b : List Word) : (s.logRec k b).domains = s.domains := rfl
@[simp] theorem logRec_queues (s : State) (k : LogKind) (b : List Word) : (s.logRec k b).queues = s.queues := rfl
@[simp] theorem logRec_tlbs (s : State) (k : LogKind) (b : List Word) : (s.logRec k b).tlbs = s.tlbs := rfl
@[simp] theorem logRec_misses (s : State) (k : LogKind) (b : List Word) : (s.logRec k b).misses = s.misses := rfl
@[simp] theorem logRec_invs (s : State) (k : LogKind) (b : List Word) : (s.logRec k b).invs = s.invs := rfl
@[simp] theorem logRec_bankWins (s : State) (k : LogKind) (b : List Word) : (s.logRec k b).bankWins = s.bankWins := rfl
@[simp] theorem logRec_subs (s : State) (k : LogKind) (b : List Word) : (s.logRec k b).subs = s.subs := rfl
@[simp] theorem logRec_skinks (s : State) (k : LogKind) (b : List Word) : (s.logRec k b).skinks = s.skinks := rfl
@[simp] theorem logRec_dpit (s : State) (k : LogKind) (b : List Word) : (s.logRec k b).dpit = s.dpit := rfl
@[simp] theorem logRec_trackerPool (s : State) (k : LogKind) (b : List Word) : (s.logRec k b).trackerPool = s.trackerPool := rfl
@[simp] theorem logRec_islands (s : State) (k : LogKind) (b : List Word) : (s.logRec k b).islands = s.islands := rfl
@[simp] theorem logRec_boot (s : State) (k : LogKind) (b : List Word) : (s.logRec k b).boot = s.boot := rfl
@[simp] theorem logRec_power (s : State) (k : LogKind) (b : List Word) : (s.logRec k b).power = s.power := rfl
@[simp] theorem logRec_stackRegs (s : State) (k : LogKind) (b : List Word) : (s.logRec k b).stackRegs = s.stackRegs := rfl
@[simp] theorem logRec_tenants (s : State) (k : LogKind) (b : List Word) : (s.logRec k b).tenants = s.tenants := rfl
@[simp] theorem logRec_acl (s : State) (k : LogKind) (b : List Word) : (s.logRec k b).acl = s.acl := rfl
@[simp] theorem logRec_route (s : State) (k : LogKind) (b : List Word) : (s.logRec k b).route = s.route := rfl
@[simp] theorem logRec_clhalt (s : State) (k : LogKind) (b : List Word) : (s.logRec k b).clhalt = s.clhalt := rfl
@[simp] theorem logRec_modid (s : State) (k : LogKind) (b : List Word) : (s.logRec k b).modid = s.modid := rfl
@[simp] theorem logRec_keys (s : State) (k : LogKind) (b : List Word) : (s.logRec k b).keys = s.keys := rfl
@[simp] theorem logRec_farb (s : State) (k : LogKind) (b : List Word) : (s.logRec k b).farb = s.farb := rfl
@[simp] theorem logRec_fars (s : State) (k : LogKind) (b : List Word) : (s.logRec k b).fars = s.fars := rfl
@[simp] theorem logRec_msix (s : State) (k : LogKind) (b : List Word) : (s.logRec k b).msix = s.msix := rfl
@[simp] theorem logRec_posted (s : State) (k : LogKind) (b : List Word) : (s.logRec k b).posted = s.posted := rfl
@[simp] theorem logRec_scrub (s : State) (k : LogKind) (b : List Word) : (s.logRec k b).scrub = s.scrub := rfl
@[simp] theorem logRec_receipts (s : State) (k : LogKind) (b : List Word) : (s.logRec k b).receipts = s.receipts := rfl
@[simp] theorem logRec_receiptCount (s : State) (k : LogKind) (b : List Word) : (s.logRec k b).receiptCount = s.receiptCount := rfl
@[simp] theorem logRec_ports (s : State) (k : LogKind) (b : List Word) : (s.logRec k b).ports = s.ports := rfl
@[simp] theorem logRec_remotes (s : State) (k : LogKind) (b : List Word) : (s.logRec k b).remotes = s.remotes := rfl
@[simp] theorem logRec_gates (s : State) (k : LogKind) (b : List Word) : (s.logRec k b).gates = s.gates := rfl
@[simp] theorem logRec_mailbox (s : State) (k : LogKind) (b : List Word) : (s.logRec k b).mailbox = s.mailbox := rfl
@[simp] theorem logRec_hostData (s : State) (k : LogKind) (b : List Word) : (s.logRec k b).hostData = s.hostData := rfl
@[simp] theorem logRec_secured (s : State) (k : LogKind) (b : List Word) : (s.logRec k b).secured = s.secured := rfl
@[simp] theorem logRec_units (s : State) (k : LogKind) (b : List Word) : (s.logRec k b).units = s.units := rfl
@[simp] theorem logRec_flights (s : State) (k : LogKind) (b : List Word) : (s.logRec k b).flights = s.flights := rfl
@[simp] theorem logRec_pageUse (s : State) (k : LogKind) (b : List Word) : (s.logRec k b).pageUse = s.pageUse := rfl
@[simp] theorem logRec_trackerAt (s : State) (k : LogKind) (b : List Word) : (s.logRec k b).trackerAt = s.trackerAt := rfl
@[simp] theorem logRec_hubWrites (s : State) (k : LogKind) (b : List Word) : (s.logRec k b).hubWrites = s.hubWrites := rfl
@[simp] theorem logRec_ringWrites (s : State) (k : LogKind) (b : List Word) : (s.logRec k b).ringWrites = s.ringWrites := rfl
@[simp] theorem logRec_missMail (s : State) (k : LogKind) (b : List Word) : (s.logRec k b).missMail = s.missMail := rfl
@[simp] theorem logRec_dues (s : State) (k : LogKind) (b : List Word) : (s.logRec k b).dues = s.dues := rfl
@[simp] theorem logRec_sideband (s : State) (k : LogKind) (b : List Word) : (s.logRec k b).sideband = s.sideband := rfl
@[simp] theorem logRec_freeRows (s : State) (k : LogKind) (b : List Word) : (s.logRec k b).freeRows = s.freeRows := rfl

@[simp] theorem setTenant_agenda (s : State) (t : Tenant) : (s.setTenant t).agenda = s.agenda := rfl
@[simp] theorem setTenant_fresh (s : State) (t : Tenant) : (s.setTenant t).fresh = s.fresh := rfl
@[simp] theorem setTenant_cur (s : State) (t : Tenant) : (s.setTenant t).cur = s.cur := rfl
@[simp] theorem setTenant_inp (s : State) (t : Tenant) : (s.setTenant t).inp = s.inp := rfl
@[simp] theorem setTenant_touched (s : State) (t : Tenant) : (s.setTenant t).touched = s.touched := rfl
@[simp] theorem setTenant_now (s : State) (t : Tenant) : (s.setTenant t).now = s.now := rfl
@[simp] theorem setTenant_mem (s : State) (t : Tenant) : (s.setTenant t).mem = s.mem := rfl
@[simp] theorem setTenant_hist (s : State) (t : Tenant) : (s.setTenant t).hist = s.hist := rfl
@[simp] theorem setTenant_commits (s : State) (t : Tenant) : (s.setTenant t).commits = s.commits := rfl
@[simp] theorem setTenant_gran (s : State) (t : Tenant) : (s.setTenant t).gran = s.gran := rfl
@[simp] theorem setTenant_tags (s : State) (t : Tenant) : (s.setTenant t).tags = s.tags := rfl
@[simp] theorem setTenant_bad (s : State) (t : Tenant) : (s.setTenant t).bad = s.bad := rfl
@[simp] theorem setTenant_threads (s : State) (t : Tenant) : (s.setTenant t).threads = s.threads := rfl
@[simp] theorem setTenant_nextId (s : State) (t : Tenant) : (s.setTenant t).nextId = s.nextId := rfl
@[simp] theorem setTenant_shadows (s : State) (t : Tenant) : (s.setTenant t).shadows = s.shadows := rfl
@[simp] theorem setTenant_ctxs (s : State) (t : Tenant) : (s.setTenant t).ctxs = s.ctxs := rfl
@[simp] theorem setTenant_oneSided (s : State) (t : Tenant) : (s.setTenant t).oneSided = s.oneSided := rfl
@[simp] theorem setTenant_counted (s : State) (t : Tenant) : (s.setTenant t).counted = s.counted := rfl
@[simp] theorem setTenant_parts (s : State) (t : Tenant) : (s.setTenant t).parts = s.parts := rfl
@[simp] theorem setTenant_applied (s : State) (t : Tenant) : (s.setTenant t).applied = s.applied := rfl
@[simp] theorem setTenant_syncs (s : State) (t : Tenant) : (s.setTenant t).syncs = s.syncs := rfl
@[simp] theorem setTenant_domains (s : State) (t : Tenant) : (s.setTenant t).domains = s.domains := rfl
@[simp] theorem setTenant_queues (s : State) (t : Tenant) : (s.setTenant t).queues = s.queues := rfl
@[simp] theorem setTenant_tlbs (s : State) (t : Tenant) : (s.setTenant t).tlbs = s.tlbs := rfl
@[simp] theorem setTenant_misses (s : State) (t : Tenant) : (s.setTenant t).misses = s.misses := rfl
@[simp] theorem setTenant_invs (s : State) (t : Tenant) : (s.setTenant t).invs = s.invs := rfl
@[simp] theorem setTenant_bankWins (s : State) (t : Tenant) : (s.setTenant t).bankWins = s.bankWins := rfl
@[simp] theorem setTenant_subs (s : State) (t : Tenant) : (s.setTenant t).subs = s.subs := rfl
@[simp] theorem setTenant_skinks (s : State) (t : Tenant) : (s.setTenant t).skinks = s.skinks := rfl
@[simp] theorem setTenant_dpit (s : State) (t : Tenant) : (s.setTenant t).dpit = s.dpit := rfl
@[simp] theorem setTenant_trackerPool (s : State) (t : Tenant) : (s.setTenant t).trackerPool = s.trackerPool := rfl
@[simp] theorem setTenant_islands (s : State) (t : Tenant) : (s.setTenant t).islands = s.islands := rfl
@[simp] theorem setTenant_boot (s : State) (t : Tenant) : (s.setTenant t).boot = s.boot := rfl
@[simp] theorem setTenant_power (s : State) (t : Tenant) : (s.setTenant t).power = s.power := rfl
@[simp] theorem setTenant_stackRegs (s : State) (t : Tenant) : (s.setTenant t).stackRegs = s.stackRegs := rfl
@[simp] theorem setTenant_acl (s : State) (t : Tenant) : (s.setTenant t).acl = s.acl := rfl
@[simp] theorem setTenant_route (s : State) (t : Tenant) : (s.setTenant t).route = s.route := rfl
@[simp] theorem setTenant_clhalt (s : State) (t : Tenant) : (s.setTenant t).clhalt = s.clhalt := rfl
@[simp] theorem setTenant_modid (s : State) (t : Tenant) : (s.setTenant t).modid = s.modid := rfl
@[simp] theorem setTenant_keys (s : State) (t : Tenant) : (s.setTenant t).keys = s.keys := rfl
@[simp] theorem setTenant_farb (s : State) (t : Tenant) : (s.setTenant t).farb = s.farb := rfl
@[simp] theorem setTenant_fars (s : State) (t : Tenant) : (s.setTenant t).fars = s.fars := rfl
@[simp] theorem setTenant_log (s : State) (t : Tenant) : (s.setTenant t).log = s.log := rfl
@[simp] theorem setTenant_msix (s : State) (t : Tenant) : (s.setTenant t).msix = s.msix := rfl
@[simp] theorem setTenant_posted (s : State) (t : Tenant) : (s.setTenant t).posted = s.posted := rfl
@[simp] theorem setTenant_scrub (s : State) (t : Tenant) : (s.setTenant t).scrub = s.scrub := rfl
@[simp] theorem setTenant_receipts (s : State) (t : Tenant) : (s.setTenant t).receipts = s.receipts := rfl
@[simp] theorem setTenant_receiptCount (s : State) (t : Tenant) : (s.setTenant t).receiptCount = s.receiptCount := rfl
@[simp] theorem setTenant_ports (s : State) (t : Tenant) : (s.setTenant t).ports = s.ports := rfl
@[simp] theorem setTenant_remotes (s : State) (t : Tenant) : (s.setTenant t).remotes = s.remotes := rfl
@[simp] theorem setTenant_gates (s : State) (t : Tenant) : (s.setTenant t).gates = s.gates := rfl
@[simp] theorem setTenant_mailbox (s : State) (t : Tenant) : (s.setTenant t).mailbox = s.mailbox := rfl
@[simp] theorem setTenant_hostData (s : State) (t : Tenant) : (s.setTenant t).hostData = s.hostData := rfl
@[simp] theorem setTenant_secured (s : State) (t : Tenant) : (s.setTenant t).secured = s.secured := rfl
@[simp] theorem setTenant_units (s : State) (t : Tenant) : (s.setTenant t).units = s.units := rfl
@[simp] theorem setTenant_flights (s : State) (t : Tenant) : (s.setTenant t).flights = s.flights := rfl
@[simp] theorem setTenant_pageUse (s : State) (t : Tenant) : (s.setTenant t).pageUse = s.pageUse := rfl
@[simp] theorem setTenant_trackerAt (s : State) (t : Tenant) : (s.setTenant t).trackerAt = s.trackerAt := rfl
@[simp] theorem setTenant_hubWrites (s : State) (t : Tenant) : (s.setTenant t).hubWrites = s.hubWrites := rfl
@[simp] theorem setTenant_ringWrites (s : State) (t : Tenant) : (s.setTenant t).ringWrites = s.ringWrites := rfl
@[simp] theorem setTenant_missMail (s : State) (t : Tenant) : (s.setTenant t).missMail = s.missMail := rfl
@[simp] theorem setTenant_dues (s : State) (t : Tenant) : (s.setTenant t).dues = s.dues := rfl
@[simp] theorem setTenant_sideband (s : State) (t : Tenant) : (s.setTenant t).sideband = s.sideband := rfl
@[simp] theorem setTenant_freeRows (s : State) (t : Tenant) : (s.setTenant t).freeRows = s.freeRows := rfl

@[simp] theorem enqueue_agenda (s : State) (id : Nat) (e : OQEntry) : (s.enqueue id e).agenda = s.agenda := rfl
@[simp] theorem enqueue_fresh (s : State) (id : Nat) (e : OQEntry) : (s.enqueue id e).fresh = s.fresh := rfl
@[simp] theorem enqueue_cur (s : State) (id : Nat) (e : OQEntry) : (s.enqueue id e).cur = s.cur := rfl
@[simp] theorem enqueue_inp (s : State) (id : Nat) (e : OQEntry) : (s.enqueue id e).inp = s.inp := rfl
@[simp] theorem enqueue_touched (s : State) (id : Nat) (e : OQEntry) : (s.enqueue id e).touched = s.touched := rfl
@[simp] theorem enqueue_now (s : State) (id : Nat) (e : OQEntry) : (s.enqueue id e).now = s.now := rfl
@[simp] theorem enqueue_mem (s : State) (id : Nat) (e : OQEntry) : (s.enqueue id e).mem = s.mem := rfl
@[simp] theorem enqueue_hist (s : State) (id : Nat) (e : OQEntry) : (s.enqueue id e).hist = s.hist := rfl
@[simp] theorem enqueue_commits (s : State) (id : Nat) (e : OQEntry) : (s.enqueue id e).commits = s.commits := rfl
@[simp] theorem enqueue_gran (s : State) (id : Nat) (e : OQEntry) : (s.enqueue id e).gran = s.gran := rfl
@[simp] theorem enqueue_tags (s : State) (id : Nat) (e : OQEntry) : (s.enqueue id e).tags = s.tags := rfl
@[simp] theorem enqueue_bad (s : State) (id : Nat) (e : OQEntry) : (s.enqueue id e).bad = s.bad := rfl
@[simp] theorem enqueue_nextId (s : State) (id : Nat) (e : OQEntry) : (s.enqueue id e).nextId = s.nextId := rfl
@[simp] theorem enqueue_shadows (s : State) (id : Nat) (e : OQEntry) : (s.enqueue id e).shadows = s.shadows := rfl
@[simp] theorem enqueue_ctxs (s : State) (id : Nat) (e : OQEntry) : (s.enqueue id e).ctxs = s.ctxs := rfl
@[simp] theorem enqueue_oneSided (s : State) (id : Nat) (e : OQEntry) : (s.enqueue id e).oneSided = s.oneSided := rfl
@[simp] theorem enqueue_counted (s : State) (id : Nat) (e : OQEntry) : (s.enqueue id e).counted = s.counted := rfl
@[simp] theorem enqueue_parts (s : State) (id : Nat) (e : OQEntry) : (s.enqueue id e).parts = s.parts := rfl
@[simp] theorem enqueue_applied (s : State) (id : Nat) (e : OQEntry) : (s.enqueue id e).applied = s.applied := rfl
@[simp] theorem enqueue_syncs (s : State) (id : Nat) (e : OQEntry) : (s.enqueue id e).syncs = s.syncs := rfl
@[simp] theorem enqueue_domains (s : State) (id : Nat) (e : OQEntry) : (s.enqueue id e).domains = s.domains := rfl
@[simp] theorem enqueue_queues (s : State) (id : Nat) (e : OQEntry) : (s.enqueue id e).queues = s.queues := rfl
@[simp] theorem enqueue_tlbs (s : State) (id : Nat) (e : OQEntry) : (s.enqueue id e).tlbs = s.tlbs := rfl
@[simp] theorem enqueue_misses (s : State) (id : Nat) (e : OQEntry) : (s.enqueue id e).misses = s.misses := rfl
@[simp] theorem enqueue_invs (s : State) (id : Nat) (e : OQEntry) : (s.enqueue id e).invs = s.invs := rfl
@[simp] theorem enqueue_bankWins (s : State) (id : Nat) (e : OQEntry) : (s.enqueue id e).bankWins = s.bankWins := rfl
@[simp] theorem enqueue_subs (s : State) (id : Nat) (e : OQEntry) : (s.enqueue id e).subs = s.subs := rfl
@[simp] theorem enqueue_skinks (s : State) (id : Nat) (e : OQEntry) : (s.enqueue id e).skinks = s.skinks := rfl
@[simp] theorem enqueue_dpit (s : State) (id : Nat) (e : OQEntry) : (s.enqueue id e).dpit = s.dpit := rfl
@[simp] theorem enqueue_trackerPool (s : State) (id : Nat) (e : OQEntry) : (s.enqueue id e).trackerPool = s.trackerPool := rfl
@[simp] theorem enqueue_islands (s : State) (id : Nat) (e : OQEntry) : (s.enqueue id e).islands = s.islands := rfl
@[simp] theorem enqueue_boot (s : State) (id : Nat) (e : OQEntry) : (s.enqueue id e).boot = s.boot := rfl
@[simp] theorem enqueue_power (s : State) (id : Nat) (e : OQEntry) : (s.enqueue id e).power = s.power := rfl
@[simp] theorem enqueue_stackRegs (s : State) (id : Nat) (e : OQEntry) : (s.enqueue id e).stackRegs = s.stackRegs := rfl
@[simp] theorem enqueue_tenants (s : State) (id : Nat) (e : OQEntry) : (s.enqueue id e).tenants = s.tenants := rfl
@[simp] theorem enqueue_acl (s : State) (id : Nat) (e : OQEntry) : (s.enqueue id e).acl = s.acl := rfl
@[simp] theorem enqueue_route (s : State) (id : Nat) (e : OQEntry) : (s.enqueue id e).route = s.route := rfl
@[simp] theorem enqueue_clhalt (s : State) (id : Nat) (e : OQEntry) : (s.enqueue id e).clhalt = s.clhalt := rfl
@[simp] theorem enqueue_modid (s : State) (id : Nat) (e : OQEntry) : (s.enqueue id e).modid = s.modid := rfl
@[simp] theorem enqueue_keys (s : State) (id : Nat) (e : OQEntry) : (s.enqueue id e).keys = s.keys := rfl
@[simp] theorem enqueue_farb (s : State) (id : Nat) (e : OQEntry) : (s.enqueue id e).farb = s.farb := rfl
@[simp] theorem enqueue_fars (s : State) (id : Nat) (e : OQEntry) : (s.enqueue id e).fars = s.fars := rfl
@[simp] theorem enqueue_log (s : State) (id : Nat) (e : OQEntry) : (s.enqueue id e).log = s.log := rfl
@[simp] theorem enqueue_msix (s : State) (id : Nat) (e : OQEntry) : (s.enqueue id e).msix = s.msix := rfl
@[simp] theorem enqueue_posted (s : State) (id : Nat) (e : OQEntry) : (s.enqueue id e).posted = s.posted := rfl
@[simp] theorem enqueue_scrub (s : State) (id : Nat) (e : OQEntry) : (s.enqueue id e).scrub = s.scrub := rfl
@[simp] theorem enqueue_receipts (s : State) (id : Nat) (e : OQEntry) : (s.enqueue id e).receipts = s.receipts := rfl
@[simp] theorem enqueue_receiptCount (s : State) (id : Nat) (e : OQEntry) : (s.enqueue id e).receiptCount = s.receiptCount := rfl
@[simp] theorem enqueue_ports (s : State) (id : Nat) (e : OQEntry) : (s.enqueue id e).ports = s.ports := rfl
@[simp] theorem enqueue_remotes (s : State) (id : Nat) (e : OQEntry) : (s.enqueue id e).remotes = s.remotes := rfl
@[simp] theorem enqueue_gates (s : State) (id : Nat) (e : OQEntry) : (s.enqueue id e).gates = s.gates := rfl
@[simp] theorem enqueue_mailbox (s : State) (id : Nat) (e : OQEntry) : (s.enqueue id e).mailbox = s.mailbox := rfl
@[simp] theorem enqueue_hostData (s : State) (id : Nat) (e : OQEntry) : (s.enqueue id e).hostData = s.hostData := rfl
@[simp] theorem enqueue_secured (s : State) (id : Nat) (e : OQEntry) : (s.enqueue id e).secured = s.secured := rfl
@[simp] theorem enqueue_units (s : State) (id : Nat) (e : OQEntry) : (s.enqueue id e).units = s.units := rfl
@[simp] theorem enqueue_flights (s : State) (id : Nat) (e : OQEntry) : (s.enqueue id e).flights = s.flights := rfl
@[simp] theorem enqueue_pageUse (s : State) (id : Nat) (e : OQEntry) : (s.enqueue id e).pageUse = s.pageUse := rfl
@[simp] theorem enqueue_trackerAt (s : State) (id : Nat) (e : OQEntry) : (s.enqueue id e).trackerAt = s.trackerAt := rfl
@[simp] theorem enqueue_hubWrites (s : State) (id : Nat) (e : OQEntry) : (s.enqueue id e).hubWrites = s.hubWrites := rfl
@[simp] theorem enqueue_ringWrites (s : State) (id : Nat) (e : OQEntry) : (s.enqueue id e).ringWrites = s.ringWrites := rfl
@[simp] theorem enqueue_missMail (s : State) (id : Nat) (e : OQEntry) : (s.enqueue id e).missMail = s.missMail := rfl
@[simp] theorem enqueue_dues (s : State) (id : Nat) (e : OQEntry) : (s.enqueue id e).dues = s.dues := rfl
@[simp] theorem enqueue_sideband (s : State) (id : Nat) (e : OQEntry) : (s.enqueue id e).sideband = s.sideband := rfl
@[simp] theorem enqueue_freeRows (s : State) (id : Nat) (e : OQEntry) : (s.enqueue id e).freeRows = s.freeRows := rfl

@[simp] theorem setTag_agenda (s : State) (row : Nat) (t : RowTag) : (s.setTag row t).agenda = s.agenda := rfl
@[simp] theorem setTag_fresh (s : State) (row : Nat) (t : RowTag) : (s.setTag row t).fresh = s.fresh := rfl
@[simp] theorem setTag_cur (s : State) (row : Nat) (t : RowTag) : (s.setTag row t).cur = s.cur := rfl
@[simp] theorem setTag_inp (s : State) (row : Nat) (t : RowTag) : (s.setTag row t).inp = s.inp := rfl
@[simp] theorem setTag_touched (s : State) (row : Nat) (t : RowTag) : (s.setTag row t).touched = s.touched := rfl
@[simp] theorem setTag_now (s : State) (row : Nat) (t : RowTag) : (s.setTag row t).now = s.now := rfl
@[simp] theorem setTag_mem (s : State) (row : Nat) (t : RowTag) : (s.setTag row t).mem = s.mem := rfl
@[simp] theorem setTag_hist (s : State) (row : Nat) (t : RowTag) : (s.setTag row t).hist = s.hist := rfl
@[simp] theorem setTag_commits (s : State) (row : Nat) (t : RowTag) : (s.setTag row t).commits = s.commits := rfl
@[simp] theorem setTag_gran (s : State) (row : Nat) (t : RowTag) : (s.setTag row t).gran = s.gran := rfl
@[simp] theorem setTag_bad (s : State) (row : Nat) (t : RowTag) : (s.setTag row t).bad = s.bad := rfl
@[simp] theorem setTag_threads (s : State) (row : Nat) (t : RowTag) : (s.setTag row t).threads = s.threads := rfl
@[simp] theorem setTag_nextId (s : State) (row : Nat) (t : RowTag) : (s.setTag row t).nextId = s.nextId := rfl
@[simp] theorem setTag_shadows (s : State) (row : Nat) (t : RowTag) : (s.setTag row t).shadows = s.shadows := rfl
@[simp] theorem setTag_ctxs (s : State) (row : Nat) (t : RowTag) : (s.setTag row t).ctxs = s.ctxs := rfl
@[simp] theorem setTag_oneSided (s : State) (row : Nat) (t : RowTag) : (s.setTag row t).oneSided = s.oneSided := rfl
@[simp] theorem setTag_counted (s : State) (row : Nat) (t : RowTag) : (s.setTag row t).counted = s.counted := rfl
@[simp] theorem setTag_parts (s : State) (row : Nat) (t : RowTag) : (s.setTag row t).parts = s.parts := rfl
@[simp] theorem setTag_applied (s : State) (row : Nat) (t : RowTag) : (s.setTag row t).applied = s.applied := rfl
@[simp] theorem setTag_syncs (s : State) (row : Nat) (t : RowTag) : (s.setTag row t).syncs = s.syncs := rfl
@[simp] theorem setTag_domains (s : State) (row : Nat) (t : RowTag) : (s.setTag row t).domains = s.domains := rfl
@[simp] theorem setTag_queues (s : State) (row : Nat) (t : RowTag) : (s.setTag row t).queues = s.queues := rfl
@[simp] theorem setTag_tlbs (s : State) (row : Nat) (t : RowTag) : (s.setTag row t).tlbs = s.tlbs := rfl
@[simp] theorem setTag_misses (s : State) (row : Nat) (t : RowTag) : (s.setTag row t).misses = s.misses := rfl
@[simp] theorem setTag_invs (s : State) (row : Nat) (t : RowTag) : (s.setTag row t).invs = s.invs := rfl
@[simp] theorem setTag_bankWins (s : State) (row : Nat) (t : RowTag) : (s.setTag row t).bankWins = s.bankWins := rfl
@[simp] theorem setTag_subs (s : State) (row : Nat) (t : RowTag) : (s.setTag row t).subs = s.subs := rfl
@[simp] theorem setTag_skinks (s : State) (row : Nat) (t : RowTag) : (s.setTag row t).skinks = s.skinks := rfl
@[simp] theorem setTag_dpit (s : State) (row : Nat) (t : RowTag) : (s.setTag row t).dpit = s.dpit := rfl
@[simp] theorem setTag_trackerPool (s : State) (row : Nat) (t : RowTag) : (s.setTag row t).trackerPool = s.trackerPool := rfl
@[simp] theorem setTag_islands (s : State) (row : Nat) (t : RowTag) : (s.setTag row t).islands = s.islands := rfl
@[simp] theorem setTag_boot (s : State) (row : Nat) (t : RowTag) : (s.setTag row t).boot = s.boot := rfl
@[simp] theorem setTag_power (s : State) (row : Nat) (t : RowTag) : (s.setTag row t).power = s.power := rfl
@[simp] theorem setTag_stackRegs (s : State) (row : Nat) (t : RowTag) : (s.setTag row t).stackRegs = s.stackRegs := rfl
@[simp] theorem setTag_tenants (s : State) (row : Nat) (t : RowTag) : (s.setTag row t).tenants = s.tenants := rfl
@[simp] theorem setTag_acl (s : State) (row : Nat) (t : RowTag) : (s.setTag row t).acl = s.acl := rfl
@[simp] theorem setTag_route (s : State) (row : Nat) (t : RowTag) : (s.setTag row t).route = s.route := rfl
@[simp] theorem setTag_clhalt (s : State) (row : Nat) (t : RowTag) : (s.setTag row t).clhalt = s.clhalt := rfl
@[simp] theorem setTag_modid (s : State) (row : Nat) (t : RowTag) : (s.setTag row t).modid = s.modid := rfl
@[simp] theorem setTag_keys (s : State) (row : Nat) (t : RowTag) : (s.setTag row t).keys = s.keys := rfl
@[simp] theorem setTag_farb (s : State) (row : Nat) (t : RowTag) : (s.setTag row t).farb = s.farb := rfl
@[simp] theorem setTag_fars (s : State) (row : Nat) (t : RowTag) : (s.setTag row t).fars = s.fars := rfl
@[simp] theorem setTag_log (s : State) (row : Nat) (t : RowTag) : (s.setTag row t).log = s.log := rfl
@[simp] theorem setTag_msix (s : State) (row : Nat) (t : RowTag) : (s.setTag row t).msix = s.msix := rfl
@[simp] theorem setTag_posted (s : State) (row : Nat) (t : RowTag) : (s.setTag row t).posted = s.posted := rfl
@[simp] theorem setTag_scrub (s : State) (row : Nat) (t : RowTag) : (s.setTag row t).scrub = s.scrub := rfl
@[simp] theorem setTag_receipts (s : State) (row : Nat) (t : RowTag) : (s.setTag row t).receipts = s.receipts := rfl
@[simp] theorem setTag_receiptCount (s : State) (row : Nat) (t : RowTag) : (s.setTag row t).receiptCount = s.receiptCount := rfl
@[simp] theorem setTag_ports (s : State) (row : Nat) (t : RowTag) : (s.setTag row t).ports = s.ports := rfl
@[simp] theorem setTag_remotes (s : State) (row : Nat) (t : RowTag) : (s.setTag row t).remotes = s.remotes := rfl
@[simp] theorem setTag_gates (s : State) (row : Nat) (t : RowTag) : (s.setTag row t).gates = s.gates := rfl
@[simp] theorem setTag_mailbox (s : State) (row : Nat) (t : RowTag) : (s.setTag row t).mailbox = s.mailbox := rfl
@[simp] theorem setTag_hostData (s : State) (row : Nat) (t : RowTag) : (s.setTag row t).hostData = s.hostData := rfl
@[simp] theorem setTag_secured (s : State) (row : Nat) (t : RowTag) : (s.setTag row t).secured = s.secured := rfl
@[simp] theorem setTag_units (s : State) (row : Nat) (t : RowTag) : (s.setTag row t).units = s.units := rfl
@[simp] theorem setTag_flights (s : State) (row : Nat) (t : RowTag) : (s.setTag row t).flights = s.flights := rfl
@[simp] theorem setTag_pageUse (s : State) (row : Nat) (t : RowTag) : (s.setTag row t).pageUse = s.pageUse := rfl
@[simp] theorem setTag_trackerAt (s : State) (row : Nat) (t : RowTag) : (s.setTag row t).trackerAt = s.trackerAt := rfl
@[simp] theorem setTag_hubWrites (s : State) (row : Nat) (t : RowTag) : (s.setTag row t).hubWrites = s.hubWrites := rfl
@[simp] theorem setTag_ringWrites (s : State) (row : Nat) (t : RowTag) : (s.setTag row t).ringWrites = s.ringWrites := rfl
@[simp] theorem setTag_missMail (s : State) (row : Nat) (t : RowTag) : (s.setTag row t).missMail = s.missMail := rfl
@[simp] theorem setTag_dues (s : State) (row : Nat) (t : RowTag) : (s.setTag row t).dues = s.dues := rfl
@[simp] theorem setTag_sideband (s : State) (row : Nat) (t : RowTag) : (s.setTag row t).sideband = s.sideband := rfl
@[simp] theorem setTag_freeRows (s : State) (row : Nat) (t : RowTag) : (s.setTag row t).freeRows = s.freeRows := rfl

@[simp] theorem setQueue_agenda (s : State) (q : Queue) (items : List Word) : (s.setQueue q items).agenda = s.agenda := rfl
@[simp] theorem setQueue_fresh (s : State) (q : Queue) (items : List Word) : (s.setQueue q items).fresh = s.fresh := rfl
@[simp] theorem setQueue_cur (s : State) (q : Queue) (items : List Word) : (s.setQueue q items).cur = s.cur := rfl
@[simp] theorem setQueue_inp (s : State) (q : Queue) (items : List Word) : (s.setQueue q items).inp = s.inp := rfl
@[simp] theorem setQueue_touched (s : State) (q : Queue) (items : List Word) : (s.setQueue q items).touched = s.touched := rfl
@[simp] theorem setQueue_now (s : State) (q : Queue) (items : List Word) : (s.setQueue q items).now = s.now := rfl
@[simp] theorem setQueue_mem (s : State) (q : Queue) (items : List Word) : (s.setQueue q items).mem = s.mem := rfl
@[simp] theorem setQueue_hist (s : State) (q : Queue) (items : List Word) : (s.setQueue q items).hist = s.hist := rfl
@[simp] theorem setQueue_commits (s : State) (q : Queue) (items : List Word) : (s.setQueue q items).commits = s.commits := rfl
@[simp] theorem setQueue_gran (s : State) (q : Queue) (items : List Word) : (s.setQueue q items).gran = s.gran := rfl
@[simp] theorem setQueue_tags (s : State) (q : Queue) (items : List Word) : (s.setQueue q items).tags = s.tags := rfl
@[simp] theorem setQueue_bad (s : State) (q : Queue) (items : List Word) : (s.setQueue q items).bad = s.bad := rfl
@[simp] theorem setQueue_threads (s : State) (q : Queue) (items : List Word) : (s.setQueue q items).threads = s.threads := rfl
@[simp] theorem setQueue_nextId (s : State) (q : Queue) (items : List Word) : (s.setQueue q items).nextId = s.nextId := rfl
@[simp] theorem setQueue_shadows (s : State) (q : Queue) (items : List Word) : (s.setQueue q items).shadows = s.shadows := rfl
@[simp] theorem setQueue_ctxs (s : State) (q : Queue) (items : List Word) : (s.setQueue q items).ctxs = s.ctxs := rfl
@[simp] theorem setQueue_oneSided (s : State) (q : Queue) (items : List Word) : (s.setQueue q items).oneSided = s.oneSided := rfl
@[simp] theorem setQueue_counted (s : State) (q : Queue) (items : List Word) : (s.setQueue q items).counted = s.counted := rfl
@[simp] theorem setQueue_parts (s : State) (q : Queue) (items : List Word) : (s.setQueue q items).parts = s.parts := rfl
@[simp] theorem setQueue_applied (s : State) (q : Queue) (items : List Word) : (s.setQueue q items).applied = s.applied := rfl
@[simp] theorem setQueue_syncs (s : State) (q : Queue) (items : List Word) : (s.setQueue q items).syncs = s.syncs := rfl
@[simp] theorem setQueue_domains (s : State) (q : Queue) (items : List Word) : (s.setQueue q items).domains = s.domains := rfl
@[simp] theorem setQueue_tlbs (s : State) (q : Queue) (items : List Word) : (s.setQueue q items).tlbs = s.tlbs := rfl
@[simp] theorem setQueue_misses (s : State) (q : Queue) (items : List Word) : (s.setQueue q items).misses = s.misses := rfl
@[simp] theorem setQueue_invs (s : State) (q : Queue) (items : List Word) : (s.setQueue q items).invs = s.invs := rfl
@[simp] theorem setQueue_bankWins (s : State) (q : Queue) (items : List Word) : (s.setQueue q items).bankWins = s.bankWins := rfl
@[simp] theorem setQueue_subs (s : State) (q : Queue) (items : List Word) : (s.setQueue q items).subs = s.subs := rfl
@[simp] theorem setQueue_skinks (s : State) (q : Queue) (items : List Word) : (s.setQueue q items).skinks = s.skinks := rfl
@[simp] theorem setQueue_dpit (s : State) (q : Queue) (items : List Word) : (s.setQueue q items).dpit = s.dpit := rfl
@[simp] theorem setQueue_trackerPool (s : State) (q : Queue) (items : List Word) : (s.setQueue q items).trackerPool = s.trackerPool := rfl
@[simp] theorem setQueue_islands (s : State) (q : Queue) (items : List Word) : (s.setQueue q items).islands = s.islands := rfl
@[simp] theorem setQueue_boot (s : State) (q : Queue) (items : List Word) : (s.setQueue q items).boot = s.boot := rfl
@[simp] theorem setQueue_power (s : State) (q : Queue) (items : List Word) : (s.setQueue q items).power = s.power := rfl
@[simp] theorem setQueue_stackRegs (s : State) (q : Queue) (items : List Word) : (s.setQueue q items).stackRegs = s.stackRegs := rfl
@[simp] theorem setQueue_tenants (s : State) (q : Queue) (items : List Word) : (s.setQueue q items).tenants = s.tenants := rfl
@[simp] theorem setQueue_acl (s : State) (q : Queue) (items : List Word) : (s.setQueue q items).acl = s.acl := rfl
@[simp] theorem setQueue_route (s : State) (q : Queue) (items : List Word) : (s.setQueue q items).route = s.route := rfl
@[simp] theorem setQueue_clhalt (s : State) (q : Queue) (items : List Word) : (s.setQueue q items).clhalt = s.clhalt := rfl
@[simp] theorem setQueue_modid (s : State) (q : Queue) (items : List Word) : (s.setQueue q items).modid = s.modid := rfl
@[simp] theorem setQueue_keys (s : State) (q : Queue) (items : List Word) : (s.setQueue q items).keys = s.keys := rfl
@[simp] theorem setQueue_farb (s : State) (q : Queue) (items : List Word) : (s.setQueue q items).farb = s.farb := rfl
@[simp] theorem setQueue_fars (s : State) (q : Queue) (items : List Word) : (s.setQueue q items).fars = s.fars := rfl
@[simp] theorem setQueue_log (s : State) (q : Queue) (items : List Word) : (s.setQueue q items).log = s.log := rfl
@[simp] theorem setQueue_msix (s : State) (q : Queue) (items : List Word) : (s.setQueue q items).msix = s.msix := rfl
@[simp] theorem setQueue_posted (s : State) (q : Queue) (items : List Word) : (s.setQueue q items).posted = s.posted := rfl
@[simp] theorem setQueue_scrub (s : State) (q : Queue) (items : List Word) : (s.setQueue q items).scrub = s.scrub := rfl
@[simp] theorem setQueue_receipts (s : State) (q : Queue) (items : List Word) : (s.setQueue q items).receipts = s.receipts := rfl
@[simp] theorem setQueue_receiptCount (s : State) (q : Queue) (items : List Word) : (s.setQueue q items).receiptCount = s.receiptCount := rfl
@[simp] theorem setQueue_ports (s : State) (q : Queue) (items : List Word) : (s.setQueue q items).ports = s.ports := rfl
@[simp] theorem setQueue_remotes (s : State) (q : Queue) (items : List Word) : (s.setQueue q items).remotes = s.remotes := rfl
@[simp] theorem setQueue_gates (s : State) (q : Queue) (items : List Word) : (s.setQueue q items).gates = s.gates := rfl
@[simp] theorem setQueue_mailbox (s : State) (q : Queue) (items : List Word) : (s.setQueue q items).mailbox = s.mailbox := rfl
@[simp] theorem setQueue_hostData (s : State) (q : Queue) (items : List Word) : (s.setQueue q items).hostData = s.hostData := rfl
@[simp] theorem setQueue_secured (s : State) (q : Queue) (items : List Word) : (s.setQueue q items).secured = s.secured := rfl
@[simp] theorem setQueue_units (s : State) (q : Queue) (items : List Word) : (s.setQueue q items).units = s.units := rfl
@[simp] theorem setQueue_flights (s : State) (q : Queue) (items : List Word) : (s.setQueue q items).flights = s.flights := rfl
@[simp] theorem setQueue_pageUse (s : State) (q : Queue) (items : List Word) : (s.setQueue q items).pageUse = s.pageUse := rfl
@[simp] theorem setQueue_trackerAt (s : State) (q : Queue) (items : List Word) : (s.setQueue q items).trackerAt = s.trackerAt := rfl
@[simp] theorem setQueue_hubWrites (s : State) (q : Queue) (items : List Word) : (s.setQueue q items).hubWrites = s.hubWrites := rfl
@[simp] theorem setQueue_ringWrites (s : State) (q : Queue) (items : List Word) : (s.setQueue q items).ringWrites = s.ringWrites := rfl
@[simp] theorem setQueue_missMail (s : State) (q : Queue) (items : List Word) : (s.setQueue q items).missMail = s.missMail := rfl
@[simp] theorem setQueue_dues (s : State) (q : Queue) (items : List Word) : (s.setQueue q items).dues = s.dues := rfl
@[simp] theorem setQueue_sideband (s : State) (q : Queue) (items : List Word) : (s.setQueue q items).sideband = s.sideband := rfl
@[simp] theorem setQueue_freeRows (s : State) (q : Queue) (items : List Word) : (s.setQueue q items).freeRows = s.freeRows := rfl

@[simp] theorem newVersion_agenda (s : State) (l c : Nat) : (s.newVersion l c).agenda = s.agenda := by unfold newVersion; split <;> rfl
@[simp] theorem newVersion_fresh (s : State) (l c : Nat) : (s.newVersion l c).fresh = s.fresh := by unfold newVersion; split <;> rfl
@[simp] theorem newVersion_cur (s : State) (l c : Nat) : (s.newVersion l c).cur = s.cur := by unfold newVersion; split <;> rfl
@[simp] theorem newVersion_inp (s : State) (l c : Nat) : (s.newVersion l c).inp = s.inp := by unfold newVersion; split <;> rfl
@[simp] theorem newVersion_now (s : State) (l c : Nat) : (s.newVersion l c).now = s.now := by unfold newVersion; split <;> rfl
@[simp] theorem newVersion_mem (s : State) (l c : Nat) : (s.newVersion l c).mem = s.mem := by unfold newVersion; split <;> rfl
@[simp] theorem newVersion_commits (s : State) (l c : Nat) : (s.newVersion l c).commits = s.commits := by unfold newVersion; split <;> rfl
@[simp] theorem newVersion_gran (s : State) (l c : Nat) : (s.newVersion l c).gran = s.gran := by unfold newVersion; split <;> rfl
@[simp] theorem newVersion_tags (s : State) (l c : Nat) : (s.newVersion l c).tags = s.tags := by unfold newVersion; split <;> rfl
@[simp] theorem newVersion_bad (s : State) (l c : Nat) : (s.newVersion l c).bad = s.bad := by unfold newVersion; split <;> rfl
@[simp] theorem newVersion_threads (s : State) (l c : Nat) : (s.newVersion l c).threads = s.threads := by unfold newVersion; split <;> rfl
@[simp] theorem newVersion_nextId (s : State) (l c : Nat) : (s.newVersion l c).nextId = s.nextId := by unfold newVersion; split <;> rfl
@[simp] theorem newVersion_shadows (s : State) (l c : Nat) : (s.newVersion l c).shadows = s.shadows := by unfold newVersion; split <;> rfl
@[simp] theorem newVersion_ctxs (s : State) (l c : Nat) : (s.newVersion l c).ctxs = s.ctxs := by unfold newVersion; split <;> rfl
@[simp] theorem newVersion_oneSided (s : State) (l c : Nat) : (s.newVersion l c).oneSided = s.oneSided := by unfold newVersion; split <;> rfl
@[simp] theorem newVersion_counted (s : State) (l c : Nat) : (s.newVersion l c).counted = s.counted := by unfold newVersion; split <;> rfl
@[simp] theorem newVersion_parts (s : State) (l c : Nat) : (s.newVersion l c).parts = s.parts := by unfold newVersion; split <;> rfl
@[simp] theorem newVersion_applied (s : State) (l c : Nat) : (s.newVersion l c).applied = s.applied := by unfold newVersion; split <;> rfl
@[simp] theorem newVersion_syncs (s : State) (l c : Nat) : (s.newVersion l c).syncs = s.syncs := by unfold newVersion; split <;> rfl
@[simp] theorem newVersion_domains (s : State) (l c : Nat) : (s.newVersion l c).domains = s.domains := by unfold newVersion; split <;> rfl
@[simp] theorem newVersion_queues (s : State) (l c : Nat) : (s.newVersion l c).queues = s.queues := by unfold newVersion; split <;> rfl
@[simp] theorem newVersion_tlbs (s : State) (l c : Nat) : (s.newVersion l c).tlbs = s.tlbs := by unfold newVersion; split <;> rfl
@[simp] theorem newVersion_misses (s : State) (l c : Nat) : (s.newVersion l c).misses = s.misses := by unfold newVersion; split <;> rfl
@[simp] theorem newVersion_invs (s : State) (l c : Nat) : (s.newVersion l c).invs = s.invs := by unfold newVersion; split <;> rfl
@[simp] theorem newVersion_bankWins (s : State) (l c : Nat) : (s.newVersion l c).bankWins = s.bankWins := by unfold newVersion; split <;> rfl
@[simp] theorem newVersion_subs (s : State) (l c : Nat) : (s.newVersion l c).subs = s.subs := by unfold newVersion; split <;> rfl
@[simp] theorem newVersion_skinks (s : State) (l c : Nat) : (s.newVersion l c).skinks = s.skinks := by unfold newVersion; split <;> rfl
@[simp] theorem newVersion_dpit (s : State) (l c : Nat) : (s.newVersion l c).dpit = s.dpit := by unfold newVersion; split <;> rfl
@[simp] theorem newVersion_trackerPool (s : State) (l c : Nat) : (s.newVersion l c).trackerPool = s.trackerPool := by unfold newVersion; split <;> rfl
@[simp] theorem newVersion_islands (s : State) (l c : Nat) : (s.newVersion l c).islands = s.islands := by unfold newVersion; split <;> rfl
@[simp] theorem newVersion_boot (s : State) (l c : Nat) : (s.newVersion l c).boot = s.boot := by unfold newVersion; split <;> rfl
@[simp] theorem newVersion_power (s : State) (l c : Nat) : (s.newVersion l c).power = s.power := by unfold newVersion; split <;> rfl
@[simp] theorem newVersion_stackRegs (s : State) (l c : Nat) : (s.newVersion l c).stackRegs = s.stackRegs := by unfold newVersion; split <;> rfl
@[simp] theorem newVersion_tenants (s : State) (l c : Nat) : (s.newVersion l c).tenants = s.tenants := by unfold newVersion; split <;> rfl
@[simp] theorem newVersion_acl (s : State) (l c : Nat) : (s.newVersion l c).acl = s.acl := by unfold newVersion; split <;> rfl
@[simp] theorem newVersion_route (s : State) (l c : Nat) : (s.newVersion l c).route = s.route := by unfold newVersion; split <;> rfl
@[simp] theorem newVersion_clhalt (s : State) (l c : Nat) : (s.newVersion l c).clhalt = s.clhalt := by unfold newVersion; split <;> rfl
@[simp] theorem newVersion_modid (s : State) (l c : Nat) : (s.newVersion l c).modid = s.modid := by unfold newVersion; split <;> rfl
@[simp] theorem newVersion_keys (s : State) (l c : Nat) : (s.newVersion l c).keys = s.keys := by unfold newVersion; split <;> rfl
@[simp] theorem newVersion_farb (s : State) (l c : Nat) : (s.newVersion l c).farb = s.farb := by unfold newVersion; split <;> rfl
@[simp] theorem newVersion_fars (s : State) (l c : Nat) : (s.newVersion l c).fars = s.fars := by unfold newVersion; split <;> rfl
@[simp] theorem newVersion_log (s : State) (l c : Nat) : (s.newVersion l c).log = s.log := by unfold newVersion; split <;> rfl
@[simp] theorem newVersion_msix (s : State) (l c : Nat) : (s.newVersion l c).msix = s.msix := by unfold newVersion; split <;> rfl
@[simp] theorem newVersion_posted (s : State) (l c : Nat) : (s.newVersion l c).posted = s.posted := by unfold newVersion; split <;> rfl
@[simp] theorem newVersion_scrub (s : State) (l c : Nat) : (s.newVersion l c).scrub = s.scrub := by unfold newVersion; split <;> rfl
@[simp] theorem newVersion_receipts (s : State) (l c : Nat) : (s.newVersion l c).receipts = s.receipts := by unfold newVersion; split <;> rfl
@[simp] theorem newVersion_receiptCount (s : State) (l c : Nat) : (s.newVersion l c).receiptCount = s.receiptCount := by unfold newVersion; split <;> rfl
@[simp] theorem newVersion_ports (s : State) (l c : Nat) : (s.newVersion l c).ports = s.ports := by unfold newVersion; split <;> rfl
@[simp] theorem newVersion_remotes (s : State) (l c : Nat) : (s.newVersion l c).remotes = s.remotes := by unfold newVersion; split <;> rfl
@[simp] theorem newVersion_gates (s : State) (l c : Nat) : (s.newVersion l c).gates = s.gates := by unfold newVersion; split <;> rfl
@[simp] theorem newVersion_mailbox (s : State) (l c : Nat) : (s.newVersion l c).mailbox = s.mailbox := by unfold newVersion; split <;> rfl
@[simp] theorem newVersion_hostData (s : State) (l c : Nat) : (s.newVersion l c).hostData = s.hostData := by unfold newVersion; split <;> rfl
@[simp] theorem newVersion_secured (s : State) (l c : Nat) : (s.newVersion l c).secured = s.secured := by unfold newVersion; split <;> rfl
@[simp] theorem newVersion_units (s : State) (l c : Nat) : (s.newVersion l c).units = s.units := by unfold newVersion; split <;> rfl
@[simp] theorem newVersion_flights (s : State) (l c : Nat) : (s.newVersion l c).flights = s.flights := by unfold newVersion; split <;> rfl
@[simp] theorem newVersion_pageUse (s : State) (l c : Nat) : (s.newVersion l c).pageUse = s.pageUse := by unfold newVersion; split <;> rfl
@[simp] theorem newVersion_trackerAt (s : State) (l c : Nat) : (s.newVersion l c).trackerAt = s.trackerAt := by unfold newVersion; split <;> rfl
@[simp] theorem newVersion_hubWrites (s : State) (l c : Nat) : (s.newVersion l c).hubWrites = s.hubWrites := by unfold newVersion; split <;> rfl
@[simp] theorem newVersion_ringWrites (s : State) (l c : Nat) : (s.newVersion l c).ringWrites = s.ringWrites := by unfold newVersion; split <;> rfl
@[simp] theorem newVersion_missMail (s : State) (l c : Nat) : (s.newVersion l c).missMail = s.missMail := by unfold newVersion; split <;> rfl
@[simp] theorem newVersion_dues (s : State) (l c : Nat) : (s.newVersion l c).dues = s.dues := by unfold newVersion; split <;> rfl
@[simp] theorem newVersion_sideband (s : State) (l c : Nat) : (s.newVersion l c).sideband = s.sideband := by unfold newVersion; split <;> rfl
@[simp] theorem newVersion_freeRows (s : State) (l c : Nat) : (s.newVersion l c).freeRows = s.freeRows := by unfold newVersion; split <;> rfl

@[simp] theorem poke_agenda (s : State) (a : Nat) (bs : List Byte) : (s.poke a bs).agenda = s.agenda := by simp [poke]
@[simp] theorem poke_fresh (s : State) (a : Nat) (bs : List Byte) : (s.poke a bs).fresh = s.fresh := by simp [poke]
@[simp] theorem poke_cur (s : State) (a : Nat) (bs : List Byte) : (s.poke a bs).cur = s.cur := by simp [poke]
@[simp] theorem poke_inp (s : State) (a : Nat) (bs : List Byte) : (s.poke a bs).inp = s.inp := by simp [poke]
@[simp] theorem poke_now (s : State) (a : Nat) (bs : List Byte) : (s.poke a bs).now = s.now := by simp [poke]
@[simp] theorem poke_commits (s : State) (a : Nat) (bs : List Byte) : (s.poke a bs).commits = s.commits := by simp [poke]
@[simp] theorem poke_gran (s : State) (a : Nat) (bs : List Byte) : (s.poke a bs).gran = s.gran := by simp [poke]
@[simp] theorem poke_tags (s : State) (a : Nat) (bs : List Byte) : (s.poke a bs).tags = s.tags := by simp [poke]
@[simp] theorem poke_bad (s : State) (a : Nat) (bs : List Byte) : (s.poke a bs).bad = s.bad := by simp [poke]
@[simp] theorem poke_threads (s : State) (a : Nat) (bs : List Byte) : (s.poke a bs).threads = s.threads := by simp [poke]
@[simp] theorem poke_nextId (s : State) (a : Nat) (bs : List Byte) : (s.poke a bs).nextId = s.nextId := by simp [poke]
@[simp] theorem poke_shadows (s : State) (a : Nat) (bs : List Byte) : (s.poke a bs).shadows = s.shadows := by simp [poke]
@[simp] theorem poke_ctxs (s : State) (a : Nat) (bs : List Byte) : (s.poke a bs).ctxs = s.ctxs := by simp [poke]
@[simp] theorem poke_oneSided (s : State) (a : Nat) (bs : List Byte) : (s.poke a bs).oneSided = s.oneSided := by simp [poke]
@[simp] theorem poke_counted (s : State) (a : Nat) (bs : List Byte) : (s.poke a bs).counted = s.counted := by simp [poke]
@[simp] theorem poke_parts (s : State) (a : Nat) (bs : List Byte) : (s.poke a bs).parts = s.parts := by simp [poke]
@[simp] theorem poke_applied (s : State) (a : Nat) (bs : List Byte) : (s.poke a bs).applied = s.applied := by simp [poke]
@[simp] theorem poke_syncs (s : State) (a : Nat) (bs : List Byte) : (s.poke a bs).syncs = s.syncs := by simp [poke]
@[simp] theorem poke_domains (s : State) (a : Nat) (bs : List Byte) : (s.poke a bs).domains = s.domains := by simp [poke]
@[simp] theorem poke_queues (s : State) (a : Nat) (bs : List Byte) : (s.poke a bs).queues = s.queues := by simp [poke]
@[simp] theorem poke_tlbs (s : State) (a : Nat) (bs : List Byte) : (s.poke a bs).tlbs = s.tlbs := by simp [poke]
@[simp] theorem poke_misses (s : State) (a : Nat) (bs : List Byte) : (s.poke a bs).misses = s.misses := by simp [poke]
@[simp] theorem poke_invs (s : State) (a : Nat) (bs : List Byte) : (s.poke a bs).invs = s.invs := by simp [poke]
@[simp] theorem poke_bankWins (s : State) (a : Nat) (bs : List Byte) : (s.poke a bs).bankWins = s.bankWins := by simp [poke]
@[simp] theorem poke_subs (s : State) (a : Nat) (bs : List Byte) : (s.poke a bs).subs = s.subs := by simp [poke]
@[simp] theorem poke_skinks (s : State) (a : Nat) (bs : List Byte) : (s.poke a bs).skinks = s.skinks := by simp [poke]
@[simp] theorem poke_dpit (s : State) (a : Nat) (bs : List Byte) : (s.poke a bs).dpit = s.dpit := by simp [poke]
@[simp] theorem poke_trackerPool (s : State) (a : Nat) (bs : List Byte) : (s.poke a bs).trackerPool = s.trackerPool := by simp [poke]
@[simp] theorem poke_islands (s : State) (a : Nat) (bs : List Byte) : (s.poke a bs).islands = s.islands := by simp [poke]
@[simp] theorem poke_boot (s : State) (a : Nat) (bs : List Byte) : (s.poke a bs).boot = s.boot := by simp [poke]
@[simp] theorem poke_power (s : State) (a : Nat) (bs : List Byte) : (s.poke a bs).power = s.power := by simp [poke]
@[simp] theorem poke_stackRegs (s : State) (a : Nat) (bs : List Byte) : (s.poke a bs).stackRegs = s.stackRegs := by simp [poke]
@[simp] theorem poke_tenants (s : State) (a : Nat) (bs : List Byte) : (s.poke a bs).tenants = s.tenants := by simp [poke]
@[simp] theorem poke_acl (s : State) (a : Nat) (bs : List Byte) : (s.poke a bs).acl = s.acl := by simp [poke]
@[simp] theorem poke_route (s : State) (a : Nat) (bs : List Byte) : (s.poke a bs).route = s.route := by simp [poke]
@[simp] theorem poke_clhalt (s : State) (a : Nat) (bs : List Byte) : (s.poke a bs).clhalt = s.clhalt := by simp [poke]
@[simp] theorem poke_modid (s : State) (a : Nat) (bs : List Byte) : (s.poke a bs).modid = s.modid := by simp [poke]
@[simp] theorem poke_keys (s : State) (a : Nat) (bs : List Byte) : (s.poke a bs).keys = s.keys := by simp [poke]
@[simp] theorem poke_farb (s : State) (a : Nat) (bs : List Byte) : (s.poke a bs).farb = s.farb := by simp [poke]
@[simp] theorem poke_fars (s : State) (a : Nat) (bs : List Byte) : (s.poke a bs).fars = s.fars := by simp [poke]
@[simp] theorem poke_log (s : State) (a : Nat) (bs : List Byte) : (s.poke a bs).log = s.log := by simp [poke]
@[simp] theorem poke_msix (s : State) (a : Nat) (bs : List Byte) : (s.poke a bs).msix = s.msix := by simp [poke]
@[simp] theorem poke_posted (s : State) (a : Nat) (bs : List Byte) : (s.poke a bs).posted = s.posted := by simp [poke]
@[simp] theorem poke_scrub (s : State) (a : Nat) (bs : List Byte) : (s.poke a bs).scrub = s.scrub := by simp [poke]
@[simp] theorem poke_receipts (s : State) (a : Nat) (bs : List Byte) : (s.poke a bs).receipts = s.receipts := by simp [poke]
@[simp] theorem poke_receiptCount (s : State) (a : Nat) (bs : List Byte) : (s.poke a bs).receiptCount = s.receiptCount := by simp [poke]
@[simp] theorem poke_ports (s : State) (a : Nat) (bs : List Byte) : (s.poke a bs).ports = s.ports := by simp [poke]
@[simp] theorem poke_remotes (s : State) (a : Nat) (bs : List Byte) : (s.poke a bs).remotes = s.remotes := by simp [poke]
@[simp] theorem poke_gates (s : State) (a : Nat) (bs : List Byte) : (s.poke a bs).gates = s.gates := by simp [poke]
@[simp] theorem poke_mailbox (s : State) (a : Nat) (bs : List Byte) : (s.poke a bs).mailbox = s.mailbox := by simp [poke]
@[simp] theorem poke_hostData (s : State) (a : Nat) (bs : List Byte) : (s.poke a bs).hostData = s.hostData := by simp [poke]
@[simp] theorem poke_secured (s : State) (a : Nat) (bs : List Byte) : (s.poke a bs).secured = s.secured := by simp [poke]
@[simp] theorem poke_units (s : State) (a : Nat) (bs : List Byte) : (s.poke a bs).units = s.units := by simp [poke]
@[simp] theorem poke_flights (s : State) (a : Nat) (bs : List Byte) : (s.poke a bs).flights = s.flights := by simp [poke]
@[simp] theorem poke_pageUse (s : State) (a : Nat) (bs : List Byte) : (s.poke a bs).pageUse = s.pageUse := by simp [poke]
@[simp] theorem poke_trackerAt (s : State) (a : Nat) (bs : List Byte) : (s.poke a bs).trackerAt = s.trackerAt := by simp [poke]
@[simp] theorem poke_hubWrites (s : State) (a : Nat) (bs : List Byte) : (s.poke a bs).hubWrites = s.hubWrites := by simp [poke]
@[simp] theorem poke_ringWrites (s : State) (a : Nat) (bs : List Byte) : (s.poke a bs).ringWrites = s.ringWrites := by simp [poke]
@[simp] theorem poke_missMail (s : State) (a : Nat) (bs : List Byte) : (s.poke a bs).missMail = s.missMail := by simp [poke]
@[simp] theorem poke_dues (s : State) (a : Nat) (bs : List Byte) : (s.poke a bs).dues = s.dues := by simp [poke]
@[simp] theorem poke_sideband (s : State) (a : Nat) (bs : List Byte) : (s.poke a bs).sideband = s.sideband := by simp [poke]
@[simp] theorem poke_freeRows (s : State) (a : Nat) (bs : List Byte) : (s.poke a bs).freeRows = s.freeRows := by simp [poke]
@[simp] theorem poke_mem (s : State) (a : Nat) (bs : List Byte) : (s.poke a bs).mem = s.mem.setBytes a bs := by simp [poke]

@[simp] theorem pokeWord_agenda (s : State) (a : Nat) (w : Word) : (s.pokeWord a w).agenda = s.agenda := by simp [pokeWord]
@[simp] theorem pokeWord_fresh (s : State) (a : Nat) (w : Word) : (s.pokeWord a w).fresh = s.fresh := by simp [pokeWord]
@[simp] theorem pokeWord_cur (s : State) (a : Nat) (w : Word) : (s.pokeWord a w).cur = s.cur := by simp [pokeWord]
@[simp] theorem pokeWord_inp (s : State) (a : Nat) (w : Word) : (s.pokeWord a w).inp = s.inp := by simp [pokeWord]
@[simp] theorem pokeWord_now (s : State) (a : Nat) (w : Word) : (s.pokeWord a w).now = s.now := by simp [pokeWord]
@[simp] theorem pokeWord_commits (s : State) (a : Nat) (w : Word) : (s.pokeWord a w).commits = s.commits := by simp [pokeWord]
@[simp] theorem pokeWord_gran (s : State) (a : Nat) (w : Word) : (s.pokeWord a w).gran = s.gran := by simp [pokeWord]
@[simp] theorem pokeWord_tags (s : State) (a : Nat) (w : Word) : (s.pokeWord a w).tags = s.tags := by simp [pokeWord]
@[simp] theorem pokeWord_bad (s : State) (a : Nat) (w : Word) : (s.pokeWord a w).bad = s.bad := by simp [pokeWord]
@[simp] theorem pokeWord_threads (s : State) (a : Nat) (w : Word) : (s.pokeWord a w).threads = s.threads := by simp [pokeWord]
@[simp] theorem pokeWord_nextId (s : State) (a : Nat) (w : Word) : (s.pokeWord a w).nextId = s.nextId := by simp [pokeWord]
@[simp] theorem pokeWord_shadows (s : State) (a : Nat) (w : Word) : (s.pokeWord a w).shadows = s.shadows := by simp [pokeWord]
@[simp] theorem pokeWord_ctxs (s : State) (a : Nat) (w : Word) : (s.pokeWord a w).ctxs = s.ctxs := by simp [pokeWord]
@[simp] theorem pokeWord_oneSided (s : State) (a : Nat) (w : Word) : (s.pokeWord a w).oneSided = s.oneSided := by simp [pokeWord]
@[simp] theorem pokeWord_counted (s : State) (a : Nat) (w : Word) : (s.pokeWord a w).counted = s.counted := by simp [pokeWord]
@[simp] theorem pokeWord_parts (s : State) (a : Nat) (w : Word) : (s.pokeWord a w).parts = s.parts := by simp [pokeWord]
@[simp] theorem pokeWord_applied (s : State) (a : Nat) (w : Word) : (s.pokeWord a w).applied = s.applied := by simp [pokeWord]
@[simp] theorem pokeWord_syncs (s : State) (a : Nat) (w : Word) : (s.pokeWord a w).syncs = s.syncs := by simp [pokeWord]
@[simp] theorem pokeWord_domains (s : State) (a : Nat) (w : Word) : (s.pokeWord a w).domains = s.domains := by simp [pokeWord]
@[simp] theorem pokeWord_queues (s : State) (a : Nat) (w : Word) : (s.pokeWord a w).queues = s.queues := by simp [pokeWord]
@[simp] theorem pokeWord_tlbs (s : State) (a : Nat) (w : Word) : (s.pokeWord a w).tlbs = s.tlbs := by simp [pokeWord]
@[simp] theorem pokeWord_misses (s : State) (a : Nat) (w : Word) : (s.pokeWord a w).misses = s.misses := by simp [pokeWord]
@[simp] theorem pokeWord_invs (s : State) (a : Nat) (w : Word) : (s.pokeWord a w).invs = s.invs := by simp [pokeWord]
@[simp] theorem pokeWord_bankWins (s : State) (a : Nat) (w : Word) : (s.pokeWord a w).bankWins = s.bankWins := by simp [pokeWord]
@[simp] theorem pokeWord_subs (s : State) (a : Nat) (w : Word) : (s.pokeWord a w).subs = s.subs := by simp [pokeWord]
@[simp] theorem pokeWord_skinks (s : State) (a : Nat) (w : Word) : (s.pokeWord a w).skinks = s.skinks := by simp [pokeWord]
@[simp] theorem pokeWord_dpit (s : State) (a : Nat) (w : Word) : (s.pokeWord a w).dpit = s.dpit := by simp [pokeWord]
@[simp] theorem pokeWord_trackerPool (s : State) (a : Nat) (w : Word) : (s.pokeWord a w).trackerPool = s.trackerPool := by simp [pokeWord]
@[simp] theorem pokeWord_islands (s : State) (a : Nat) (w : Word) : (s.pokeWord a w).islands = s.islands := by simp [pokeWord]
@[simp] theorem pokeWord_boot (s : State) (a : Nat) (w : Word) : (s.pokeWord a w).boot = s.boot := by simp [pokeWord]
@[simp] theorem pokeWord_power (s : State) (a : Nat) (w : Word) : (s.pokeWord a w).power = s.power := by simp [pokeWord]
@[simp] theorem pokeWord_stackRegs (s : State) (a : Nat) (w : Word) : (s.pokeWord a w).stackRegs = s.stackRegs := by simp [pokeWord]
@[simp] theorem pokeWord_tenants (s : State) (a : Nat) (w : Word) : (s.pokeWord a w).tenants = s.tenants := by simp [pokeWord]
@[simp] theorem pokeWord_acl (s : State) (a : Nat) (w : Word) : (s.pokeWord a w).acl = s.acl := by simp [pokeWord]
@[simp] theorem pokeWord_route (s : State) (a : Nat) (w : Word) : (s.pokeWord a w).route = s.route := by simp [pokeWord]
@[simp] theorem pokeWord_clhalt (s : State) (a : Nat) (w : Word) : (s.pokeWord a w).clhalt = s.clhalt := by simp [pokeWord]
@[simp] theorem pokeWord_modid (s : State) (a : Nat) (w : Word) : (s.pokeWord a w).modid = s.modid := by simp [pokeWord]
@[simp] theorem pokeWord_keys (s : State) (a : Nat) (w : Word) : (s.pokeWord a w).keys = s.keys := by simp [pokeWord]
@[simp] theorem pokeWord_farb (s : State) (a : Nat) (w : Word) : (s.pokeWord a w).farb = s.farb := by simp [pokeWord]
@[simp] theorem pokeWord_fars (s : State) (a : Nat) (w : Word) : (s.pokeWord a w).fars = s.fars := by simp [pokeWord]
@[simp] theorem pokeWord_log (s : State) (a : Nat) (w : Word) : (s.pokeWord a w).log = s.log := by simp [pokeWord]
@[simp] theorem pokeWord_msix (s : State) (a : Nat) (w : Word) : (s.pokeWord a w).msix = s.msix := by simp [pokeWord]
@[simp] theorem pokeWord_posted (s : State) (a : Nat) (w : Word) : (s.pokeWord a w).posted = s.posted := by simp [pokeWord]
@[simp] theorem pokeWord_scrub (s : State) (a : Nat) (w : Word) : (s.pokeWord a w).scrub = s.scrub := by simp [pokeWord]
@[simp] theorem pokeWord_receipts (s : State) (a : Nat) (w : Word) : (s.pokeWord a w).receipts = s.receipts := by simp [pokeWord]
@[simp] theorem pokeWord_receiptCount (s : State) (a : Nat) (w : Word) : (s.pokeWord a w).receiptCount = s.receiptCount := by simp [pokeWord]
@[simp] theorem pokeWord_ports (s : State) (a : Nat) (w : Word) : (s.pokeWord a w).ports = s.ports := by simp [pokeWord]
@[simp] theorem pokeWord_remotes (s : State) (a : Nat) (w : Word) : (s.pokeWord a w).remotes = s.remotes := by simp [pokeWord]
@[simp] theorem pokeWord_gates (s : State) (a : Nat) (w : Word) : (s.pokeWord a w).gates = s.gates := by simp [pokeWord]
@[simp] theorem pokeWord_mailbox (s : State) (a : Nat) (w : Word) : (s.pokeWord a w).mailbox = s.mailbox := by simp [pokeWord]
@[simp] theorem pokeWord_hostData (s : State) (a : Nat) (w : Word) : (s.pokeWord a w).hostData = s.hostData := by simp [pokeWord]
@[simp] theorem pokeWord_secured (s : State) (a : Nat) (w : Word) : (s.pokeWord a w).secured = s.secured := by simp [pokeWord]
@[simp] theorem pokeWord_units (s : State) (a : Nat) (w : Word) : (s.pokeWord a w).units = s.units := by simp [pokeWord]
@[simp] theorem pokeWord_flights (s : State) (a : Nat) (w : Word) : (s.pokeWord a w).flights = s.flights := by simp [pokeWord]
@[simp] theorem pokeWord_pageUse (s : State) (a : Nat) (w : Word) : (s.pokeWord a w).pageUse = s.pageUse := by simp [pokeWord]
@[simp] theorem pokeWord_trackerAt (s : State) (a : Nat) (w : Word) : (s.pokeWord a w).trackerAt = s.trackerAt := by simp [pokeWord]
@[simp] theorem pokeWord_hubWrites (s : State) (a : Nat) (w : Word) : (s.pokeWord a w).hubWrites = s.hubWrites := by simp [pokeWord]
@[simp] theorem pokeWord_ringWrites (s : State) (a : Nat) (w : Word) : (s.pokeWord a w).ringWrites = s.ringWrites := by simp [pokeWord]
@[simp] theorem pokeWord_missMail (s : State) (a : Nat) (w : Word) : (s.pokeWord a w).missMail = s.missMail := by simp [pokeWord]
@[simp] theorem pokeWord_dues (s : State) (a : Nat) (w : Word) : (s.pokeWord a w).dues = s.dues := by simp [pokeWord]
@[simp] theorem pokeWord_sideband (s : State) (a : Nat) (w : Word) : (s.pokeWord a w).sideband = s.sideband := by simp [pokeWord]
@[simp] theorem pokeWord_freeRows (s : State) (a : Nat) (w : Word) : (s.pokeWord a w).freeRows = s.freeRows := by simp [pokeWord]

@[simp] theorem setCtrl_agenda (s : State) (row k lo n v : Nat) : (s.setCtrl row k lo n v).agenda = s.agenda := by simp [setCtrl]
@[simp] theorem setCtrl_fresh (s : State) (row k lo n v : Nat) : (s.setCtrl row k lo n v).fresh = s.fresh := by simp [setCtrl]
@[simp] theorem setCtrl_cur (s : State) (row k lo n v : Nat) : (s.setCtrl row k lo n v).cur = s.cur := by simp [setCtrl]
@[simp] theorem setCtrl_inp (s : State) (row k lo n v : Nat) : (s.setCtrl row k lo n v).inp = s.inp := by simp [setCtrl]
@[simp] theorem setCtrl_now (s : State) (row k lo n v : Nat) : (s.setCtrl row k lo n v).now = s.now := by simp [setCtrl]
@[simp] theorem setCtrl_commits (s : State) (row k lo n v : Nat) : (s.setCtrl row k lo n v).commits = s.commits := by simp [setCtrl]
@[simp] theorem setCtrl_gran (s : State) (row k lo n v : Nat) : (s.setCtrl row k lo n v).gran = s.gran := by simp [setCtrl]
@[simp] theorem setCtrl_tags (s : State) (row k lo n v : Nat) : (s.setCtrl row k lo n v).tags = s.tags := by simp [setCtrl]
@[simp] theorem setCtrl_bad (s : State) (row k lo n v : Nat) : (s.setCtrl row k lo n v).bad = s.bad := by simp [setCtrl]
@[simp] theorem setCtrl_threads (s : State) (row k lo n v : Nat) : (s.setCtrl row k lo n v).threads = s.threads := by simp [setCtrl]
@[simp] theorem setCtrl_nextId (s : State) (row k lo n v : Nat) : (s.setCtrl row k lo n v).nextId = s.nextId := by simp [setCtrl]
@[simp] theorem setCtrl_shadows (s : State) (row k lo n v : Nat) : (s.setCtrl row k lo n v).shadows = s.shadows := by simp [setCtrl]
@[simp] theorem setCtrl_ctxs (s : State) (row k lo n v : Nat) : (s.setCtrl row k lo n v).ctxs = s.ctxs := by simp [setCtrl]
@[simp] theorem setCtrl_oneSided (s : State) (row k lo n v : Nat) : (s.setCtrl row k lo n v).oneSided = s.oneSided := by simp [setCtrl]
@[simp] theorem setCtrl_counted (s : State) (row k lo n v : Nat) : (s.setCtrl row k lo n v).counted = s.counted := by simp [setCtrl]
@[simp] theorem setCtrl_parts (s : State) (row k lo n v : Nat) : (s.setCtrl row k lo n v).parts = s.parts := by simp [setCtrl]
@[simp] theorem setCtrl_applied (s : State) (row k lo n v : Nat) : (s.setCtrl row k lo n v).applied = s.applied := by simp [setCtrl]
@[simp] theorem setCtrl_syncs (s : State) (row k lo n v : Nat) : (s.setCtrl row k lo n v).syncs = s.syncs := by simp [setCtrl]
@[simp] theorem setCtrl_domains (s : State) (row k lo n v : Nat) : (s.setCtrl row k lo n v).domains = s.domains := by simp [setCtrl]
@[simp] theorem setCtrl_queues (s : State) (row k lo n v : Nat) : (s.setCtrl row k lo n v).queues = s.queues := by simp [setCtrl]
@[simp] theorem setCtrl_tlbs (s : State) (row k lo n v : Nat) : (s.setCtrl row k lo n v).tlbs = s.tlbs := by simp [setCtrl]
@[simp] theorem setCtrl_misses (s : State) (row k lo n v : Nat) : (s.setCtrl row k lo n v).misses = s.misses := by simp [setCtrl]
@[simp] theorem setCtrl_invs (s : State) (row k lo n v : Nat) : (s.setCtrl row k lo n v).invs = s.invs := by simp [setCtrl]
@[simp] theorem setCtrl_bankWins (s : State) (row k lo n v : Nat) : (s.setCtrl row k lo n v).bankWins = s.bankWins := by simp [setCtrl]
@[simp] theorem setCtrl_subs (s : State) (row k lo n v : Nat) : (s.setCtrl row k lo n v).subs = s.subs := by simp [setCtrl]
@[simp] theorem setCtrl_skinks (s : State) (row k lo n v : Nat) : (s.setCtrl row k lo n v).skinks = s.skinks := by simp [setCtrl]
@[simp] theorem setCtrl_dpit (s : State) (row k lo n v : Nat) : (s.setCtrl row k lo n v).dpit = s.dpit := by simp [setCtrl]
@[simp] theorem setCtrl_trackerPool (s : State) (row k lo n v : Nat) : (s.setCtrl row k lo n v).trackerPool = s.trackerPool := by simp [setCtrl]
@[simp] theorem setCtrl_islands (s : State) (row k lo n v : Nat) : (s.setCtrl row k lo n v).islands = s.islands := by simp [setCtrl]
@[simp] theorem setCtrl_boot (s : State) (row k lo n v : Nat) : (s.setCtrl row k lo n v).boot = s.boot := by simp [setCtrl]
@[simp] theorem setCtrl_power (s : State) (row k lo n v : Nat) : (s.setCtrl row k lo n v).power = s.power := by simp [setCtrl]
@[simp] theorem setCtrl_stackRegs (s : State) (row k lo n v : Nat) : (s.setCtrl row k lo n v).stackRegs = s.stackRegs := by simp [setCtrl]
@[simp] theorem setCtrl_tenants (s : State) (row k lo n v : Nat) : (s.setCtrl row k lo n v).tenants = s.tenants := by simp [setCtrl]
@[simp] theorem setCtrl_acl (s : State) (row k lo n v : Nat) : (s.setCtrl row k lo n v).acl = s.acl := by simp [setCtrl]
@[simp] theorem setCtrl_route (s : State) (row k lo n v : Nat) : (s.setCtrl row k lo n v).route = s.route := by simp [setCtrl]
@[simp] theorem setCtrl_clhalt (s : State) (row k lo n v : Nat) : (s.setCtrl row k lo n v).clhalt = s.clhalt := by simp [setCtrl]
@[simp] theorem setCtrl_modid (s : State) (row k lo n v : Nat) : (s.setCtrl row k lo n v).modid = s.modid := by simp [setCtrl]
@[simp] theorem setCtrl_keys (s : State) (row k lo n v : Nat) : (s.setCtrl row k lo n v).keys = s.keys := by simp [setCtrl]
@[simp] theorem setCtrl_farb (s : State) (row k lo n v : Nat) : (s.setCtrl row k lo n v).farb = s.farb := by simp [setCtrl]
@[simp] theorem setCtrl_fars (s : State) (row k lo n v : Nat) : (s.setCtrl row k lo n v).fars = s.fars := by simp [setCtrl]
@[simp] theorem setCtrl_log (s : State) (row k lo n v : Nat) : (s.setCtrl row k lo n v).log = s.log := by simp [setCtrl]
@[simp] theorem setCtrl_msix (s : State) (row k lo n v : Nat) : (s.setCtrl row k lo n v).msix = s.msix := by simp [setCtrl]
@[simp] theorem setCtrl_posted (s : State) (row k lo n v : Nat) : (s.setCtrl row k lo n v).posted = s.posted := by simp [setCtrl]
@[simp] theorem setCtrl_scrub (s : State) (row k lo n v : Nat) : (s.setCtrl row k lo n v).scrub = s.scrub := by simp [setCtrl]
@[simp] theorem setCtrl_receipts (s : State) (row k lo n v : Nat) : (s.setCtrl row k lo n v).receipts = s.receipts := by simp [setCtrl]
@[simp] theorem setCtrl_receiptCount (s : State) (row k lo n v : Nat) : (s.setCtrl row k lo n v).receiptCount = s.receiptCount := by simp [setCtrl]
@[simp] theorem setCtrl_ports (s : State) (row k lo n v : Nat) : (s.setCtrl row k lo n v).ports = s.ports := by simp [setCtrl]
@[simp] theorem setCtrl_remotes (s : State) (row k lo n v : Nat) : (s.setCtrl row k lo n v).remotes = s.remotes := by simp [setCtrl]
@[simp] theorem setCtrl_gates (s : State) (row k lo n v : Nat) : (s.setCtrl row k lo n v).gates = s.gates := by simp [setCtrl]
@[simp] theorem setCtrl_mailbox (s : State) (row k lo n v : Nat) : (s.setCtrl row k lo n v).mailbox = s.mailbox := by simp [setCtrl]
@[simp] theorem setCtrl_hostData (s : State) (row k lo n v : Nat) : (s.setCtrl row k lo n v).hostData = s.hostData := by simp [setCtrl]
@[simp] theorem setCtrl_secured (s : State) (row k lo n v : Nat) : (s.setCtrl row k lo n v).secured = s.secured := by simp [setCtrl]
@[simp] theorem setCtrl_units (s : State) (row k lo n v : Nat) : (s.setCtrl row k lo n v).units = s.units := by simp [setCtrl]
@[simp] theorem setCtrl_flights (s : State) (row k lo n v : Nat) : (s.setCtrl row k lo n v).flights = s.flights := by simp [setCtrl]
@[simp] theorem setCtrl_pageUse (s : State) (row k lo n v : Nat) : (s.setCtrl row k lo n v).pageUse = s.pageUse := by simp [setCtrl]
@[simp] theorem setCtrl_trackerAt (s : State) (row k lo n v : Nat) : (s.setCtrl row k lo n v).trackerAt = s.trackerAt := by simp [setCtrl]
@[simp] theorem setCtrl_hubWrites (s : State) (row k lo n v : Nat) : (s.setCtrl row k lo n v).hubWrites = s.hubWrites := by simp [setCtrl]
@[simp] theorem setCtrl_ringWrites (s : State) (row k lo n v : Nat) : (s.setCtrl row k lo n v).ringWrites = s.ringWrites := by simp [setCtrl]
@[simp] theorem setCtrl_missMail (s : State) (row k lo n v : Nat) : (s.setCtrl row k lo n v).missMail = s.missMail := by simp [setCtrl]
@[simp] theorem setCtrl_dues (s : State) (row k lo n v : Nat) : (s.setCtrl row k lo n v).dues = s.dues := by simp [setCtrl]
@[simp] theorem setCtrl_sideband (s : State) (row k lo n v : Nat) : (s.setCtrl row k lo n v).sideband = s.sideband := by simp [setCtrl]
@[simp] theorem setCtrl_freeRows (s : State) (row k lo n v : Nat) : (s.setCtrl row k lo n v).freeRows = s.freeRows := by simp [setCtrl]

@[simp] theorem setV_agenda (s : State) (row n : Nat) (v : Line) : (s.setV row n v).agenda = s.agenda := by simp [setV]
@[simp] theorem setV_fresh (s : State) (row n : Nat) (v : Line) : (s.setV row n v).fresh = s.fresh := by simp [setV]
@[simp] theorem setV_cur (s : State) (row n : Nat) (v : Line) : (s.setV row n v).cur = s.cur := by simp [setV]
@[simp] theorem setV_inp (s : State) (row n : Nat) (v : Line) : (s.setV row n v).inp = s.inp := by simp [setV]
@[simp] theorem setV_now (s : State) (row n : Nat) (v : Line) : (s.setV row n v).now = s.now := by simp [setV]
@[simp] theorem setV_commits (s : State) (row n : Nat) (v : Line) : (s.setV row n v).commits = s.commits := by simp [setV]
@[simp] theorem setV_gran (s : State) (row n : Nat) (v : Line) : (s.setV row n v).gran = s.gran := by simp [setV]
@[simp] theorem setV_tags (s : State) (row n : Nat) (v : Line) : (s.setV row n v).tags = s.tags := by simp [setV]
@[simp] theorem setV_bad (s : State) (row n : Nat) (v : Line) : (s.setV row n v).bad = s.bad := by simp [setV]
@[simp] theorem setV_threads (s : State) (row n : Nat) (v : Line) : (s.setV row n v).threads = s.threads := by simp [setV]
@[simp] theorem setV_nextId (s : State) (row n : Nat) (v : Line) : (s.setV row n v).nextId = s.nextId := by simp [setV]
@[simp] theorem setV_shadows (s : State) (row n : Nat) (v : Line) : (s.setV row n v).shadows = s.shadows := by simp [setV]
@[simp] theorem setV_ctxs (s : State) (row n : Nat) (v : Line) : (s.setV row n v).ctxs = s.ctxs := by simp [setV]
@[simp] theorem setV_oneSided (s : State) (row n : Nat) (v : Line) : (s.setV row n v).oneSided = s.oneSided := by simp [setV]
@[simp] theorem setV_counted (s : State) (row n : Nat) (v : Line) : (s.setV row n v).counted = s.counted := by simp [setV]
@[simp] theorem setV_parts (s : State) (row n : Nat) (v : Line) : (s.setV row n v).parts = s.parts := by simp [setV]
@[simp] theorem setV_applied (s : State) (row n : Nat) (v : Line) : (s.setV row n v).applied = s.applied := by simp [setV]
@[simp] theorem setV_syncs (s : State) (row n : Nat) (v : Line) : (s.setV row n v).syncs = s.syncs := by simp [setV]
@[simp] theorem setV_domains (s : State) (row n : Nat) (v : Line) : (s.setV row n v).domains = s.domains := by simp [setV]
@[simp] theorem setV_queues (s : State) (row n : Nat) (v : Line) : (s.setV row n v).queues = s.queues := by simp [setV]
@[simp] theorem setV_tlbs (s : State) (row n : Nat) (v : Line) : (s.setV row n v).tlbs = s.tlbs := by simp [setV]
@[simp] theorem setV_misses (s : State) (row n : Nat) (v : Line) : (s.setV row n v).misses = s.misses := by simp [setV]
@[simp] theorem setV_invs (s : State) (row n : Nat) (v : Line) : (s.setV row n v).invs = s.invs := by simp [setV]
@[simp] theorem setV_bankWins (s : State) (row n : Nat) (v : Line) : (s.setV row n v).bankWins = s.bankWins := by simp [setV]
@[simp] theorem setV_subs (s : State) (row n : Nat) (v : Line) : (s.setV row n v).subs = s.subs := by simp [setV]
@[simp] theorem setV_skinks (s : State) (row n : Nat) (v : Line) : (s.setV row n v).skinks = s.skinks := by simp [setV]
@[simp] theorem setV_dpit (s : State) (row n : Nat) (v : Line) : (s.setV row n v).dpit = s.dpit := by simp [setV]
@[simp] theorem setV_trackerPool (s : State) (row n : Nat) (v : Line) : (s.setV row n v).trackerPool = s.trackerPool := by simp [setV]
@[simp] theorem setV_islands (s : State) (row n : Nat) (v : Line) : (s.setV row n v).islands = s.islands := by simp [setV]
@[simp] theorem setV_boot (s : State) (row n : Nat) (v : Line) : (s.setV row n v).boot = s.boot := by simp [setV]
@[simp] theorem setV_power (s : State) (row n : Nat) (v : Line) : (s.setV row n v).power = s.power := by simp [setV]
@[simp] theorem setV_stackRegs (s : State) (row n : Nat) (v : Line) : (s.setV row n v).stackRegs = s.stackRegs := by simp [setV]
@[simp] theorem setV_tenants (s : State) (row n : Nat) (v : Line) : (s.setV row n v).tenants = s.tenants := by simp [setV]
@[simp] theorem setV_acl (s : State) (row n : Nat) (v : Line) : (s.setV row n v).acl = s.acl := by simp [setV]
@[simp] theorem setV_route (s : State) (row n : Nat) (v : Line) : (s.setV row n v).route = s.route := by simp [setV]
@[simp] theorem setV_clhalt (s : State) (row n : Nat) (v : Line) : (s.setV row n v).clhalt = s.clhalt := by simp [setV]
@[simp] theorem setV_modid (s : State) (row n : Nat) (v : Line) : (s.setV row n v).modid = s.modid := by simp [setV]
@[simp] theorem setV_keys (s : State) (row n : Nat) (v : Line) : (s.setV row n v).keys = s.keys := by simp [setV]
@[simp] theorem setV_farb (s : State) (row n : Nat) (v : Line) : (s.setV row n v).farb = s.farb := by simp [setV]
@[simp] theorem setV_fars (s : State) (row n : Nat) (v : Line) : (s.setV row n v).fars = s.fars := by simp [setV]
@[simp] theorem setV_log (s : State) (row n : Nat) (v : Line) : (s.setV row n v).log = s.log := by simp [setV]
@[simp] theorem setV_msix (s : State) (row n : Nat) (v : Line) : (s.setV row n v).msix = s.msix := by simp [setV]
@[simp] theorem setV_posted (s : State) (row n : Nat) (v : Line) : (s.setV row n v).posted = s.posted := by simp [setV]
@[simp] theorem setV_scrub (s : State) (row n : Nat) (v : Line) : (s.setV row n v).scrub = s.scrub := by simp [setV]
@[simp] theorem setV_receipts (s : State) (row n : Nat) (v : Line) : (s.setV row n v).receipts = s.receipts := by simp [setV]
@[simp] theorem setV_receiptCount (s : State) (row n : Nat) (v : Line) : (s.setV row n v).receiptCount = s.receiptCount := by simp [setV]
@[simp] theorem setV_ports (s : State) (row n : Nat) (v : Line) : (s.setV row n v).ports = s.ports := by simp [setV]
@[simp] theorem setV_remotes (s : State) (row n : Nat) (v : Line) : (s.setV row n v).remotes = s.remotes := by simp [setV]
@[simp] theorem setV_gates (s : State) (row n : Nat) (v : Line) : (s.setV row n v).gates = s.gates := by simp [setV]
@[simp] theorem setV_mailbox (s : State) (row n : Nat) (v : Line) : (s.setV row n v).mailbox = s.mailbox := by simp [setV]
@[simp] theorem setV_hostData (s : State) (row n : Nat) (v : Line) : (s.setV row n v).hostData = s.hostData := by simp [setV]
@[simp] theorem setV_secured (s : State) (row n : Nat) (v : Line) : (s.setV row n v).secured = s.secured := by simp [setV]
@[simp] theorem setV_units (s : State) (row n : Nat) (v : Line) : (s.setV row n v).units = s.units := by simp [setV]
@[simp] theorem setV_flights (s : State) (row n : Nat) (v : Line) : (s.setV row n v).flights = s.flights := by simp [setV]
@[simp] theorem setV_pageUse (s : State) (row n : Nat) (v : Line) : (s.setV row n v).pageUse = s.pageUse := by simp [setV]
@[simp] theorem setV_trackerAt (s : State) (row n : Nat) (v : Line) : (s.setV row n v).trackerAt = s.trackerAt := by simp [setV]
@[simp] theorem setV_hubWrites (s : State) (row n : Nat) (v : Line) : (s.setV row n v).hubWrites = s.hubWrites := by simp [setV]
@[simp] theorem setV_ringWrites (s : State) (row n : Nat) (v : Line) : (s.setV row n v).ringWrites = s.ringWrites := by simp [setV]
@[simp] theorem setV_missMail (s : State) (row n : Nat) (v : Line) : (s.setV row n v).missMail = s.missMail := by simp [setV]
@[simp] theorem setV_dues (s : State) (row n : Nat) (v : Line) : (s.setV row n v).dues = s.dues := by simp [setV]
@[simp] theorem setV_sideband (s : State) (row n : Nat) (v : Line) : (s.setV row n v).sideband = s.sideband := by simp [setV]
@[simp] theorem setV_freeRows (s : State) (row n : Nat) (v : Line) : (s.setV row n v).freeRows = s.freeRows := by simp [setV]

@[simp] theorem setX_agenda (s : State) (row n : Nat) (w : Word) : (s.setX row n w).agenda = s.agenda := by unfold setX; split <;> simp
@[simp] theorem setX_fresh (s : State) (row n : Nat) (w : Word) : (s.setX row n w).fresh = s.fresh := by unfold setX; split <;> simp
@[simp] theorem setX_cur (s : State) (row n : Nat) (w : Word) : (s.setX row n w).cur = s.cur := by unfold setX; split <;> simp
@[simp] theorem setX_inp (s : State) (row n : Nat) (w : Word) : (s.setX row n w).inp = s.inp := by unfold setX; split <;> simp
@[simp] theorem setX_now (s : State) (row n : Nat) (w : Word) : (s.setX row n w).now = s.now := by unfold setX; split <;> simp
@[simp] theorem setX_commits (s : State) (row n : Nat) (w : Word) : (s.setX row n w).commits = s.commits := by unfold setX; split <;> simp
@[simp] theorem setX_gran (s : State) (row n : Nat) (w : Word) : (s.setX row n w).gran = s.gran := by unfold setX; split <;> simp
@[simp] theorem setX_tags (s : State) (row n : Nat) (w : Word) : (s.setX row n w).tags = s.tags := by unfold setX; split <;> simp
@[simp] theorem setX_bad (s : State) (row n : Nat) (w : Word) : (s.setX row n w).bad = s.bad := by unfold setX; split <;> simp
@[simp] theorem setX_threads (s : State) (row n : Nat) (w : Word) : (s.setX row n w).threads = s.threads := by unfold setX; split <;> simp
@[simp] theorem setX_nextId (s : State) (row n : Nat) (w : Word) : (s.setX row n w).nextId = s.nextId := by unfold setX; split <;> simp
@[simp] theorem setX_shadows (s : State) (row n : Nat) (w : Word) : (s.setX row n w).shadows = s.shadows := by unfold setX; split <;> simp
@[simp] theorem setX_ctxs (s : State) (row n : Nat) (w : Word) : (s.setX row n w).ctxs = s.ctxs := by unfold setX; split <;> simp
@[simp] theorem setX_oneSided (s : State) (row n : Nat) (w : Word) : (s.setX row n w).oneSided = s.oneSided := by unfold setX; split <;> simp
@[simp] theorem setX_counted (s : State) (row n : Nat) (w : Word) : (s.setX row n w).counted = s.counted := by unfold setX; split <;> simp
@[simp] theorem setX_parts (s : State) (row n : Nat) (w : Word) : (s.setX row n w).parts = s.parts := by unfold setX; split <;> simp
@[simp] theorem setX_applied (s : State) (row n : Nat) (w : Word) : (s.setX row n w).applied = s.applied := by unfold setX; split <;> simp
@[simp] theorem setX_syncs (s : State) (row n : Nat) (w : Word) : (s.setX row n w).syncs = s.syncs := by unfold setX; split <;> simp
@[simp] theorem setX_domains (s : State) (row n : Nat) (w : Word) : (s.setX row n w).domains = s.domains := by unfold setX; split <;> simp
@[simp] theorem setX_queues (s : State) (row n : Nat) (w : Word) : (s.setX row n w).queues = s.queues := by unfold setX; split <;> simp
@[simp] theorem setX_tlbs (s : State) (row n : Nat) (w : Word) : (s.setX row n w).tlbs = s.tlbs := by unfold setX; split <;> simp
@[simp] theorem setX_misses (s : State) (row n : Nat) (w : Word) : (s.setX row n w).misses = s.misses := by unfold setX; split <;> simp
@[simp] theorem setX_invs (s : State) (row n : Nat) (w : Word) : (s.setX row n w).invs = s.invs := by unfold setX; split <;> simp
@[simp] theorem setX_bankWins (s : State) (row n : Nat) (w : Word) : (s.setX row n w).bankWins = s.bankWins := by unfold setX; split <;> simp
@[simp] theorem setX_subs (s : State) (row n : Nat) (w : Word) : (s.setX row n w).subs = s.subs := by unfold setX; split <;> simp
@[simp] theorem setX_skinks (s : State) (row n : Nat) (w : Word) : (s.setX row n w).skinks = s.skinks := by unfold setX; split <;> simp
@[simp] theorem setX_dpit (s : State) (row n : Nat) (w : Word) : (s.setX row n w).dpit = s.dpit := by unfold setX; split <;> simp
@[simp] theorem setX_trackerPool (s : State) (row n : Nat) (w : Word) : (s.setX row n w).trackerPool = s.trackerPool := by unfold setX; split <;> simp
@[simp] theorem setX_islands (s : State) (row n : Nat) (w : Word) : (s.setX row n w).islands = s.islands := by unfold setX; split <;> simp
@[simp] theorem setX_boot (s : State) (row n : Nat) (w : Word) : (s.setX row n w).boot = s.boot := by unfold setX; split <;> simp
@[simp] theorem setX_power (s : State) (row n : Nat) (w : Word) : (s.setX row n w).power = s.power := by unfold setX; split <;> simp
@[simp] theorem setX_stackRegs (s : State) (row n : Nat) (w : Word) : (s.setX row n w).stackRegs = s.stackRegs := by unfold setX; split <;> simp
@[simp] theorem setX_tenants (s : State) (row n : Nat) (w : Word) : (s.setX row n w).tenants = s.tenants := by unfold setX; split <;> simp
@[simp] theorem setX_acl (s : State) (row n : Nat) (w : Word) : (s.setX row n w).acl = s.acl := by unfold setX; split <;> simp
@[simp] theorem setX_route (s : State) (row n : Nat) (w : Word) : (s.setX row n w).route = s.route := by unfold setX; split <;> simp
@[simp] theorem setX_clhalt (s : State) (row n : Nat) (w : Word) : (s.setX row n w).clhalt = s.clhalt := by unfold setX; split <;> simp
@[simp] theorem setX_modid (s : State) (row n : Nat) (w : Word) : (s.setX row n w).modid = s.modid := by unfold setX; split <;> simp
@[simp] theorem setX_keys (s : State) (row n : Nat) (w : Word) : (s.setX row n w).keys = s.keys := by unfold setX; split <;> simp
@[simp] theorem setX_farb (s : State) (row n : Nat) (w : Word) : (s.setX row n w).farb = s.farb := by unfold setX; split <;> simp
@[simp] theorem setX_fars (s : State) (row n : Nat) (w : Word) : (s.setX row n w).fars = s.fars := by unfold setX; split <;> simp
@[simp] theorem setX_log (s : State) (row n : Nat) (w : Word) : (s.setX row n w).log = s.log := by unfold setX; split <;> simp
@[simp] theorem setX_msix (s : State) (row n : Nat) (w : Word) : (s.setX row n w).msix = s.msix := by unfold setX; split <;> simp
@[simp] theorem setX_posted (s : State) (row n : Nat) (w : Word) : (s.setX row n w).posted = s.posted := by unfold setX; split <;> simp
@[simp] theorem setX_scrub (s : State) (row n : Nat) (w : Word) : (s.setX row n w).scrub = s.scrub := by unfold setX; split <;> simp
@[simp] theorem setX_receipts (s : State) (row n : Nat) (w : Word) : (s.setX row n w).receipts = s.receipts := by unfold setX; split <;> simp
@[simp] theorem setX_receiptCount (s : State) (row n : Nat) (w : Word) : (s.setX row n w).receiptCount = s.receiptCount := by unfold setX; split <;> simp
@[simp] theorem setX_ports (s : State) (row n : Nat) (w : Word) : (s.setX row n w).ports = s.ports := by unfold setX; split <;> simp
@[simp] theorem setX_remotes (s : State) (row n : Nat) (w : Word) : (s.setX row n w).remotes = s.remotes := by unfold setX; split <;> simp
@[simp] theorem setX_gates (s : State) (row n : Nat) (w : Word) : (s.setX row n w).gates = s.gates := by unfold setX; split <;> simp
@[simp] theorem setX_mailbox (s : State) (row n : Nat) (w : Word) : (s.setX row n w).mailbox = s.mailbox := by unfold setX; split <;> simp
@[simp] theorem setX_hostData (s : State) (row n : Nat) (w : Word) : (s.setX row n w).hostData = s.hostData := by unfold setX; split <;> simp
@[simp] theorem setX_secured (s : State) (row n : Nat) (w : Word) : (s.setX row n w).secured = s.secured := by unfold setX; split <;> simp
@[simp] theorem setX_units (s : State) (row n : Nat) (w : Word) : (s.setX row n w).units = s.units := by unfold setX; split <;> simp
@[simp] theorem setX_flights (s : State) (row n : Nat) (w : Word) : (s.setX row n w).flights = s.flights := by unfold setX; split <;> simp
@[simp] theorem setX_pageUse (s : State) (row n : Nat) (w : Word) : (s.setX row n w).pageUse = s.pageUse := by unfold setX; split <;> simp
@[simp] theorem setX_trackerAt (s : State) (row n : Nat) (w : Word) : (s.setX row n w).trackerAt = s.trackerAt := by unfold setX; split <;> simp
@[simp] theorem setX_hubWrites (s : State) (row n : Nat) (w : Word) : (s.setX row n w).hubWrites = s.hubWrites := by unfold setX; split <;> simp
@[simp] theorem setX_ringWrites (s : State) (row n : Nat) (w : Word) : (s.setX row n w).ringWrites = s.ringWrites := by unfold setX; split <;> simp
@[simp] theorem setX_missMail (s : State) (row n : Nat) (w : Word) : (s.setX row n w).missMail = s.missMail := by unfold setX; split <;> simp
@[simp] theorem setX_dues (s : State) (row n : Nat) (w : Word) : (s.setX row n w).dues = s.dues := by unfold setX; split <;> simp
@[simp] theorem setX_sideband (s : State) (row n : Nat) (w : Word) : (s.setX row n w).sideband = s.sideband := by unfold setX; split <;> simp
@[simp] theorem setX_freeRows (s : State) (row n : Nat) (w : Word) : (s.setX row n w).freeRows = s.freeRows := by unfold setX; split <;> simp

@[simp] theorem setP_agenda (s : State) (row n : Nat) (b : Bool) : (s.setP row n b).agenda = s.agenda := by unfold setP; split <;> simp
@[simp] theorem setP_fresh (s : State) (row n : Nat) (b : Bool) : (s.setP row n b).fresh = s.fresh := by unfold setP; split <;> simp
@[simp] theorem setP_cur (s : State) (row n : Nat) (b : Bool) : (s.setP row n b).cur = s.cur := by unfold setP; split <;> simp
@[simp] theorem setP_inp (s : State) (row n : Nat) (b : Bool) : (s.setP row n b).inp = s.inp := by unfold setP; split <;> simp
@[simp] theorem setP_now (s : State) (row n : Nat) (b : Bool) : (s.setP row n b).now = s.now := by unfold setP; split <;> simp
@[simp] theorem setP_commits (s : State) (row n : Nat) (b : Bool) : (s.setP row n b).commits = s.commits := by unfold setP; split <;> simp
@[simp] theorem setP_gran (s : State) (row n : Nat) (b : Bool) : (s.setP row n b).gran = s.gran := by unfold setP; split <;> simp
@[simp] theorem setP_tags (s : State) (row n : Nat) (b : Bool) : (s.setP row n b).tags = s.tags := by unfold setP; split <;> simp
@[simp] theorem setP_bad (s : State) (row n : Nat) (b : Bool) : (s.setP row n b).bad = s.bad := by unfold setP; split <;> simp
@[simp] theorem setP_threads (s : State) (row n : Nat) (b : Bool) : (s.setP row n b).threads = s.threads := by unfold setP; split <;> simp
@[simp] theorem setP_nextId (s : State) (row n : Nat) (b : Bool) : (s.setP row n b).nextId = s.nextId := by unfold setP; split <;> simp
@[simp] theorem setP_shadows (s : State) (row n : Nat) (b : Bool) : (s.setP row n b).shadows = s.shadows := by unfold setP; split <;> simp
@[simp] theorem setP_ctxs (s : State) (row n : Nat) (b : Bool) : (s.setP row n b).ctxs = s.ctxs := by unfold setP; split <;> simp
@[simp] theorem setP_oneSided (s : State) (row n : Nat) (b : Bool) : (s.setP row n b).oneSided = s.oneSided := by unfold setP; split <;> simp
@[simp] theorem setP_counted (s : State) (row n : Nat) (b : Bool) : (s.setP row n b).counted = s.counted := by unfold setP; split <;> simp
@[simp] theorem setP_parts (s : State) (row n : Nat) (b : Bool) : (s.setP row n b).parts = s.parts := by unfold setP; split <;> simp
@[simp] theorem setP_applied (s : State) (row n : Nat) (b : Bool) : (s.setP row n b).applied = s.applied := by unfold setP; split <;> simp
@[simp] theorem setP_syncs (s : State) (row n : Nat) (b : Bool) : (s.setP row n b).syncs = s.syncs := by unfold setP; split <;> simp
@[simp] theorem setP_domains (s : State) (row n : Nat) (b : Bool) : (s.setP row n b).domains = s.domains := by unfold setP; split <;> simp
@[simp] theorem setP_queues (s : State) (row n : Nat) (b : Bool) : (s.setP row n b).queues = s.queues := by unfold setP; split <;> simp
@[simp] theorem setP_tlbs (s : State) (row n : Nat) (b : Bool) : (s.setP row n b).tlbs = s.tlbs := by unfold setP; split <;> simp
@[simp] theorem setP_misses (s : State) (row n : Nat) (b : Bool) : (s.setP row n b).misses = s.misses := by unfold setP; split <;> simp
@[simp] theorem setP_invs (s : State) (row n : Nat) (b : Bool) : (s.setP row n b).invs = s.invs := by unfold setP; split <;> simp
@[simp] theorem setP_bankWins (s : State) (row n : Nat) (b : Bool) : (s.setP row n b).bankWins = s.bankWins := by unfold setP; split <;> simp
@[simp] theorem setP_subs (s : State) (row n : Nat) (b : Bool) : (s.setP row n b).subs = s.subs := by unfold setP; split <;> simp
@[simp] theorem setP_skinks (s : State) (row n : Nat) (b : Bool) : (s.setP row n b).skinks = s.skinks := by unfold setP; split <;> simp
@[simp] theorem setP_dpit (s : State) (row n : Nat) (b : Bool) : (s.setP row n b).dpit = s.dpit := by unfold setP; split <;> simp
@[simp] theorem setP_trackerPool (s : State) (row n : Nat) (b : Bool) : (s.setP row n b).trackerPool = s.trackerPool := by unfold setP; split <;> simp
@[simp] theorem setP_islands (s : State) (row n : Nat) (b : Bool) : (s.setP row n b).islands = s.islands := by unfold setP; split <;> simp
@[simp] theorem setP_boot (s : State) (row n : Nat) (b : Bool) : (s.setP row n b).boot = s.boot := by unfold setP; split <;> simp
@[simp] theorem setP_power (s : State) (row n : Nat) (b : Bool) : (s.setP row n b).power = s.power := by unfold setP; split <;> simp
@[simp] theorem setP_stackRegs (s : State) (row n : Nat) (b : Bool) : (s.setP row n b).stackRegs = s.stackRegs := by unfold setP; split <;> simp
@[simp] theorem setP_tenants (s : State) (row n : Nat) (b : Bool) : (s.setP row n b).tenants = s.tenants := by unfold setP; split <;> simp
@[simp] theorem setP_acl (s : State) (row n : Nat) (b : Bool) : (s.setP row n b).acl = s.acl := by unfold setP; split <;> simp
@[simp] theorem setP_route (s : State) (row n : Nat) (b : Bool) : (s.setP row n b).route = s.route := by unfold setP; split <;> simp
@[simp] theorem setP_clhalt (s : State) (row n : Nat) (b : Bool) : (s.setP row n b).clhalt = s.clhalt := by unfold setP; split <;> simp
@[simp] theorem setP_modid (s : State) (row n : Nat) (b : Bool) : (s.setP row n b).modid = s.modid := by unfold setP; split <;> simp
@[simp] theorem setP_keys (s : State) (row n : Nat) (b : Bool) : (s.setP row n b).keys = s.keys := by unfold setP; split <;> simp
@[simp] theorem setP_farb (s : State) (row n : Nat) (b : Bool) : (s.setP row n b).farb = s.farb := by unfold setP; split <;> simp
@[simp] theorem setP_fars (s : State) (row n : Nat) (b : Bool) : (s.setP row n b).fars = s.fars := by unfold setP; split <;> simp
@[simp] theorem setP_log (s : State) (row n : Nat) (b : Bool) : (s.setP row n b).log = s.log := by unfold setP; split <;> simp
@[simp] theorem setP_msix (s : State) (row n : Nat) (b : Bool) : (s.setP row n b).msix = s.msix := by unfold setP; split <;> simp
@[simp] theorem setP_posted (s : State) (row n : Nat) (b : Bool) : (s.setP row n b).posted = s.posted := by unfold setP; split <;> simp
@[simp] theorem setP_scrub (s : State) (row n : Nat) (b : Bool) : (s.setP row n b).scrub = s.scrub := by unfold setP; split <;> simp
@[simp] theorem setP_receipts (s : State) (row n : Nat) (b : Bool) : (s.setP row n b).receipts = s.receipts := by unfold setP; split <;> simp
@[simp] theorem setP_receiptCount (s : State) (row n : Nat) (b : Bool) : (s.setP row n b).receiptCount = s.receiptCount := by unfold setP; split <;> simp
@[simp] theorem setP_ports (s : State) (row n : Nat) (b : Bool) : (s.setP row n b).ports = s.ports := by unfold setP; split <;> simp
@[simp] theorem setP_remotes (s : State) (row n : Nat) (b : Bool) : (s.setP row n b).remotes = s.remotes := by unfold setP; split <;> simp
@[simp] theorem setP_gates (s : State) (row n : Nat) (b : Bool) : (s.setP row n b).gates = s.gates := by unfold setP; split <;> simp
@[simp] theorem setP_mailbox (s : State) (row n : Nat) (b : Bool) : (s.setP row n b).mailbox = s.mailbox := by unfold setP; split <;> simp
@[simp] theorem setP_hostData (s : State) (row n : Nat) (b : Bool) : (s.setP row n b).hostData = s.hostData := by unfold setP; split <;> simp
@[simp] theorem setP_secured (s : State) (row n : Nat) (b : Bool) : (s.setP row n b).secured = s.secured := by unfold setP; split <;> simp
@[simp] theorem setP_units (s : State) (row n : Nat) (b : Bool) : (s.setP row n b).units = s.units := by unfold setP; split <;> simp
@[simp] theorem setP_flights (s : State) (row n : Nat) (b : Bool) : (s.setP row n b).flights = s.flights := by unfold setP; split <;> simp
@[simp] theorem setP_pageUse (s : State) (row n : Nat) (b : Bool) : (s.setP row n b).pageUse = s.pageUse := by unfold setP; split <;> simp
@[simp] theorem setP_trackerAt (s : State) (row n : Nat) (b : Bool) : (s.setP row n b).trackerAt = s.trackerAt := by unfold setP; split <;> simp
@[simp] theorem setP_hubWrites (s : State) (row n : Nat) (b : Bool) : (s.setP row n b).hubWrites = s.hubWrites := by unfold setP; split <;> simp
@[simp] theorem setP_ringWrites (s : State) (row n : Nat) (b : Bool) : (s.setP row n b).ringWrites = s.ringWrites := by unfold setP; split <;> simp
@[simp] theorem setP_missMail (s : State) (row n : Nat) (b : Bool) : (s.setP row n b).missMail = s.missMail := by unfold setP; split <;> simp
@[simp] theorem setP_dues (s : State) (row n : Nat) (b : Bool) : (s.setP row n b).dues = s.dues := by unfold setP; split <;> simp
@[simp] theorem setP_sideband (s : State) (row n : Nat) (b : Bool) : (s.setP row n b).sideband = s.sideband := by unfold setP; split <;> simp
@[simp] theorem setP_freeRows (s : State) (row n : Nat) (b : Bool) : (s.setP row n b).freeRows = s.freeRows := by unfold setP; split <;> simp

end Sys2Proof.Machine.State
end

