-- ==== Sys2Proof/Laws/Issue.lean ====
section
/-!
SUPPORT. What the shared parts of instructions yield for the thread at issue, and how an instruction ends once its body has.
-/
namespace Sys2Proof

open Sys2Proof.Machine

variable {α β : Type} {s t u : State} {th : Thread} {a : α} {b : β}

theorem Yields.bind {m : Exec α} {k : α → Exec β} (h : Yields m s a t) (h' : Yields (k a) t b u) : Yields (m >>= k) s b u := by
  unfold Yields at *
  rw [StateT.run_bind, h]
  exact h'

theorem Yields.pure (a : α) (s : State) : Yields (Pure.pure a : Exec α) s a s := rfl

theorem Yields.get (s : State) : Yields (MonadState.get : Exec State) s s s := rfl

theorem Yields.set (s t : State) : Yields (MonadState.set t : Exec PUnit) s ⟨⟩ t := rfl

theorem Yields.modify (f : State → State) (s : State) : Yields (modify f : Exec PUnit) s ⟨⟩ (f s) := rfl

theorem Yields.unique {m : Exec α} {a' : α} (h : Yields m s a t) (h' : Yields m s a' u) : a = a' ∧ t = u := by
  unfold Yields at *
  rw [h] at h'
  injection h' with h'
  exact ⟨congrArg Prod.fst h', congrArg Prod.snd h'⟩

theorem Yields.me (h : AtIssue s th) : Yields Exec.me s th s := by
  unfold AtIssue at h
  refine Yields.bind (Yields.get s) ?_
  simp only [h]
  exact Yields.pure _ _

theorem Yields.myRow (h : AtIssue s th) : Yields Exec.myRow s th.row s := Yields.bind (Yields.me h) (Yields.pure _ _)

/-- A scalar register is read, and nothing changes. -/
theorem Yields.readX (h : AtIssue s th) (n : Nat) : Yields (Exec.readX n) s (s.getX th.row n) s :=
  Yields.bind (Yields.get s) (Yields.bind (Yields.myRow h) (Yields.pure _ _))

/-- A scalar register is written. -/
theorem Yields.writeX (h : AtIssue s th) (n : Nat) (w : Word) : Yields (Exec.writeX n w) s () (s.setX th.row n w) :=
  Yields.bind (Yields.myRow h) (Yields.modify _ _)

theorem Yields.readP (h : AtIssue s th) (n : Nat) : Yields (Exec.readP n) s (s.getP th.row n) s :=
  Yields.bind (Yields.get s) (Yields.bind (Yields.myRow h) (Yields.pure _ _))

theorem Yields.writeP (h : AtIssue s th) (n : Nat) (p : Bool) : Yields (Exec.writeP n p) s () (s.setP th.row n p) :=
  Yields.bind (Yields.myRow h) (Yields.modify _ _)

theorem Yields.readV (h : AtIssue s th) (n : Nat) : Yields (Exec.readV n) s (s.getV th.row n) s :=
  Yields.bind (Yields.get s) (Yields.bind (Yields.myRow h) (Yields.pure _ _))

theorem Yields.writeV (h : AtIssue s th) (n : Nat) (v : Line) : Yields (Exec.writeV n v) s () (s.setV th.row n v) :=
  Yields.bind (Yields.myRow h) (Yields.modify _ _)

theorem Yields.ea (h : AtIssue s th) (f : FM) : Yields (Exec.ea f) s (s.ea th.row f) s :=
  Yields.bind (Yields.get s) (Yields.bind (Yields.myRow h) (Yields.pure _ _))

theorem Yields.sbEmpty (h : AtIssue s th) (he : th.sb = []) : Yields Exec.sbEmpty s () s := by
  refine Yields.bind (Yields.me h) ?_
  simp only [he, List.isEmpty_nil, if_true]
  exact Yields.pure _ _

theorem Yields.require {c : Cause} {d : Word} (p : Bool) (hp : p = true) : Yields (Exec.require p c d) s () s := by
  subst hp
  exact Yields.pure _ _

/-- An instruction whose body has yielded a flow completes. -/
theorem asInstr_yields {body : Exec Flow} {f : Flow} (h : AtIssue s th) (hb : Yields body s f t) :
    asInstr body s = .next (completed t th f) := by
  unfold AtIssue at h
  unfold Yields at hb
  unfold asInstr
  rw [h, hb]
  rfl

theorem Stops.bind {m : Exec α} {k : α → Exec β} {e : Stop} (h : Yields m s a t) (h' : Stops (k a) t e) : Stops (m >>= k) s e := by
  unfold Stops Yields at *
  rw [StateT.run_bind, h]
  exact h'

theorem Stops.left {m : Exec α} {k : α → Exec β} {e : Stop} (h : Stops m s e) : Stops (m >>= k) s e := by
  unfold Stops at *
  rw [StateT.run_bind, h]
  rfl

theorem Stops.fault (c : Cause) (d : Word) : Stops (Exec.fault c d : Exec α) s (.fault c d []) := rfl

theorem Stops.stall (wk wa : Nat) (c : WaitCond) : Stops (Exec.stall wk wa c : Exec α) s (.stall wk wa c) := rfl

theorem Stops.require {c : Cause} {d : Word} (p : Bool) (hp : p = false) : Stops (Exec.require p c d) s (.fault c d []) := by
  subst hp
  rfl

/-- An instruction whose body has stopped faults or stalls. -/
theorem asInstr_stops {body : Exec Flow} {e : Stop} (h : AtIssue s th) (hb : Stops body s e) :
    asInstr body s = .next (runIssue s th (.error e)) := by
  unfold AtIssue at h
  unfold Stops at hb
  unfold asInstr
  rw [h, hb]

/-- A row write other than to the threads keeps the thread at issue. -/
theorem AtIssue.of_eq (h : AtIssue s th) (hc : t.cur = s.cur) (ht : t.threads = s.threads) : AtIssue t th := by
  unfold AtIssue State.thread? at *
  rw [hc, ht]
  exact h

theorem AtIssue.setX (h : AtIssue s th) (row n : Nat) (w : Word) : AtIssue (s.setX row n w) th := h.of_eq (by simp) (by simp)

theorem AtIssue.setP (h : AtIssue s th) (row n : Nat) (p : Bool) : AtIssue (s.setP row n p) th := h.of_eq (by simp) (by simp)

theorem AtIssue.setV (h : AtIssue s th) (row n : Nat) (v : Line) : AtIssue (s.setV row n v) th := h.of_eq (by simp) (by simp)

theorem AtIssue.poke (h : AtIssue s th) (a : Nat) (bs : List Byte) : AtIssue (s.poke a bs) th := h.of_eq (by simp) (by simp)

end Sys2Proof
end

