-- ==== Sys2Proof/Laws/Rows.lean ====
section
/-!
SUPPORT. What a write to a row's bytes leaves: the bytes written read back, other bytes are as before, the memory keeps its form, and
a bit field of a word written reads back and leaves the other fields alone.
-/
namespace Sys2Proof.Machine

theorem putBits_eq (n lo k v : Nat) : putBits n lo k v = (n / 2 ^ lo / 2 ^ k * 2 ^ k + v % 2 ^ k) * 2 ^ lo + n % 2 ^ lo := by
  have h1 := Nat.div_add_mod n (2 ^ lo)
  have h2 := Nat.div_add_mod (n / 2 ^ lo) (2 ^ k)
  have h4 : (n / 2 ^ lo) * 2 ^ lo = n / 2 ^ lo / 2 ^ k * 2 ^ k * 2 ^ lo + n / 2 ^ lo % 2 ^ k * 2 ^ lo := by
    rw [← Nat.add_mul, Nat.mul_comm _ (2 ^ k), h2]
  have h5 : n / 2 ^ lo * 2 ^ lo + n % 2 ^ lo = n := by rw [Nat.mul_comm]; exact h1
  unfold putBits bitsAt
  rw [Nat.add_mul]
  omega

theorem bitsAt_putBits_same (n lo k v : Nat) : bitsAt (putBits n lo k v) lo k = v % 2 ^ k := by
  rw [putBits_eq, bitsAt, Nat.add_comm, Nat.add_mul_div_right _ _ (Nat.two_pow_pos lo), Nat.div_eq_of_lt (Nat.mod_lt _ (Nat.two_pow_pos lo)),
    Nat.zero_add, Nat.mul_add_mod', Nat.mod_mod]

theorem bitsAt_putBits_above (n lo k v lo' k' : Nat) (h : lo + k ≤ lo') : bitsAt (putBits n lo k v) lo' k' = bitsAt n lo' k' := by
  have e (x : Nat) : x / 2 ^ lo' = x / 2 ^ lo / 2 ^ k / 2 ^ (lo' - lo - k) := by
    rw [Nat.div_div_eq_div_mul, Nat.div_div_eq_div_mul, ← Nat.pow_add, ← Nat.pow_add]
    congr 2
    omega
  have hq : putBits n lo k v / 2 ^ lo / 2 ^ k = n / 2 ^ lo / 2 ^ k := by
    rw [putBits_eq, Nat.add_comm, Nat.add_mul_div_right _ _ (Nat.two_pow_pos lo),
      Nat.div_eq_of_lt (Nat.mod_lt _ (Nat.two_pow_pos lo)), Nat.zero_add, Nat.add_comm, Nat.add_mul_div_right _ _ (Nat.two_pow_pos k),
      Nat.div_eq_of_lt (Nat.mod_lt _ (Nat.two_pow_pos k)), Nat.zero_add]
  rw [bitsAt, bitsAt, e, hq, ← e]

theorem bitsAt_putBits_below (n lo k v lo' k' : Nat) (h : lo' + k' ≤ lo) : bitsAt (putBits n lo k v) lo' k' = bitsAt n lo' k' := by
  have e (x : Nat) : bitsAt x lo' k' = x % 2 ^ lo / 2 ^ lo' % 2 ^ k' := by
    have hd : 2 ^ lo = 2 ^ lo' * 2 ^ (lo - lo') := by rw [← Nat.pow_add]; congr 1; omega
    rw [bitsAt, hd, Nat.mod_mul_right_div_self, Nat.mod_mod_of_dvd]
    exact Nat.pow_dvd_pow 2 (by omega)
  have hm : putBits n lo k v % 2 ^ lo = n % 2 ^ lo := by
    rw [putBits_eq, Nat.mul_add_mod', Nat.mod_mod]
  rw [e, hm, ← e]

theorem putBits_lt (n lo k v : Nat) (hn : n < 2 ^ 64) (h : lo + k ≤ 64) : putBits n lo k v < 2 ^ 64 := by
  have ha := Nat.mod_lt v (Nat.two_pow_pos k)
  have hb := Nat.mod_lt n (Nat.two_pow_pos lo)
  have hc : n / 2 ^ lo / 2 ^ k < 2 ^ (64 - lo - k) := by
    rw [Nat.div_div_eq_div_mul, ← Nat.pow_add]
    apply Nat.div_lt_of_lt_mul
    rw [← Nat.pow_add]
    exact lt_of_lt_of_le hn (Nat.pow_le_pow_right (by decide) (by omega))
  have hp : 2 ^ 64 = 2 ^ (64 - lo - k) * 2 ^ k * 2 ^ lo := by rw [← Nat.pow_add, ← Nat.pow_add]; congr 1; omega
  rw [putBits_eq, hp]
  have hx : n / 2 ^ lo / 2 ^ k * 2 ^ k + v % 2 ^ k < 2 ^ (64 - lo - k) * 2 ^ k := by
    calc n / 2 ^ lo / 2 ^ k * 2 ^ k + v % 2 ^ k < n / 2 ^ lo / 2 ^ k * 2 ^ k + 2 ^ k := by omega
      _ = (n / 2 ^ lo / 2 ^ k + 1) * 2 ^ k := by rw [Nat.add_mul, Nat.one_mul]
      _ ≤ _ := Nat.mul_le_mul_right _ hc
  calc _ < (n / 2 ^ lo / 2 ^ k * 2 ^ k + v % 2 ^ k) * 2 ^ lo + 2 ^ lo := by omega
    _ = (n / 2 ^ lo / 2 ^ k * 2 ^ k + v % 2 ^ k + 1) * 2 ^ lo := by rw [Nat.add_mul _ 1, Nat.one_mul]
    _ ≤ _ := Nat.mul_le_mul_right _ hx

theorem setField_toNat (w : Word) (lo k v : Nat) (h : lo + k ≤ 64) : (setField w lo k v).toNat = putBits w.toNat lo k v := by
  rw [setField, BitVec.toNat_ofNat, Nat.mod_eq_of_lt (putBits_lt _ _ _ _ w.isLt h)]

/-- A field of a word that has been set reads back. -/
theorem field_setField_same (w : Word) (lo k v : Nat) (h : lo + k ≤ 64) : field (setField w lo k v) lo k = v % 2 ^ k := by
  rw [field, setField_toNat w lo k v h, bitsAt_putBits_same]

/-- The fields beside one that has been set are as before. -/
theorem field_setField_other (w : Word) (lo k v lo' k' : Nat) (h : lo + k ≤ 64) (hd : lo + k ≤ lo' ∨ lo' + k' ≤ lo) :
    field (setField w lo k v) lo' k' = field w lo' k' := by
  rw [field, setField_toNat w lo k v h]
  rcases hd with hd | hd
  · exact bitsAt_putBits_above _ _ _ _ _ _ hd
  · exact bitsAt_putBits_below _ _ _ _ _ _ hd

namespace State

/-- A write to a row's bytes keeps the memory in its form. -/
theorem poke_wf (s : State) (a : Nat) (bs : List Byte) (h : s.mem.wf = true) : (s.poke a bs).mem.wf = true := by
  rw [poke_mem]
  exact Memory.setBytes_wf _ _ _ h

/-- A write changes no byte but its own. -/
theorem poke_get_other (s : State) (a : Nat) (bs : List Byte) (x : Nat) (h : s.mem.wf = true) (hx : x < a ∨ a + bs.length ≤ x) :
    (s.poke a bs).mem.get x = s.mem.get x := by
  rw [poke_mem, Memory.get_setBytes_other _ _ _ _ h hx]

/-- A word written reads back. -/
theorem word64_pokeWord_same (s : State) (a : Nat) (w : Word) (h : s.mem.wf = true) : (s.pokeWord a w).word64 a = w := by
  have e := Memory.bytes_setBytes_same s.mem a (wordBytes w) h
  rw [show (wordBytes w).length = 8 from leBytes_length 8 _] at e
  rw [word64, pokeWord, poke_mem, e, leWord_wordBytes]

/-- A word apart from the bytes written is as before. -/
theorem word64_poke_other (s : State) (a b : Nat) (bs : List Byte) (h : s.mem.wf = true) (hd : b + 8 ≤ a ∨ a + bs.length ≤ b) :
    (s.poke a bs).word64 b = s.word64 b := by
  rw [word64, word64, poke_mem, Memory.bytes_setBytes_other _ _ _ _ _ h (by omega)]

theorem word64_pokeWord_other (s : State) (a b : Nat) (w : Word) (h : s.mem.wf = true) (hd : b + 8 ≤ a ∨ a + 8 ≤ b) :
    (s.pokeWord a w).word64 b = s.word64 b :=
  word64_poke_other s a b _ h (by rw [show (wordBytes w).length = 8 from leBytes_length 8 _]; exact hd)

end State

end Sys2Proof.Machine
end

