-- ==== Sys2Proof/Tests/Slice0.lean ====
section
/-!
SUPPORT. Tests: ill-formed instructions are refused, words written out from the spec's tables decode to what they stand for, small steps
whose results are worked out from the rules, and for the statements concrete states and operands that meet their hypotheses.
-/
open Sys2Proof Sys2Proof.Machine

namespace Sys2Proof.Tests

/-! Ill-formed instructions. -/

/-- A field that the entry leaves unused is not 0 (R51). -/
theorem test_unused_operand_refused : (Instr.sub ⟨.x 1, .x 2, .x 3, .x 4, .i64, 0⟩).wellFormed = false := by decide
/-- A mode bit that the entry gives no meaning (R51). -/
theorem test_mode_bits_refused : (Instr.sub ⟨.x 1, .x 2, .x 3, .x 0, .i64, 1⟩).wellFormed = false := by decide
/-- A type the class does not take (R148). -/
theorem test_type_refused : (Instr.sub ⟨.x 1, .x 2, .x 3, .x 0, .f32, 0⟩).wellFormed = false := by decide
/-- An operand kind the position does not take (R48, R148). -/
theorem test_operand_kind_refused : (Instr.sub ⟨.x 1, .v 2, .x 3, .x 0, .i64, 0⟩).wellFormed = false := by decide
/-- A reserved operand code (R47). -/
theorem test_reserved_operand_refused : (Instr.vadd ⟨.v 1, .reserved 0, .v 3, .x 0, .f32, 0⟩).wellFormed = false := by decide
/-- A condition code above 0x5 (R130). -/
theorem test_condition_refused : (Instr.bcmp ⟨.x 1, .x 2, 6, 0, 0⟩).wellFormed = false := by decide
/-- TH.SELF with selector 3 (R118). -/
theorem test_selector_refused : (Instr.thSelf ⟨.x 1, .x 0, .x 0, .x 0, .i64, 3⟩).wellFormed = false := by decide
/-- TH.PEEK of 8 bytes into a vector register (R118). -/
theorem test_peek_size_refused : (Instr.thPeek ⟨.v 1, .x 2, .x 0, 0, 3, 0, 0, 0⟩).wellFormed = false := by decide
/-- VCVT to its own source type (R206, R212). -/
theorem test_conversion_refused : (Instr.vcvt ⟨.v 1, .v 2, .x 0, .x 0, .f32, 3⟩).wellFormed = false := by decide
/-- VQNT with a part beyond the last (R218). -/
theorem test_quantisation_refused : (Instr.vqnt ⟨.v 1, .v 2, .x 3, .x 0, .bf16, 0x1C⟩).wellFormed = false := by decide
/-- M.MMA of BF16 with E4M3 (R239). -/
theorem test_pair_refused : (Instr.mMma ⟨.a 0, .x 1, .x 2, .x 0, .bf16, .e4m3, 0, 1⟩).wellFormed = false := by decide
/-- M.MMA with no chunk (R238). -/
theorem test_chunks_refused : (Instr.mMma ⟨.a 0, .x 1, .x 2, .x 0, .bf16, .bf16, 0, 0⟩).wellFormed = false := by decide
/-- M.MMA with a stride below a row (R238). -/
theorem test_stride_refused : (Instr.mMma ⟨.a 0, .x 1, .x 2, .x 0, .bf16, .bf16, 6, 2⟩).wellFormed = false := by decide
/-- M.MVS of an 8-bit type with an odd chunk count (R238). -/
theorem test_stream_chunks_refused : (Instr.mMvs ⟨.a 0, .s 1, .x 2, .x 0, .e4m3, .e4m3, 0, 0⟩).wellFormed = false := by decide
/-- M.GATH with its index vectors from v7 on (R238). -/
theorem test_index_vector_refused : (Instr.mGath ⟨.x 0, .x 1, .v 7, .x 0, .bf16, .bf16, 0, 1⟩).wellFormed = false := by decide

/-! Words of the spec's tables. -/

/-- TH.START, TH.REDIRECT, TH.WAIT and TH.EXIT (R118). -/
theorem test_decode_thread : decode 0x0040024A0000000000000000 = .ok (⟨false, 0⟩, .thStart ⟨.x 0, .x 9, .x 10, .x 0, .i64, 0⟩) ∧
    decode 0x00C0024A0032000000000000 = .ok (⟨false, 0⟩, .thRedirect ⟨.x 0, .x 9, .x 10, .x 0, .i64, 200⟩) ∧
    decode 0x014031000000000010000014 = .ok (⟨false, 0⟩, .thWait ⟨.x 3, .x 4, .i64, 4096 * 2 ^ 16 + 20⟩) ∧
    decode 0x018000000000000000000000 = .ok (⟨false, 0⟩, .thExit ⟨.x 0, .x 0, .x 0, .x 0, .i64, 0⟩) := by decide
/-- NOP, BCMP.LT with displacement -3, BRI and LPAD with tag 7 (R129). -/
theorem test_decode_control : decode 0x100000000000000000000000 = .ok (⟨false, 0⟩, .nop ⟨.x 0, .x 0, 0, 0, 0⟩) ∧
    decode 0x10805188000000FFFFFFFFFD = .ok (⟨false, 0⟩, .bcmp ⟨.x 5, .x 6, 2, 0, -3⟩) ∧
    decode 0x10C090001C00000000000000 = .ok (⟨false, 0⟩, .bri ⟨.x 9, .x 0, 0, 7, 0⟩) ∧
    decode 0x114000001C00000000000000 = .ok (⟨false, 0⟩, .lpad ⟨.x 0, .x 0, 0, 7, 0⟩) := by decide
/-- SUB, ADD with 1 and, at I32, with -8, CMP.LTU and BEXT at 12 of 8 bits with sign (R148, R151). -/
theorem test_decode_integer : decode 0x204031050000000000000000 = .ok (⟨false, 0⟩, .sub ⟨.x 3, .x 4, .x 5, .x 0, .i64, 0⟩) ∧
    decode 0x280051400000000000000001 = .ok (⟨false, 0⟩, .addFi ⟨.x 5, .x 5, .i64, 1⟩) ∧
    decode 0x280030C40000FFFFFFFFFFF8 = .ok (⟨false, 0⟩, .addFi ⟨.x 3, .x 3, .i32, -8⟩) ∧
    decode 0x230021870001000000000000 = .ok (⟨false, 0⟩, .cmpFa ⟨.x 2, .x 6, .x 7, .x 0, .i64, 4⟩) ∧
    decode 0x3B409280000000000000880C = .ok (⟨false, 0⟩, .bextFi ⟨.x 9, .x 10, .i64, 0x880C⟩) := by decide
/-- LD under p2, LDFE.C of 64 bytes, SSET of s2, AADD and GET (R45, R172, R173). -/
theorem test_decode_memory : decode 0x400870C46C00000000000010 = .ok (⟨false, 2⟩, .ld ⟨.x 7, .x 3, .x 4, 3, 3, 0, 0, 16⟩) ∧
    decode 0x414232401440000000000040 = .ok (⟨false, 0⟩, .ldfe ⟨.v 3, .x 9, .x 0, 0, 5, 1, 0, 0x40⟩) ∧
    decode 0x420001801480000000000000 = .ok (⟨false, 0⟩, .sset ⟨.x 0, .x 6, .x 0, 0, 5, 2, 0, 0⟩) ∧
    decode 0x520052800C00000000000000 = .ok (⟨false, 0⟩, .aadd ⟨.x 5, .x 10, .x 0, 0, 3, 0, 0, 0⟩) ∧
    decode 0x5000C34E3C00000000000000 = .ok (⟨false, 0⟩, .get ⟨.x 12, .x 13, .x 14, .x 15, .i64, 0⟩) := by decide
/-- VADD, VFMA, VCMP.LT to p3, VCVT.SAT of part 2, VRSUM of s0 and VQNT.X (R205, R206). -/
theorem test_decode_vector : decode 0x6002186200C0000000000000 = .ok (⟨false, 0⟩, .vadd ⟨.v 1, .v 1, .v 2, .x 0, .f32, 0⟩) ∧
    decode 0x60C238628D00000000000000 = .ok (⟨false, 0⟩, .vfma ⟨.v 3, .v 1, .v 2, .v 3, .bf16, 0⟩) ∧
    decode 0x6482586200CC800000000000 = .ok (⟨false, 0⟩, .vcmp ⟨.v 5, .v 1, .v 2, .x 0, .f32, 0x32⟩) ∧
    decode 0x700248400168C00000000000 = .ok (⟨false, 0⟩, .vcvt ⟨.v 4, .v 1, .x 0, .x 0, .e4m3, 0xA3⟩) ∧
    decode 0x72022A0000C0000000000000 = .ok (⟨false, 0⟩, .vrsum ⟨.v 2, .s 0, .x 0, .x 0, .f32, 0⟩) ∧
    decode 0x730228420108000000000000 = .ok (⟨false, 0⟩, .vqnt ⟨.v 2, .v 1, .x 2, .x 0, .bf16, 0x20⟩) := by decide
/-- M.MMA with nk 2, M.MVS with nk 8, nb 4 and nr 32, M.SACC.Q16.CL and W.EMITZ (R238, R252). -/
theorem test_decode_matrix : decode 0x800301050110000008000000 = .ok (⟨false, 0⟩, .mMma ⟨.a 0, .x 4, .x 5, .x 0, .bf16, .bf16, 0, 2⟩) ∧
    decode 0x80C32A48255401FB1C000000 = .ok (⟨false, 0⟩, .mMvs ⟨.a 2, .s 1, .x 8, .x 9, .e4m3, .e4m3, 0, 7 + 3 * 2 ^ 6 + 31 * 2 ^ 9 + 2 ^ 14⟩) ∧
    decode 0x81031CC600000C0000000000 = .ok (⟨false, 0⟩, .mSacc ⟨.a 1, .a 3, .x 6, .x 0, .i64, .i64, 3, 0⟩) ∧
    decode 0x90C000E21400000000000000 = .ok (⟨false, 0⟩, .wEmitz ⟨.x 0, .x 3, .v 2, .x 5, .i64, 0⟩) := by decide
/-- ROW.HOLD with the drop policy, TX.COMMIT, SAFEPT.BEGIN and ATTN.INIT (R263). -/
theorem test_decode_bank : decode 0xA04052400040000000000000 = .ok (⟨false, 0⟩, .rowHold ⟨.x 5, .x 9, .x 0, 0, 0, 1, 0, 0⟩) ∧
    decode 0xA24060000000000000000000 = .ok (⟨false, 0⟩, .txCommit ⟨.x 6, .x 0, .x 0, 0, 0⟩) ∧
    decode 0xA60000000001000000000000 = .ok (⟨false, 0⟩, .safeptBegin ⟨.x 0, .x 0, .x 0, 1, 0⟩) ∧
    decode 0xA400784A2D00400000000000 = .ok (⟨false, 0⟩, .attn ⟨.x 7, .v 1, .x 10, .x 11, .bf16, 1⟩) := by decide
/-- H.SIG of two tables and H.REHASH of 4 units of table 1 (R295). -/
theorem test_decode_retrieval : decode 0xB002224A0000000200000000 = .ok (⟨false, 0⟩, .hSig ⟨.v 2, .x 9, .x 10, .x 0, 0, 0, 2⟩) ∧
    decode 0xB10052460010000400000000 = .ok (⟨false, 0⟩, .hRehash ⟨.x 5, .x 9, .x 6, .x 0, 1, 0, 4⟩) := by decide
/-- SYN.BIND of 2 ranges for the package, SYN.ACQ, SYN.WTL.HB and SYN.SEND (R313). -/
theorem test_decode_sync : decode 0xC000024A000B000000000000 = .ok (⟨false, 0⟩, .synBind ⟨.x 0, .x 9, .x 10, 0xB, 0⟩) ∧
    decode 0xC04032090000000000000000 = .ok (⟨false, 0⟩, .synAcq ⟨.x 3, .x 8, .x 9, .x 0, .i64, 0⟩) ∧
    decode 0xC0C0428B0000400000000000 = .ok (⟨false, 0⟩, .synWtl ⟨.x 4, .x 10, .x 11, .x 0, .i64, 1⟩) ∧
    decode 0xC24008800000000000000005 = .ok (⟨false, 0⟩, .synSend ⟨.x 0, .v 2, .i64, 5⟩) := by decide
/-- CE.COPY, DEC.LOAD, SYS.RDCR of TINFO, SYS.TLBINV of ASID 37, SYS.TRAP and SYS.SCRUB (R312, R351). -/
theorem test_decode_engine_system : decode 0xD00051872000000000000000 = .ok (⟨false, 0⟩, .ceCopy ⟨.x 5, .x 6, .x 7, .x 8, .i64, 0⟩) ∧
    decode 0xD200518A0001400000000000 = .ok (⟨false, 0⟩, .decLoad ⟨.x 5, .x 6, .x 10, .x 0, .i64, 5⟩) ∧
    decode 0xE00050000030000000000000 = .ok (⟨false, 0⟩, .sysRdcr ⟨.x 5, .x 0, .x 0, 0x30, 0⟩) ∧
    decode 0xE08072090025000000000000 = .ok (⟨false, 0⟩, .sysTlbinv ⟨.x 7, .x 8, .x 9, 37, 0⟩) ∧
    decode 0xE1000140000000000000000C = .ok (⟨false, 0⟩, .sysTrap ⟨.x 0, .x 5, .x 0, 0, 12⟩) ∧
    decode 0xE140C34E0000000000000000 = .ok (⟨false, 0⟩, .sysScrub ⟨.x 12, .x 13, .x 14, 0, 0⟩) := by decide
/-- A class that the executor does not have (R63), guard code 1000b (R65), and a reserved field that is not 0 (R51). -/
theorem test_decode_refused : decodeFor (some .bank) 0x800301050110000008000000 = .error .unavail ∧
    decode 0x102000000000000000000000 = .error .illegal ∧ decode 0x1080518800000FFFFFFFFFFD = .error .illegal := by decide

set_option Elab.async false

/-! Concrete states: a thread at issue on a tile, in a bank and on a walker. -/

/-- A state whose thread of identifier 0 runs on the executor of a word's class and stands at issue. -/
def atIssue (w : Nat) : State :=
  { State.reset.placeWord w with
    agenda := [], cur := some 0, islands := (List.range 32).map fun n => { Island.reset n with st := 0 } }
/-- A T-thread at issue. -/
def tile : State := atIssue 0x100000000000000000000000
/-- A B-thread at issue, of the first bank. -/
def bank : State := atIssue 0xA00000000000000000000000
/-- A walker's thread at issue. -/
def walker : State := atIssue 0x900000000000000000000000
/-- The thread of identifier 0. -/
def self (s : State) : Thread := (s.thread? 0).getD default
/-- The row of the T-thread. -/
def row : Nat := tileRow 0 0
/-- Scalar registers set in a state's thread row. -/
def regs (s : State) (l : List (Nat × Nat)) : State := l.foldl (fun s p => s.setX (self s).row p.1 (.ofNat 64 p.2)) s
/-- A thread of identifier 0 changed. -/
def withSelf (s : State) (f : Thread → Thread) : State := s.updThread 0 f
/-- A leaf with every permission on a device-physical page. -/
def leafOf (dp : Nat) : Word := .ofNat 64 (31 + dp)
/-- Page 0x50000 mapped to tile memory at 0x400000020000 and page 0x70000 to DRAM at 0x2000000, which is subarray 1 of the first bank,
inside two windows of tenant 0, which has contexts 0 to 7, objects 0 to 7, ASIDs 0 to 3 and the first domain of cluster 0. -/
def mapped (s : State) : State :=
  { s with
    tlbs := [⟨0, 0, 0x50000, 0, leafOf 0x400000020000⟩, ⟨640, 0, 0x50000, 0, leafOf 0x400000020000⟩, ⟨640, 0, 0x70000, 0, leafOf 0x2000000⟩,
      ⟨0, 0, 0x70000, 0, leafOf 0x2000000⟩]
    tenants := [{ Tenant.firmware with
      windows := [(0, .ofNat 64 0x400000020000, .ofNat 64 (1 + 7 * 2 ^ 33)), (1, 0x2000000, .ofNat 64 (1 + 7 * 2 ^ 33))], allot := .ofNat 64 (8 * 2 ^ 25 + 8), asidCount := 4, doma := [(0, 1)] }] }
/-- A part of an instruction gives a value. -/
def gives {α : Type} (m : Exec α) (s : State) : Bool :=
  match m.run s with
  | .ok _ => true
  | .error _ => false
/-- A part of an instruction leaves the thread of identifier 0 at issue. -/
def leaves {α : Type} (m : Exec α) (s : State) : Bool :=
  match m.run s with
  | .ok (_, t) => (t.cur.bind t.thread?).isSome
  | .error _ => false

theorem atIssue_self (s : State) (h : (s.cur.bind s.thread?).isSome = true) (hc : s.cur = some 0) : AtIssue s (self s) := by
  unfold AtIssue self
  obtain ⟨th, ht⟩ := Option.isSome_iff_exists.1 h
  rw [ht]
  rw [hc] at ht
  exact congrArg some (by rw [show s.thread? 0 = some th from ht]; rfl)

theorem yields_of_gives {α : Type} {m : Exec α} {s : State} (h : gives m s = true) : ∃ a t, Yields m s a t := by
  unfold gives at h
  unfold Yields
  split at h
  · rename_i p hp
    exact ⟨p.1, p.2, hp⟩
  · exact absurd h (by decide)

theorem yields_of_leaves {α : Type} {m : Exec α} {s : State} (h : leaves m s = true) : ∃ a t u, Yields m s a t ∧ AtIssue t u := by
  unfold leaves at h
  unfold Yields AtIssue
  split at h
  · rename_i a t hp
    obtain ⟨u, hu⟩ := Option.isSome_iff_exists.1 h
    exact ⟨a, t, u, hp, hu⟩
  · exact absurd h (by decide)

/-! Witnesses for the hypotheses of the statements. -/

theorem tile_self : AtIssue tile (self tile) := atIssue_self _ (by decide +kernel) (by decide +kernel)
theorem bank_self : AtIssue bank (self bank) := atIssue_self _ (by decide +kernel) (by decide +kernel)
theorem mapped_self : AtIssue (mapped tile) (self (mapped tile)) := atIssue_self _ (by decide +kernel) (by decide +kernel)

theorem witness_InstructionWordsRoundTrip : ∃ (g : Guard) (i : Instr),
    g.legal = true ∧ i.isWord = true ∧ i.wellFormed = true ∧ encode g i ≠ 0 := ⟨⟨true, 7⟩, .sub ⟨.q 3, .x 31, .x 30, .x 0, .i32, 0⟩, by decide⟩

/-- A T-thread whose issue is the next move, with a line in its fetch buffer and checks that a transfer left. -/
def buffered (data : Line) (check : Option TargetCheck) : State :=
  { withSelf tile fun t => { t with fbuf := [⟨row + 0x480, data, none, false⟩], check := check } with agenda := [⟨0, .issue 0, []⟩] }
/-- The state that the issue runs in. -/
def begun (s : State) : State := { s with agenda := [] }.beginMove ⟨0, .issue 0, []⟩
/-- The premises that the clauses on an issue share. -/
abbrev Issues (data : Line) (check : Option TargetCheck) : Prop :=
  let s := buffered data check
  s.agenda = [⟨0, .issue 0, []⟩] ∧ (begun s).thread? 0 = some (self s) ∧ (begun s).canIssue (self s) = true ∧ pcWellFormed (self s).ip = true ∧
  ((self s).fbuf.find? (·.va == lineOf (self s).ip.toNat)) = some ⟨row + 0x480, data, none, false⟩ ∧ (self s).check = check
/-- The clause of a word that runs, and of one whose guard is off. -/
theorem witness_StepRunsTheDecodedInstruction_runs : Issues 0x280051400000000000000001 none ∧
    decodeFor (some .tile) (slotWord 0x280051400000000000000001 0) = .ok (⟨false, 0⟩, .addFi ⟨.x 5, .x 5, .i64, 1⟩) ∧
    decodeFor (some .tile) (slotWord 0x280451400000000000000001 0) = .ok (⟨false, 1⟩, .addFi ⟨.x 5, .x 5, .i64, 1⟩) ∧
    (buffered 0x280451400000000000000001 none).getP row 1 = false := by decide +kernel
/-- The clauses of a masked slot, a missed landing, an empty word, a bad line word and a word that does not decode. -/
theorem witness_StepRunsTheDecodedInstruction_faults : bitsAt (tmask (lineWord 0)) 0 1 = 0 ∧
    Issues 0 (some ⟨true, none, none⟩) ∧ Issues 0x280051400000000000000001 (some ⟨false, some 7, none⟩) ∧
    bitsAt (slotWord 0x280051400000000000000001 0).toNat 86 10 ≠ 0x45 ∧ slotWord 0 0 = 0 ∧
    lineWordOk (lineWord (2 ^ 490 + 1)) = false ∧ decodeFor (some .tile) (slotWord 0x1080518800000FFFFFFFFFFD 0) = .error .illegal :=
  by decide +kernel
/-- The clause of a word whose unit, the divider, is taken, and of a pair. -/
theorem witness_StepRunsTheDecodedInstruction_busy : State.unitUse .tile 0x30C031050000000000000000 = some (0, 34) ∧
    (let s := buffered 0x30C031050000000000000000 none
     Issues 0x30C031050000000000000000 none ∧ s.unitBusy (self s) 0 = false ∧
     ({ s with units := [⟨0, .tile, (self s).place, s.ticksOf (self s) + 1⟩] }).unitBusy (self s) 0 = true) ∧
    ({ tile with agenda := [⟨0, .pair 0, []⟩] }).agenda ≠ [] := by decide +kernel
/-- The clause of a fill, on a line placed in the thread's own row. -/
theorem witness_StepRunsTheDecodedInstruction_fill : tile.check (self tile) (.ofNat 64 (row + 0x480)) .exec = .own (row + 0x480) ∧
    tile.poisoned (row + 0x480) 64 = false ∧ (self tile).reread = none ∧
    (let l := leLine (tile.newest (row + 0x480) 64); crc16 ((lineToBytes l).take 60) = lineCrc (lineWord l)) :=
  ⟨by decide +kernel, by decide +kernel, rfl, by decide +kernel⟩
/-- The clause of an empty schedule. -/
theorem witness_StepRunsTheDecodedInstruction_free : State.reset.agenda = [] := rfl
theorem witness_EveryStepKeepsTheStateSafe : ∃ s t : State, SafeState s ∧ Machine.step s = .next t := by
  have h : (match Machine.step { State.reset with agenda := [⟨5, .event .bootStageDone .none, []⟩] } with
    | .next _ => true
    | _ => false) = true := by decide +kernel
  split at h
  · rename_i t ht
    exact ⟨_, t, by unfold SafeState; decide +kernel, ht⟩
  · exact absurd h (by decide)
theorem witness_RegistersReadBack : SafeState tile := by unfold SafeState; decide +kernel
theorem witness_TakingAFault : SafeState tile ∧ tile.thread? (self tile).id = some (self tile) := ⟨witness_RegistersReadBack, by decide +kernel⟩
/-- No loop, a loop inside its body, at its end with LC 1 and with LC 2. -/
theorem witness_CompletionAdvances : SafeState tile ∧ tile.thread? (self tile).id = some (self tile) ∧ (self tile).closing = none ∧
    (self tile).ownCmd = 0 ∧ tile.ctrlField row 7 13 1 = 0 ∧ field (tile.ctrl row 4) 32 1 = 0 ∧
    (let w := (tile.pokeWord (row + 0x20) (loopWord 2 true 3 3)).ctrl row 4; field w 32 1 = 1 ∧ field w 48 16 ≠ 0) ∧
    (let w := (tile.pokeWord (row + 0x20) (loopWord 1 true 3 0)).ctrl row 4; field w 32 1 = 1 ∧ field w 48 16 = 0 ∧ field w 0 32 ≤ 1) ∧
    (let w := (tile.pokeWord (row + 0x20) (loopWord 2 true 3 0)).ctrl row 4; field w 32 1 = 1 ∧ field w 48 16 = 0 ∧ 1 < field w 0 32) :=
  ⟨witness_RegistersReadBack, by decide +kernel, by decide +kernel, by decide +kernel, by decide +kernel, by decide +kernel, by decide +kernel,
    by decide +kernel, by decide +kernel⟩
/-- A closed row in each state that it can be found in. -/
def closed (code : Nat) : State := withSelf (tile.setWord0 row code) fun t => { t with slot := none }
theorem witness_CommandsTakeEffect : ∀ code ∈ [0, 1, 2, 4, 5, 6], SafeState (closed code) ∧
    (closed code).thread? (self (closed code)).id = some (self (closed code)) ∧ (self (closed code)).slot = none ∧
    (self (closed code)).closing = none ∧ (self (closed code)).exec ≠ .walker ∧ State.splitBusy (self (closed code)) = false ∧
    State.spawnPending (self (closed code)) = false ∧ (closed code).code row = code ∧ (closed code).tagOf row = .fixed := by
  unfold SafeState; decide +kernel
/-- The thread's own row, and memory behind a translation. -/
theorem witness_LoadsReadAndStoresWrite : AtIssue (mapped tile) (self (mapped tile)) ∧
    (mapped tile).check (self (mapped tile)) (.ofNat 64 (row + 0x7F8)) .read = .own (row + 0x7F8) ∧
    (mapped tile).check (self (mapped tile)) (.ofNat 64 (row + 0x08)) .write = .own (row + 0x08) ∧
    (mapped tile).poisoned (row + 0x7F8) 8 = false ∧
    (mapped tile).check (self (mapped tile)) 0x50000 .read = .ok 0x400000020000 ∧
    (mapped tile).check (self (mapped tile)) 0x50000 .write = .ok 0x400000020000 ∧
    (mapped tile).region 0x400000020000 ≠ .control ∧ (self (mapped tile)).replies = [] ∧ (self (mapped tile)).asked = [] ∧
    Exec.openOther (mapped tile) (self (mapped tile)) 0x400000020000 = false ∧
    (mapped tile).lostHold? (self (mapped tile)) 0x400000020000 = none ∧
    (mapped tile).poisoned 0x400000020000 8 = false ∧ (mapped tile).shadowBytes? 0 0x400000020000 8 = none ∧
    (mapped tile).isGroupStore (self (mapped tile)) 0x50000 0x400000020000 = false := by
  refine ⟨mapped_self, ?_⟩
  decide +kernel
theorem witness_LoadsReadAndStoresWrite_reach : (mapped tile).reach 1 0x400000020000 false = .ok (mapped tile) := rfl
/-- Scalar operands in registers, and a queue port with an element and with room. -/
def queued (items : List Word) : State :=
  { tile.pokeWord (row + 0x7D8) (.ofNat 64 (2 ^ 15 + 3)) with queues := [⟨0, 3, 0, 16, items⟩] }
theorem witness_OperandForms : ∀ items ∈ [[], [5], List.replicate 16 (7 : Word)],
    (queued items).qport row 0 / 2 ^ 15 = 1 ∧ bitsAt ((queued items).qport row 0) 8 7 = 0 ∧
    (queued items).queue? (self (queued items)).cluster ((queued items).qport row 0 % 2 ^ 8) = some ⟨0, 3, 0, 16, items⟩ ∧
    (queued items).tenantOf row = 0 ∧ tile.qport row 0 / 2 ^ 15 = 0 := by decide +kernel
/-- A stream slot that has delivered its last vector, and one whose next vector is in the thread's own row. -/
theorem witness_OperandForms_slots : (tile.setDone row 1 true).slotDone row 1 = true ∧
    (tile.pokeWord (row + 0x380) (.ofNat 64 row)).slotDone row 0 = false ∧
    leaves (Exec.load ((tile.pokeWord (row + 0x380) (.ofNat 64 row)).slotNext row 0) 64) (tile.pokeWord (row + 0x380) (.ofNat 64 row)) = true := by
  decide +kernel
theorem witness_TwoSourceIntegersComplete : AtIssue tile (self tile) ∧ gives (Exec.queuesReady [.x 2, .x 3] (.x 1)) tile = true ∧
    leaves (Exec.src (.x 2)) tile = true ∧ leaves (Exec.dst (.x 1) 5) tile = true ∧
    gives (Exec.queuesReady [.q 0] (.x 1)) (queued [5]) = true ∧ leaves (Exec.src (.q 0)) (queued [5]) = true ∧
    leaves (Exec.dst (.q 0) 5) (queued []) = true := ⟨tile_self, by decide +kernel⟩
theorem witness_ImmediateIntegersComplete : AtIssue tile (self tile) ∧ gives (Exec.queuesReady [.x 2] (.x 1)) tile = true ∧
    gives (Exec.queuesReady [] (.x 1)) tile = true ∧ gives (Exec.src (.x 2)) tile = true ∧ gives (Exec.dst (.x 1) 5) tile = true :=
  ⟨tile_self, by decide +kernel⟩
theorem witness_OtherScalarOperationsComplete : AtIssue tile (self tile) ∧ gives (Exec.queuesReady [.x 2, .x 3] (.x 0)) tile = true ∧
    gives (Exec.src (.x 2)) tile = true ∧ gives (Exec.readP 3) tile = true ∧ gives (Exec.writeP 7 true) tile = true ∧
    gives (Exec.readX 31) tile = true ∧ gives (Exec.dst (.x 31) 5) tile = true := ⟨tile_self, by decide +kernel⟩
theorem witness_AddressInstructionsComplete : AtIssue tile (self tile) := tile_self
theorem witness_PlainControlCompletes : AtIssue tile (self tile) ∧ (self tile).sb = [] := ⟨tile_self, by decide +kernel⟩
/-- A branch forward, one before address 0, registers that hold a good and a bad address, and a table of one entry in the own row. -/
def table (n entry : Nat) : State :=
  regs ((tile.pokeWord (row + 0x500) (.ofNat 64 n)).pokeWord (row + 0x508) (.ofNat 64 entry)) [(1, row + 0x480), (2, 5), (3, row + 0x500)]
theorem witness_BranchesTransfer : branchTarget (self tile).ip 2 = some (.ofNat 64 (row + 0x482)) ∧ branchTarget (self tile).ip (-2 ^ 39) ≠ none ∧
    branchTarget 0 (-1) = none ∧ condHolds 0 64 0 0 = true ∧ condHolds 1 64 0 0 = false ∧
    pcWellFormed ((table 1 0).getX row 1) = true ∧ pcWellFormed ((table 1 0).getX row 2) = false ∧ ((table 1 0).getX row 2).toNat % 8 ≠ 0 ∧
    ((table 1 0).getX row 3).toNat % 8 = 0 ∧ leaves (Exec.load ((table 1 0).getX row 3) 8) (table 1 0) = true ∧
    (table 0 0).mem.bytes (row + 0x500) 8 = leBytes 8 0 ∧ (table 1 0).mem.bytes (row + 0x500) 8 = leBytes 8 1 ∧
    leaves (Exec.load ((table 1 0).getX row 3 + 8 + 8 * 0) 8) (table 1 0) = true ∧
    pcWellFormed ((table 1 0x40).word64 (row + 0x508)) = true ∧ pcWellFormed ((table 1 7).word64 (row + 0x508)) = false := by decide +kernel
/-- RSP 0, 3, 8 and 9, with and without a spill area, whose line is in memory behind a translation. -/
def returns (rsp spill : Nat) : State := (mapped tile).setReturns row rsp spill
theorem witness_CallsAndReturnsComplete : (returns 3 0).rsp row = 3 ∧ (returns 8 0).rsp row = 8 ∧ (returns 8 0).spill row = 0 ∧
    (returns 9 0).rsp row = 9 ∧ (returns 8 (0x50000 / 64)).spill row % 32 = 0 ∧ (returns 8 (0x50000 / 64 + 31)).spill row % 32 = 31 ∧
    gives (Exec.store (.ofNat 64 ((returns 8 (0x50000 / 64)).spill row * 64)) ((returns 8 (0x50000 / 64)).mem.bytes (row + 0x40) 64))
      (returns 8 (0x50000 / 64)) = true ∧
    (returns 0 (0x50000 / 64 + 1)).spill row % 32 ≠ 0 ∧
    gives (Exec.load (.ofNat 64 (((returns 0 (0x50000 / 64 + 1)).spill row - 1) * 64)) 64) (returns 0 (0x50000 / 64 + 1)) = true ∧
    leaves (pushReturn 5) (returns 3 0) = true ∧ leaves popReturn (returns 3 0) = true ∧ pcWellFormed 0 = true ∧ pcWellFormed 7 = false ∧
    ((returns 3 0).pokeWord (row + 0x40 + 16) 7).word64 (row + 0x40 + 16) = 7 := by decide +kernel
/-- A loop of three instructions from its displacement, and one from stored addresses away from the LOOP. -/
theorem witness_LoopInstructionCompletes :
    (let ls := pcNext (self tile).ip; let le := (BitVec.ofNat 64 (row + 0x483) : Word)
     pcWellFormed ls = true ∧ pcWellFormed le = true ∧ pcIndex ls ≤ pcIndex le ∧ pcIndex le - pcIndex ls ≤ 32767 ∧
     branchTarget (self tile).ip 3 = some le ∧ (regs tile [(1, 4)]).getX row 1 ≠ 0) ∧
    (let s := (tile.pokeWord (row + 0x28) 0x40).pokeWord (row + 0x30) 0x41
     s.ctrl row 5 = 0x40 ∧ s.ctrl row 6 = 0x41 ∧ (0x40 : Word) ≠ pcNext (self tile).ip ∧ pcIndex 0x40 ≤ pcIndex 0x41) := by decide +kernel

/-- Operands that are the named registers, with fields of format FA, FM, FI and FS. -/
def fa (d a b c : Nat) (md : Nat := 0) (ty : ElemType := .i64) : FA :=
  ⟨.x (.ofNat 32 d), .x (.ofNat 32 a), .x (.ofNat 32 b), .x (.ofNat 32 c), ty, .ofNat 8 md⟩
def fm (t base : Nat) (sz : Nat := 3) (ql : Nat := 0) (disp : Nat := 0) : FM :=
  ⟨.x (.ofNat 32 t), .x (.ofNat 32 base), .x 0, 0, .ofNat 3 sz, .ofNat 4 ql, 0, .ofNat 32 disp⟩
/-- A thread whose scalar registers hold addresses: x1 of mapped memory, x2 of its own row, x3 of mapped DRAM. -/
def addresses (s : State) : State := regs s [(1, 0x50000), (2, row + 0x400), (3, 0x70000), (5, 0x50040)]

theorem witness_CommandStoresComplete : ((addresses (mapped tile)).getX row 2).toNat % 2048 ≠ 0 ∧
    ((addresses (mapped tile)).getX row 1).toNat % 2048 = 0 ∧
    gives (Exec.store 0x50000 (wordBytes (.ofNat 64 0x10) ++ wordBytes 5) (.startData 0 0x50000)) (addresses (mapped tile)) = true ∧
    gives (Exec.store 0x50000 (wordBytes (.ofNat 64 0x20)) .plain) (addresses (mapped tile)) = true := by decide +kernel
/-- A privilege in the argument word that is 0, above the thread's, and 3; a TH.YIELD with and without a rival; and TH.PEEK. -/
def rivalled (prio code : Nat) : State :=
  let s := tile.pokeWord (row + 0x10000) (.ofNat 64 (code + prio * 2 ^ 8))
  { s with threads := s.threads ++ [{ self s with id := 1, row := row + 0x10000, slot := none }] }
theorem witness_SpawnYieldSelfPeekComplete : field (tile.getX row 2) 9 2 ≤ tile.privOf row ∧
    field ((regs tile [(2, 3 * 512)]).getX row 2) 9 2 = 3 ∧ field ((regs (tile.setCtrl row 2 16 2 1) [(2, 1024)]).getX row 2) 9 2 = 2 ∧
    tile.waitingRows (self tile) = [] ∧
    (∃ u ∈ (rivalled 0x80 2).waitingRows (self tile), tile.prio row ≤ (rivalled 0x80 2).effective u) ∧
    (∀ u ∈ (rivalled 0x7F 2).waitingRows (self tile), (rivalled 0x7F 2).effective u < tile.prio row) ∧
    leaves (peek 0x50000 8) (mapped tile) = true ∧ leaves (peek (.ofNat 64 (row + 0x400)) 64) (mapped tile) = true := by decide +kernel
/-- A watched line that has changed, nothing to wait for, a timeout alone and a line alone; an empty and a full store buffer. -/
theorem witness_WaitAndExitComplete : AtIssue tile (self tile) ∧ (self tile).sb = [] ∧
    (tile.pokeWord (row + 64 * 31) 9).word64 (row + 64 * 31) ≠ (tile.pokeWord (row + 64 * 31) 9).getX row 4 ∧
    tile.word64 (row + 64 * 20) = tile.getX row 4 ∧ leaves (Exec.atomic .add 0x50000 8 1 0) (mapped tile) = true :=
  ⟨tile_self, by decide +kernel⟩
theorem witness_LoadsAndStoresComplete : AtIssue (mapped tile) (self (mapped tile)) ∧
    (∀ n ∈ [1, 2, 4, 8, 64], leaves (Exec.load 0x50000 n) (mapped tile) = true ∧ leaves (Exec.load 0x50000 n true) (mapped tile) = true ∧
      gives (Exec.store 0x50000 (List.replicate n 7)) (mapped tile) = true) := ⟨mapped_self, by decide +kernel⟩
/-- Words whose full/empty bit is set and clear, a place that is not aligned, a granule in error, one in the own row, and a place with
no granules. -/
theorem witness_FullEmptyInstructionsComplete :
    (let s := mapped tile
     (∀ full ∈ [true, false], leaves (Exec.loadFE 0x50008 8 full) s = true) ∧ gives (Exec.storeFE 0x50000 (List.replicate 16 7)) (s.setGran 0x400000020000 16 .empty) = true ∧
     leaves (Exec.setFE 0x50008 8 true) s = true ∧ leaves (Exec.setFE 0x50000 16 false) s = true ∧
     (self s).replies = [] ∧ (self s).asked = [] ∧ (∀ k ∈ [AccKind.read, .rmw], s.check (self s) 0x50000 k = .ok 0x400000020000 ∧
       s.check (self s) (.ofNat 64 (row + 0x400)) k = .own (row + 0x400) ∧ s.check (self s) 0x70000 k = .ok 0x2000000) ∧
     s.region 0x400000020000 ≠ .control ∧ Exec.openOther s (self s) 0x400000020000 = false ∧ (self s).sb = [] ∧
     s.hasGran 0x2000000 = false ∧ s.hasGran 0x400000020000 = true ∧ s.poisoned 0x400000020000 16 = false ∧
     (∀ g ∈ granules 0x400000020000 16, s.granOfAddr g = .full ∧ (s.setGran 0x400000020000 16 .empty).granOfAddr g = .empty) ∧
     (s.setGran 0x400000020000 16 .poison).poisoned 0x400000020000 16 = true ∧
     (0x50008 : Word).toNat % 16 + 8 ≤ 16 ∧ (0x50006 : Word).toNat % sizeBytes 2 ≠ 0 ∧ ¬ (0x5000C : Word).toNat % 16 + 8 ≤ 16) := by
  decide +kernel
/-- A slot of one dimension of extent 4 that does not wrap and one that does, with positions inside and outside. -/
theorem witness_SlotInstructionsComplete : leaves (Exec.load 0x50000 64) (mapped tile) = true ∧
    (0x50000 : Word).toNat % 64 = 0 ∧ (0x50001 : Word).toNat % 64 ≠ 0 ∧ AtIssue (mapped tile) (self (mapped tile)) ∧
    (let total := (List.range (tile.slotDims row 1)).foldl (fun m k => m * tile.slotExtent row 1 k) 1
     total ≤ ((regs tile [(4, 2 ^ 63)]).getX row 4).toNat ∧ (tile.getX row 4).toNat < total) ∧ tile.slotWrap row 1 = false := by
  refine ⟨by decide +kernel, by decide, by decide, mapped_self, ?_⟩
  decide +kernel
theorem witness_OneSidedAndCounterInstructionsComplete :
    (let s := mapped tile
     (self s).sb = [] ∧ (0x50000 : Word).toNat % 64 = 0 ∧ s.oneSided = [] ∧
     leaves (do let hd ← Exec.load 0x50000 8; let c ← Exec.counterAddr 0x50040; return (hd, c)) s = true ∧
     leaves (do let p ← Exec.plainAddr 0x50040 .read 0; Exec.checkHold p.1 0x50040; Exec.reachRow p.1 false) s = true ∧
     leaves (Exec.plainAddr (.ofNat 64 (row + 0x400)) .read 0) s = true ∧ s.poisoned 0x400000020040 8 = false ∧
     field (s.word64 0x400000020040) 0 63 = 0 ∧
     ((s.importCounted 0 0x400000020040).cur.bind (s.importCounted 0 0x400000020040).thread?).isSome = true) := by decide +kernel
theorem witness_AtomicsComplete :
    ∀ op ∈ [AtomOp.add, .and, .or, .xor, .min, .minu, .max, .maxu, .swap, .cas, .faddBf16, .faddF32],
      leaves (Exec.atomic op 0x50000 4 5 6) (mapped tile) = true := by decide +kernel
/-- A line of the own row, one in memory, a value that is in error, and no thread's row there. -/
theorem witness_AtomicsComplete_line :
    (let s := mapped tile
     s.check (self s) (.ofNat 64 (row + 0x400)) .rmw = .own (row + 0x400) ∧ s.check (self s) 0x50000 .rmw = .ok 0x400000020000 ∧
     s.region 0x400000020000 ≠ .control ∧ Exec.openOther s (self s) 0x400000020000 = false ∧
     s.lostHold? (self s) 0x400000020000 = none ∧ s.threadAt? (rowOf 0x400000020000) = none ∧ (self s).replies = [] ∧
     (self s).asked = [] ∧ (self s).sb = [] ∧
     (let w := (s.noteBankWindow (self s) 0x50000 0x400000020000).countWindow 0 0x400000020000 true
      w.poisoned 0x400000020000 4 = false ∧ (w.setGran 0x400000020000 4 .poison).poisoned 0x400000020000 4 = true)) := by decide +kernel
theorem witness_AtomicsComplete_reach : (mapped tile).reach 1 0x400000020000 true = .ok (mapped tile) := rfl
/-- A vector register, a scalar in every lane, and a stream slot. -/
theorem witness_vectorSources : ∀ r ∈ [Specifier.v 3, .x 4, .s 0], ∀ w ∈ [8, 16, 32, 64],
    leaves (do let _ ← Exec.vsrc r w; let _ ← Exec.vsrc (.v 5) w; Exec.vsrc (.v 6) w)
      (tile.pokeWord (row + 0x380) (.ofNat 64 row)) = true := by decide +kernel
theorem witness_LanewiseVectorsComplete : AtIssue tile (self tile) ∧ leaves (do let _ ← Exec.vsrc (.v 3) 32; Exec.vsrc (.v 5) 32) tile = true :=
  ⟨tile_self, by decide +kernel⟩
theorem witness_VectorComparesAndConversionsComplete : AtIssue tile (self tile) ∧
    leaves (do let _ ← Exec.vsrc (.v 3) 16; Exec.vsrc (.x 5) 16) tile = true ∧ leaves (Exec.vsrc (.v 31) (cvtSource 0x43).width) tile = true :=
  ⟨tile_self, by decide +kernel⟩
theorem witness_LaneMovesComplete : AtIssue tile (self tile) ∧ leaves (do let _ ← Exec.vsrc (.v 0) 8; Exec.vsrc (.x 0) 8) tile = true :=
  ⟨tile_self, by decide +kernel⟩
/-- A reduction's only unit, and the first of two. -/
theorem witness_ReductionsAndQuantisationComplete : AtIssue tile (self tile) ∧ tile.prog row < reductionUnits tile row (.v 3) ∧
    reductionUnits tile row (.v 3) ≤ tile.prog row + 1 ∧ leaves (Exec.vsrc (.v 3) 32) tile = true ∧
    leaves (do let _ ← Exec.vsrc (.v 3) 32; Exec.vsrc (.v 4) 8) tile = true := ⟨tile_self, by decide +kernel⟩
/-- A tenant with a loaded routine, shipped to a word of DRAM. -/
def shippable : State :=
  { mapped tile with tenants := (mapped tile).tenants.map fun (t : Tenant) => { t with routines := [(0, ⟨1, 1, [0]⟩)] } }
theorem witness_ShippedRoutineCompletes :
    (let s := shippable
     (0x70008 : Word).toNat % 8 = 0 ∧ (self s).sb = [] ∧
     gives (Exec.plainAddr 0x70008 .rmw 2) s = true ∧ s.region 0x2000008 = .dram ∧
     ((s.tenant? (s.tenantOf row)).bind fun t => assoc t.routines 0) = some ⟨1, 1, [0]⟩ ∧
     leaves (do
       let p ← Exec.plainAddr 0x70008 .rmw 2
       Exec.checkHold p.1 0x70008
       Exec.reachRow p.1 true) s = true ∧
     gives (Exec.answered 0x2000008) s = true ∧
     (let b := withSelf s fun t => { t with asked := [0x2000008], replies := [.data 0x2000008 [0]] }
      (match (Exec.answered 0x2000008).run b with
        | .ok (some (.data _ bs), _) => bs == [0]
        | _ => false) = true) ∧ Exec.openOther s (self s) 0x2000008 = false ∧ s.poisoned 0x2000000 64 = false) := by decide +kernel

theorem mapped_bank : AtIssue (mapped bank) (self (mapped bank)) := atIssue_self _ (by decide +kernel) (by decide +kernel)
/-- The state that a part of an instruction leaves. -/
def after {α : Type} (m : Exec α) (s : State) : State :=
  match m.run s with
  | .ok (_, t) => t
  | .error _ => s
/-- A tile with accumulators 0 and 1 DEFINED and bound, and no matrix instruction in flight. -/
def matrices : State := withSelf (after (do defineAcc 0 Acc.zero; defineAcc 1 Acc.zero) tile) fun t => { t with matrix := [] }
/-- A state whose accumulators are to be written back. -/
def dirty : State := (mapped matrices).pokeWord (row + 0x7F8) 0x50800
theorem ready : MatrixReady (mapped matrices) (self (mapped matrices)) [0, 1] := ⟨by decide +kernel, by decide +kernel, by decide +kernel⟩
theorem witness_ProductsComplete : MatrixReady (mapped matrices) (self (mapped matrices)) [0, 1] ∧ matrices.accStatus row 0 = 1 ∧
    tile.accStatus row 0 ≠ 1 ∧
    (let s := mapped matrices
     leaves (do let _ ← readAcc 0; let _ ← rowReads 0x50000 64 64; rowReads 0x50800 64 64) s = true ∧
     leaves (do let _ ← readAcc 0; let _ ← Exec.loadLines 0x50000 576; Exec.loadLines 0x50400 576) s = true ∧
     leaves (do
       let _ ← readAcc 0
       let _ ← (List.range 2).mapM fun i => Exec.loadLines (wordAdd 0x50000 (192 * i)) 192
       (List.range 2).mapM fun i => Exec.loadLines (wordAdd 0x50400 (192 * i)) 192) s = true ∧
     leaves (do let _ ← readAcc 0; let _ ← gatherRows ⟨.a 0, .x 1, .x 2, .x 3, .bf16, .bf16, 0, 1⟩ 0x50000 64; rowReads 0x50800 64 64) s = true) ∧
    (let s := mapped matrices
     leaves (do let _ ← readAcc 0; let _ ← mvsBatch 0x50000 1 64; (List.range 1).mapM fun _ => Exec.vsrc (.v 3) 8) s = true ∧
     leaves (do let p ← Exec.counterAddr 0x50040; Exec.reachRow p true) s = true) := by
  refine ⟨ready, ?_⟩
  decide +kernel
/-- A first accumulator with a save area, and a further one. -/
theorem witness_AccumulatorUpdatesComplete : MatrixReady (mapped matrices) (self (mapped matrices)) [0, 1] ∧
    matrices.accStatus row 0 = 1 ∧ matrices.accStatus row 1 = 1 ∧ field (matrices.astat row) 0 8 ≠ 0 ∧
    field (tile.astat row) 0 8 = 0 ∧ State.asaveOk (dirty.asave row) = true ∧ leaves (do let _ ← readAcc 1; readAcc 0) matrices = true ∧
    leaves (do nameAcc 3; defineAcc 3 Acc.zero) matrices = true ∧
    leaves (do nameAcc 0; let _ ← rowReads 0x50000 64 64; defineAcc 0 Acc.zero) (mapped matrices) = true ∧
    leaves (do let _ ← rowReads 0x50000 128 128; readAcc 0) (mapped matrices) = true := by
  refine ⟨ready, ?_⟩
  decide +kernel
theorem witness_AccumulatorTransfersComplete : MatrixReady (mapped matrices) (self (mapped matrices)) [0, 1] ∧ matrices.accInc row 0 = false ∧
    (self matrices).matrix = [] ∧ leaves (nameAcc 0) matrices = true ∧ ((self matrices).acc 0).bound = true ∧ tile.accStatus row 0 ≠ 1 ∧ (∀ i < 32, (wordAdd 0x50000 (i * 64)).toNat % 2048 + 64 ≤ 2048) ∧
    gives (do let r ← gatherRows ⟨.x 1, .x 1, .x 2, .x 3, .bf16, .bf16, 0, 1⟩ 0x50000 64; storeRows 0x50000 64 r) (mapped matrices) = true ∧
    gives (do let a ← readAcc 0; storeAcc true 0x50000 64 64 a) (mapped matrices) = true ∧
    (dirty.writeBack (self dirty) false).isSome = true := by
  refine ⟨ready, ?_⟩
  decide +kernel
/-- A stored tile of every row, one of some rows, a dynamic tile, and the end of its walk. -/
def entry (kind : Nat) : State :=
  let s := mapped matrices
  let s := { s with mem := s.mem.setBytes 0x400000020000 (leBytes 8 (kind + 0x30000) ++ leBytes 8 0x50400) }
  s.setSkink { s.skink 0 with ends := [(0, .rows [(3, 5, List.replicate 32 0)])] }
theorem witness_SparseTilesComplete : MatrixReady (mapped matrices) (self (mapped matrices)) [0, 1] ∧
    (∀ kind ∈ [0, 1], leaves (do let e ← readEntry 0x50000; let _ ← tileRows e .e4m3; let _ ← readAcc 0; rowReads 0x50800 32 32)
      (entry kind) = true ∧
      gives (do let e ← readEntry 0x50000; let _ ← tileRows e .e4m3; Exec.store 0x50000 (wordBytes 5)) (entry kind) = true) ∧
    leaves (do let e ← readEntry 0x50000; let _ ← walkedRows e 0x50000 .e4m3; let _ ← readAcc 0; rowReads 0x50800 32 32) (entry 2) = true := by
  refine ⟨ready, ?_⟩
  decide +kernel
/-- A walker's thread with a walk. -/
def walking : State := walker.setSkink { walker.skink (self walker).place with cur := some default }
theorem witness_WalkInstructionsComplete : AtIssue walking (self walking) ∧ (walking.skink (self walking).place).cur = some default ∧
    leaves (Exec.load (walking.rowVa (self walking)) 1) walking = true ∧ leaves (Exec.load (walking.rowVa (self walking)) 64) walking = true :=
  ⟨atIssue_self _ (by decide +kernel) (by decide +kernel), by decide +kernel⟩

/-- A subarray whose row is closed, open, or held by the thread, named by a bank's thread. -/
def rowBuffer (b : BufState) : State := (mapped bank).setBuf (((mapped bank).locate 0x2000000).map (·.subId) |>.getD 0) b
theorem witness_RowInstructionsComplete : AtIssue (mapped bank) (self (mapped bank)) ∧
    (∀ b ∈ [BufState.free, .opened 0, .opened 5, .thread 0, .held 0 0, .held 5 0],
      leaves (namedRow (fm 4 3)) (regs (rowBuffer b) [(3, 0x70000)]) = true) ∧
    gives (Exec.checkHold 0x2000000 0x70000) (mapped bank) = true ∧
    (match (mapped bank).locate 0x2000000 with
     | none => false
     | some l => l.rown == 0 && leaves (activateRow 0x2000000 l (.opened 0)) (rowBuffer .free) &&
         leaves (activateRow 0x2000000 l (.held 0 0)) (rowBuffer (.opened 5))) = true ∧
    (mapped bank).holdState (self bank).row 1 = 0 ∧
    ((mapped bank).setHold (self bank).row 1 1 0).holdState (self bank).row 1 = 1 := ⟨mapped_bank, by decide +kernel⟩
/-- No group, an open one, a doomed one, and one of another thread. -/
def grouped (s : State) (bits : Nat) : State := s.pokeWord ((self bank).row + 0x7E0) (.ofNat 64 bits)
theorem witness_GroupAndSafePointInstructionsComplete : AtIssue (grouped bank 1) (self bank) ∧ (self bank).sb = [] ∧
    bank.inGroup (self bank).row = false ∧ (grouped bank 1).inGroup (self bank).row = true ∧
    field ((grouped bank 3).bstat (self bank).row) 1 1 = 1 ∧ field ((grouped bank 1).bstat (self bank).row) 1 1 = 0 ∧
    (bank.threads.any fun t => t.exec == .bank && t.place == (self bank).place && t.id != (self bank).id && bank.inGroup t.row) = false ∧
    (let t := ((reopenCommitted (grouped bank 1) (self bank)).commitGroup (self bank)).clearGroup (self bank)
     (t.cur.bind t.thread?).isSome = true) :=
  ⟨by unfold AtIssue; decide +kernel, by decide +kernel⟩
/-- A descriptor of 32-byte heads with one token, whose block table's only entry names row 0 of subarray 1. -/
def attends (tokens : Nat) : State :=
  let s := mapped bank
  let r := (self bank).row
  let s := { s with mem := s.mem.setBytes 0x2000000 (leBytes 4 0x100) }
  regs (s.setV r 1 (leLine (leBytes 8 0x70000 ++ leBytes 4 tokens ++ leBytes 4 5 ++ leBytes 48 0))) [(2, r + 0x440), (3, r + 0x480)]
theorem witness_AttentionCompletes : leaves (do
      let _ ← attnOwn ((attends 1).getX (self bank).row 2) 64
      let _ ← attnOwn ((attends 1).getX (self bank).row 3) 192
      let p ← attnPage 0x70000 0
      let k ← attnBytes (p.1) 64 p.2
      let v ← attnBytes (p.1 + 1024) 64 p.2
      pure (k, v)) (attends 1) = true ∧
    (attends 1).prog (self bank).row = 0 ∧ ((attends 1).rowVa (self (attends 1))).toNat = (self bank).row := by decide +kernel

/-- The head of a hash table with one table of two buckets, in mapped memory. -/
def hashed : State :=
  let s := mapped bank
  let s := { s with mem := s.mem.setBytes 0x2000000 (leBytes 8 (2 ^ 2 + 2 ^ 7 + 2 ^ 12 + 2 * 2 ^ 21 + 2 ^ 27) ++ leBytes 8 0 ++
    leBytes 8 0x70400 ++ leBytes 8 0x70600 ++ leBytes 8 0x70640 ++ leBytes 8 64 ++ leBytes 8 0x70700) }
  regs s [(1, 0x70000), (2, 0x50000), (3, 0x50800)]
theorem witness_RetrievalInstructionsComplete : AtIssue hashed (self hashed) ∧ (self hashed).sb = [] ∧
    (0x70000 : Word).toNat % 64 = 0 ∧ hashed.oneSided = [] ∧
    leaves (do let h ← hashDescriptor 0x70000 1 true; hashInput h 0x50000) hashed = true ∧
    leaves (do let h ← hashPages 0x70000 1; let _ ← probeTarget 0x50000 576; tableHeld 0x70000 h; let c ← Exec.counterAddr 0x50800; pure (h, c)) hashed = true ∧
    leaves (do let h ← hashTable 0x70000 1; let u ← Exec.atomicAs (fun id dp => .update id dp []) .add 0x70040 8 1 0; pure (h, u)) hashed = true ∧
    leaves (do let h ← hashDescriptor 0x70000 0 false; let b ← readNewest 0x70040 8; pure (h, b)) hashed = true ∧
    (match (do let _ ← hashDescriptor 0x70000 0 false; let p ← Exec.plainAddr 0x70000 .read 0; let _ ← Exec.plainAddr 0x70048 .read 0; let b ← readNewest 0x70048 8; pure (p.1, b) :
        Exec (Nat × List Byte)).run hashed with
      | .ok (p, t) => decide ((hashed.getX (self hashed).row 5).toNat ≤ (leWord p.2).toNat) &&
          ((importApplied t 0 p.1 0).cur.bind (importApplied t 0 p.1 0).thread?).isSome
      | .error _ => false) = true :=
  ⟨atIssue_self _ (by decide +kernel) (by decide +kernel), by decide +kernel⟩
/-- A unit that was given up, and the stores of a region without entries. -/
theorem witness_RetrievalInstructionsComplete_others : (self hashed).split = none ∧ hashed.prog (self hashed).row = 0 ∧
    gives (do
      let _ ← dedupLines 0x50000 1
      Exec.store 0x50800 (leBytes 4 0 ++ leBytes 60 0)
      storeEntries 0x50800 []) hashed = true ∧
    ((default : Split).failed = none ∧ { (default : Split) with stage := 4, short := true }.short = true) := by decide +kernel
theorem witness_SyncObjectInstructionsComplete : AtIssue (mapped tile) (self (mapped tile)) ∧ gives (syncName 7) (mapped tile) = true ∧
    gives (syncName 8) (mapped tile) = false ∧ State.inScope (self tile) (tile.syncObj 0 7) = true ∧ (tile.syncObj 0 7).seq.toNat = 0 ∧
    tile.linesDone (self tile) [0] = true ∧
    (let s := { (mapped tile) with mem := (mapped tile).mem.setBytes 0x400000020000 (leBytes 8 0x50040 ++ leBytes 8 64) }
     leaves (do let r ← bindRange 0x50000; let l ← bindLine r.1; pure l) s = true) := ⟨mapped_self, by decide +kernel⟩
/-- A bound domain of one member with one slot, whose first exchange is under way. -/
def domain (abort : Bool) : Domain :=
  { name := 0, tenant := 0, members := [0], slots := 1, patterns := 1, width := 64, sched := [(0, 0)], counters := [1], registered := [false]
    votes := [none], sealed := [none], pattern := 0, patternOf := [], abort := abort, begun := [(1, 0)], regLines := []
    buffers := [((0, 1, 0), 5)], pool := 0 }
/-- A member, in the exchange or not, at a hub time. -/
def member (now : Nat) (abort : Bool := false) : State :=
  { withSelf (mapped tile) fun t => { t with exchange := some (0, 1, 0) } with domains := [domain abort], now := now }
theorem witness_DomainInstructionsComplete : AtIssue (member 0) (self (member 0)) ∧
    (∀ a ∈ [true, false], gives (do let d ← boundDomain 0; memberOf d) (member 0 a) = true) ∧
    (member 0).atDomain (self (member 0)) 0 = true ∧ (member 0).storesDone (self (member 0)) = true ∧
    (let e := (domain false).register 0 1 0 []
     e.allAt 1 = true) ∧ (domain false).registered.getD 0 false = false :=
  ⟨atIssue_self _ (by decide +kernel) (by decide +kernel), by decide +kernel⟩
/-- The descriptor of a domain of one member, its row, with one slot. -/
def binding (w1 : Nat) : State :=
  let s := mapped tile
  { s with mem := s.mem.setBytes 0x400000020000 (leBytes 8 (1 + 2 ^ 10 + 64 * 2 ^ 32) ++ leBytes 8 w1 ++ leBytes 8 0x50048 ++ leBytes 40 0 ++
      leBytes 8 row) }
theorem witness_DomainInstructionsComplete_bind : gives (domName 0) (binding 0x50040) = true ∧ (binding 0x50040).domain? 0 = none ∧
    ((member 0).domain? 0).isSome = true ∧ leaves (Exec.load 0x50000 64) (binding 1) = true ∧
    (match (Exec.load 0x50000 64).run (binding 1) with
      | .ok (bs, t) => ! domFieldsOk (domLevel 0) ((List.range 8).map fun k => leWord ((bs.drop (8 * k)).take 8)) &&
          ((t.dropAnswers 0).cur.bind (t.dropAnswers 0).thread?).isSome
      | .error _ => false) = true ∧
    (match (do
        let bs ← Exec.load 0x50000 64
        let rows ← wordTable 0x50040 1
        let sched ← wordTable 0x50048 1
        awaitMembers rows
        let found ← rows.mapM fun r => domMember 0 r
        pure (bs, rows, sched, found) : Exec (List Byte × List Word × List Word × List (Option Nat))).run (binding 0x50040) with
      | .ok ((bs, _, sched, found), t) => domFieldsOk (domLevel 0) ((List.range 8).map fun k => leWord ((bs.drop (8 * k)).take 8)) &&
          found == [some 0] && scheduleOk 1 1 1 sched && t.domPool 0 1 == some 0
      | .error _ => false) = true := by decide +kernel
/-- A slot that has not begun, one under way, and one that has ended; queues of a cluster. -/
theorem witness_ExchangeAndQueueInstructionsComplete : (∀ n ∈ [0, 5, 1000], gives (slotEntry 0) (member n) = true) ∧
    (domain false).slotBegun 1 0 0 = true ∧ (domain false).slotEnded 1 0 0 = false ∧ (domain false).slotEnded 1 0 18 = true ∧
    (domain false).slotBegun 2 0 0 = false ∧ ((domain false).buffers.find? (·.1 == (0, 1, 0))).isSome = true ∧
    (queued [5]).queue? 0 3 = some ⟨0, 3, 0, 16, [5]⟩ ∧ (queued []).queue? 0 4 = none ∧ (queued []).poolUsed 0 + 8176 ≤ 8192 ∧
    8192 < (queued []).poolUsed 0 + 8192 := by decide +kernel
theorem witness_EngineSubmissionsComplete : AtIssue (mapped tile) (self (mapped tile)) ∧
    NamesContext (mapped tile) (self (mapped tile)) 7 7 ∧ ¬ NamesContext (mapped tile) (self (mapped tile)) 8 8 ∧
    (self (mapped tile)).sb = [] ∧ (mapped tile).contextGated 7 = false ∧ (mapped tile).queueLoad 7 0 < 64 ∧
    (mapped tile).storesDone (self (mapped tile)) = true :=
  ⟨mapped_self, by unfold NamesContext; decide +kernel⟩
/-- Operands that are not aligned, and a word that names no context of the tenant. -/
theorem witness_EngineSubmissionsComplete_faults : (0x50020 : Word).toNat % 64 ≠ 0 ∧ (0x50040 : Word).toNat % 64 = 0 ∧
    ∀ k, ¬ NamesContext (mapped tile) (self (mapped tile)) 8 k := by
  refine ⟨by decide, by decide, ?_⟩
  rintro k ⟨rfl, h⟩
  revert h
  decide +kernel
/-- A descriptor of a gather of m indices, whose list is the line after it. -/
def gathering (m : Nat) : List Byte := leBytes 8 0x50000 ++ leBytes 8 0x50400 ++ leBytes 8 0x50040 ++ leBytes 4 m ++ leBytes 36 0
theorem witness_EngineSubmissionsComplete_gather : ∀ m ∈ [1, 16, 17],
    (let s := { (mapped tile) with mem := (mapped tile).mem.setBytes 0x400000020000 (gathering m) }
     leaves (do
       let bs ← Exec.load 0x50000 64
       gatherChecks bs
       Exec.load 0x50040 64) s = true ∧
     (self s).keptLines 0 (s.prog row) = none ∧
     (withSelf s fun t => { t with reserved := some (0, [leLine (gathering m)]) }).prog row = 0) := by decide +kernel
theorem witness_ContextInstructionsComplete : AtIssue (mapped tile) (self (mapped tile)) ∧
    NamesContext (mapped tile) (self (mapped tile)) 0 0 ∧ ((mapped tile).ctx 0).tl = 0 ∧ ((mapped tile).ctx 0).halt = false ∧
    leaves (Exec.plainAddr 0x50000 .read 0) (mapped tile) = true ∧ (mapped tile).inTile 0x400000020000 = true ∧
    ((importWrote (mapped tile) 0 ((mapped tile).ctx 0) 0).cur.bind (importWrote (mapped tile) 0 ((mapped tile).ctx 0) 0).thread?).isSome = true ∧
    (let t := (mapped tile).dropAccesses (State.ofContext 0) (ctxParty 0)
     (t.cur.bind t.thread?).isSome = true) ∧
    (let t := (mapped tile).dropNoMapping ((default : EngCmd).owner)
     (t.cur.bind t.thread?).isSome = true) :=
  ⟨mapped_self, by unfold NamesContext; decide +kernel⟩
/-- The thread at a privilege. -/
def privileged (s : State) (p : Nat) : State := s.setCtrl row 2 16 2 p
theorem privileged_self : AtIssue (privileged (mapped tile) 2) (self (privileged (mapped tile) 2)) :=
  atIssue_self _ (by decide +kernel) (by decide +kernel)
theorem witness_ControlRegisterAccessesComplete : AtIssue (privileged (mapped tile) 2) (self (privileged (mapped tile) 2)) ∧
    (privileged (mapped tile) 2).privOf row = 2 ∧
    (∀ cr ∈ [0x10, 0x20, 0x33, 0x62, 0x70, 0x80, 0x81], gives (crCheck cr 0 false) (privileged (mapped tile) 2) = true) ∧
    (∀ cr ∈ [0x10, 0x20, 0x33, 0x62, 0x70, 0x80, 0xA0], gives (crCheck cr 0 true) (privileged (mapped tile) 2) = true) :=
  ⟨privileged_self, by decide +kernel⟩
theorem witness_RoutineTableWritesComplete : gives (crCheck 0x80 63 true) (privileged (mapped tile) 2) = true ∧
    gives (crCheck 0x80 64 true) (privileged (mapped tile) 2) = false ∧ gives (imageLines 0x50000 16 0) (mapped tile) = true ∧
    ((mapped tile).tenant? 0).isSome = true := by decide +kernel
theorem witness_TranslationInstructionsComplete : (privileged (mapped tile) 2).privOf row = 2 ∧ (mapped tile).privOf row ≠ 2 ∧
    (privileged (mapped tile) 1).privOf row = 1 ∧ (privileged (mapped tile) 0).privOf row = 0 ∧
    leafOk (leafOf 0x400000020000) 0 = true ∧ field (0x50000 : Word) 0 2 ≠ 3 ∧ (self tile).unit = some 0 ∧
    gives (Exec.counterAddr 0x50000) (privileged (mapped tile) 1) = true := by decide +kernel
/-- A tenant whose rings are in tile memory, behind page tables in the thread's row. -/
def ringed (full : Bool) : State :=
  let s := mapped tile
  let table (s : State) (a e : Nat) : State := { s with mem := s.mem.setBytes a (leBytes 8 e) }
  let s := table (table (table s 0x400000021000 (0x400000021800 + 1)) 0x400000021800 (0x400000022000 + 1)) 0x400000022000 (0x400000000000 + 31)
  let s := if full then s else s.setGran 0x400000020000 64 .empty
  { s with tenants := s.tenants.map fun (t : Tenant) => { t with
      ptroot := [(0, .ofNat 64 (1 + 0x400000021000))], hring := .ofNat 64 (0x20000 + 4), mbox := .ofNat 64 (0x20000 + 4), vecCount := 1 } }
theorem witness_ServiceInstructionsComplete : (∀ full ∈ [true, false],
      ((ringed full).tenant? 0).bind (fun t => (ringed full).ringSlot t t.hring t.hringNext) = some 0x400000020000 ∧
      ((ringed full).tenant? 0).bind (fun t => (ringed full).ringSlot t t.mbox t.mboxNext) = some 0x400000020000 ∧
      (ringed full).slotFree 0x400000020000 = ! full) ∧
    ((mapped tile).tenant? 0).bind (fun t => (mapped tile).ringSlot t t.hring t.hringNext) = none ∧
    ((mapped tile).tenant? 0).map (·.lastLogUs) = some none ∧ (mapped tile).privOf row ≠ 2 ∧
    gives (Exec.plainAddr 0x50000 .write 1) (privileged (mapped tile) 2) = true := by decide +kernel

/-! Events: the premises that bear on a state, at the values where the clauses meet. -/

/-- A state with an input. -/
def given (s : State) (i : EventIn) : State := { s with inp := i }
/-- A module at a boot stage. -/
def atStage (n : Nat) : State := { State.reset with boot := { Boot.reset with stage := n } }
/-- An image that fails, at any rollback minimum above 0, and one that a signature admits. -/
theorem witness_BootEventsTakeEffect : (atStage 0).boot.powered = true ∧ (atStage 0).boot.recov = false ∧ (atStage 0).boot.thermTrip = false ∧
    (∀ n ∈ [0, 1, 2, 3, 4, 5], (atStage n).boot.stage = n) ∧ (State.reset.restart false).boot.powered = false ∧
    ((atStage 1).boot.flash[0]?).isSome = true := by decide +kernel
theorem witness_BootEventsTakeEffect_images (img : FwImage) (s : State) (h : s.boot.rollback = 0) :
    s.verifyImage 0 img = 0 ↔ Config.signatureHolds img.digest img.signature = true := by
  unfold State.verifyImage
  cases Config.signatureHolds img.digest img.signature <;> simp [h]
/-- A module at READY, with a tenant 5 that has a window and a key. -/
def ready6 : State :=
  let s := mapped tile
  { s with
    boot := { Boot.reset with stage := 6 }
    tenants := s.tenants ++ [{ Tenant.firmware with
      num := 5, asidFirst := 8, asidCount := 2, vecFirst := 4, vecCount := 2, keyFirst := 3, keyCount := 2, pasid := 8
      windows := [(0, 0x3000000, .ofNat 64 (1 + 7 * 2 ^ 33 + 2 ^ 45))] }]
    secured := true, receipts := [(7, [1, 2])] }
def request (tenant : Nat) : TenantReq := ⟨tenant, 16, 1, 8, 1, 8, 1, 8, 16, 1, [(1, 1)], 0⟩
theorem witness_HostEventsTakeEffect : IsReady ready6 ∧ ready6.tenantFits (request 63) = true ∧ ready6.tenantFits (request 64) = false ∧
    ready6.tenantFits (request 5) = false ∧ (ready6.tenant? 5).isSome = true ∧
    (let span := State.windowSpan 0x3010000 1
     (∀ u ∈ ready6.tenants, ∀ w ∈ u.windows, ¬ (u.num = 5 ∧ w.1 = 63) →
        State.spansMeet span.1 span.2 (State.windowSpan w.2.1 w.2.2).1 (State.windowSpan w.2.1 w.2.2).2 = false)) ∧
    ready6.anyWindow 0x4000000 = false ∧ ready6.region 0x4000000 = .dram ∧ (ready6.startScrub 5 0x4000000).2 = 0 ∧
    (ready6.startScrub 0 0x4000000).2 = 1 ∧ assoc ready6.receipts 7 = some [1, 2] ∧ ready6.hostBlocked 0x3000000 .read false = none ∧
    ready6.poisoned 0x3000000 64 = false ∧ (0x3000000 + 0 % 64) + 64 ≤ 0x018000000000 ∧
    ready6.hostBlocked 0x017FFFFFFFC0 .write false = none := by
  refine ⟨⟨⟨by decide +kernel, by decide +kernel⟩, by decide +kernel⟩, ?_⟩
  decide +kernel
/-- Host accesses to rows that no buffer holds, to an open row, and to a control register. -/
theorem witness_HostEventsTakeEffect_reach : (∀ a ∈ [0x3000000, 0x017FFFFFFFC0, row],
      (match ready6.hostReach a 64 with
        | .ok t => t.boot.stage == 6 && t.hostBlocked a .read false == none
        | _ => false) = true) ∧
    (ready6.openAt? row).isSome = true ∧ ready6.openAt? 0x3000000 = none ∧ (ready6.controlBytes ctlPower 8).isSome = true := by decide +kernel
theorem witness_HostEventsTakeEffect_boot : ready6.hostReach row 64 = .ok ready6 := rfl
/-- Islands of each kind, ON, gated and in transition. -/
def islands6 (n st req : Nat) : State := ready6.updIsland n fun i => { i with st := st, req := req }
theorem witness_IslandEventsTakeEffect : (∀ n ∈ [0, 1, 16, 23, 24, 27, 28, 31], (ready6.islands[n]?).isSome = true) ∧
    ready6.islands[32]? = none ∧ (islands6 0 2 2).islandOn 0 = false ∧ (islands6 1 2 2).islandOn 0 = true ∧
    (∀ n ∈ [0, 1, 16, 24], ((islands6 n 3 2).islands[n]?).map (·.st) = some 3) ∧
    (((islands6 16 3 2).drainIsland 16).islandRows 16).isEmpty = true ∧
    (∀ n ∈ [1, 16, 24, 28], (islands6 n 0 0).boot.thermTrip = false ∧ ((islands6 n 0 0).islands[n]?).map (·.st) = some 0) ∧
    (∀ n ∈ [0, 1, 16, 29], ((islands6 n 2 2).islands[n]?).map (·.st) = some 2) ∧
    (let s := { islands6 0 3 2 with threads := [] }
     (s.gateTiles 0 2).2 = true ∧ ((s.gateTiles 0 2).1.gateMatrix 0 2).2 = true) := by decide +kernel
/-- A stack that no page maps to, when n is the number of its pages: each is in the far tier. -/
def emptyStack (n : Nat) : State :=
  { State.reset with dpit := (List.range n).map fun p => ⟨p, .far, .far p, .frame 0 0, false, []⟩ }
theorem emptyStack_quiesced (n : Nat) (hn : n = 2 ^ 20) : (emptyStack n).quiesced 0 = true := by
  have hf : ((emptyStack n).dpit.filter fun d => d.page / 2 ^ 20 == 0) = (emptyStack n).dpit := by
    apply List.filter_eq_self.2
    intro d hd
    obtain ⟨p, hp, rfl⟩ := List.mem_map.1 hd
    have := List.mem_range.1 hp
    have : p / 2 ^ 20 = 0 := by omega
    simpa using this
  have hl : (emptyStack n).dpit.length = 2 ^ 20 := by simp [emptyStack, hn]
  have hs : (emptyStack n).subs = [] := rfl
  have ht : (emptyStack n).threads = [] := rfl
  have hg : (emptyStack n).shadows = [] := rfl
  unfold State.quiesced
  rw [hf, hl, hs, ht, hg]
  simp only [List.all_nil, Bool.and_true, beq_self_eq_true, Bool.true_and]
  apply List.all_eq_true.2
  intro d hd
  obtain ⟨p, _, rfl⟩ := List.mem_map.1 hd
  rfl
/-- Masks that invert, the reset ones, and masks of zero that do not. -/
theorem witness_PowerEventsTakeEffect : (State.reset.stackRegs[0]?).isSome = true ∧ (State.reset.stackRegs[23]?).isSome = true ∧
    ((State.reset.stackRegs[0]?).map inverseMasksGood) = some true ∧
    ((State.reset.stackRegs[0]?).map fun r => inverseMasksGood { r with staged := [] }) = some false ∧ State.reset.quiesced 0 = false ∧
    (∀ n ∈ [40000000, 40000001], ({ (default : StackRegs) with applying := true }).appliedAt + 40000000 ≤ n) ∧
    (ready6.tenants.any (·.num != 0)) = true ∧ (State.reset.tenants.any (·.num != 0)) = false ∧
    (State.reset.writeControl ctlPower 0 0x0000FFFF00000000).isSome = true ∧ 0 < State.reset.islands.length := by decide +kernel
/-- A port that is up, with a flit that has not been acknowledged. -/
def linked (now : Nat) : State :=
  { ready6 with
    now := now
    ports := ready6.ports.map fun (p : Port) => { p with st := .normal, replay := [default], progressAt := 0 }
    acl := [(0, .ofNat 64 (3 * 2 ^ 18 * 0 + 5 * 2 ^ 18 + 8 * 2 ^ 24 + 2 ^ 38 + 2 ^ 34 + 2 ^ 35 + 2 ^ 36 + 2 ^ 37))]
    syncs := [((5, 0), ⟨0, [], [], 4, 0, 0⟩)]
    remotes := [⟨1, 0, 0, 0x50000, .load ⟨0, 0⟩ 8, []⟩, ⟨2, 0, 0, 0x50000, .store 0, []⟩, ⟨3, 0, 0, 0x50000, .atomic ⟨0, 0⟩ .add 8 1 0, []⟩] }
/-- An admitted request of tenant 5, whose page table is in its window, and one that no entry matches. -/
def inbound (tenant : Nat) : Inbound := { (default : Inbound) with dtenant := .ofNat 6 tenant, va := 0x10000, n := 8, bytes := [1, 2] }
def reached : State :=
  let s := linked 0
  let table (s : State) (a e : Nat) : State := { s with mem := s.mem.setBytes a (leBytes 8 e) }
  let s := table (table (table (table (table s 0x3000000 (0x3000800 + 1)) 0x3000800 (0x3001000 + 1)) 0x3001000 (0x3001800 + 1))
    0x3001800 (0x3002000 + 1)) 0x3002008 (0x3000000 + 31)
  { s with tenants := s.tenants.map fun (t : Tenant) => if t.num = 5 then { t with ptroot := [(8, 0x3000001)] } else t }
theorem witness_FabricEventsTakeEffect : (∀ n ∈ [0, 127], ((linked 0).ports[n]?).map (·.st) = some .normal) ∧
    flitCrcHolds (flitBytes { (default : Flit) with typ := 1, seq := 3 }) = true ∧ flitOf (flitBytes { (default : Flit) with typ := 1, seq := 3 }) =
      { (default : Flit) with typ := 1, seq := 3, payload := List.replicate 240 0 } ∧ flitCrcHolds (List.replicate 256 0) = false ∧
    (linked 9999).noProgress 0 10000 = false ∧ (linked 10000).noProgress 0 10000 = true ∧ (linked 50000).noProgress 127 50000 = true ∧
    (linked 0).islandOn 24 = true ∧ ((linked 0).admits (inbound 5) [35, 36] = .admitted 8) ∧ (linked 0).admits (inbound 6) [35] = .refused ∧
    (match reached.reachAll (State.inboundParty (inbound 5)) false (reached.tableReads 5 8 0x10000) with
      | .ok w => (match w.inboundParts (inbound 5) 8 8 .rmw with
        | .ok ps => ps == [(0x3000000, 8)] && ! w.inboundWaits ps && (match w.partsReach (State.inboundParty (inbound 5)) true ps with
          | .ok t => ! t.poisoned 0x3000000 8 && (t.doAtomic none .add 0x3000000 8 1 0).isSome
          | _ => false)
        | .error _ => false)
      | _ => false) = true ∧
    ((linked 0).syncs.find? fun o => o.1 == (5, 0)).isSome = true ∧ (∀ tag ∈ [1, 2, 3], ((linked 0).remote? tag).isSome = true) := by
  decide +kernel

/-- A launch queue on the page that a request reaches and one elsewhere, an entry without LAUNCH, a list's index to come, and a lane that has
failed its check 15 times in a millisecond. -/
def launchInto (lqb : Nat) : State :=
  { reached with tenants := reached.tenants.map fun (t : Tenant) => if t.num = 5 then { t with lqb := .ofNat 64 lqb } else t }
theorem witness_FabricEventsTakeEffect_others : (0x3000000 : Nat) ∈ (launchInto (0x10000 + 4)).launchSlots (inbound 5) ∧
    (0x3000000 : Nat) ∉ reached.launchSlots (inbound 5) ∧ reached.admits (inbound 5) [34, 36] = .admitted 8 ∧
    ({ reached with acl := [(0, .ofNat 64 (5 * 2 ^ 18 + 8 * 2 ^ 24 + 2 ^ 38 + 2 ^ 36))] }).admits (inbound 5) [34, 36] = .refused ∧
    ({ reached with acl := [(0, .ofNat 64 (5 * 2 ^ 18 + 8 * 2 ^ 24 + 2 ^ 38 + 2 ^ 36))] }).admits (inbound 5) [36] = .admitted 8 ∧
    ({ linked 0 with
      remotes := [⟨4, 0, 0, 0x50000, .index 9 0, []⟩]
      oneSided := [{ (default : OneSided) with id := 9, idx := some 0x50000, n := 1 }] }).remote? 4 = some ⟨4, 0, 0, 0x50000, .index 9 0, []⟩ ∧
    (let fails := (2 * 999999 + 1) :: (List.replicate 15 1).filter fun f => decide (999999 < f / 2 + 1000000)
     (fails.filter fun f => f % 2 == 1).length = 16) := by decide +kernel

/-- A T-thread with a store, to its own row, to mapped memory, to a control register, to another module, or to a shadow. -/
def storing (dp : Nat) (mark : StoreMark := .plain) (remote : Option Nat := none) : State :=
  withSelf (mapped tile) fun t => { t with sb := [⟨dp, leBytes 8 7, .ofNat 64 dp, 0, mark, remote, none⟩] }
/-- A context with a command that has one access, untaken and taken. -/
def commanding (taken : List Nat) : State :=
  (mapped tile).setCtx 0 { (mapped tile).ctx 0 with cq := [{ bareCommand .fill 0x50000 0x50000 1 with num := 1, tenant := 0, taken := taken }] }
theorem witness_MovesTakeEffect : ((storing row).openAt? row).map (·.id) = some 0 ∧ (storing 0x400000020000).openAt? 0x400000020000 = none ∧
    (match (storing 0x400000020000).reach 1 0x400000020000 true with
      | .ok _ => true
      | _ => false) = true ∧
    (storing ctlPower).region ctlPower = .control ∧ ((storing 0 .plain (some 5)).thread? 0).any (fun t => (t.sb.head?).any (·.remote == some 5)) = true ∧
    (mapped tile).commitOf 0x400000020000 0 = 0 ∧ 0 ≤ (mapped tile).verOf 0x400000020000 ∧
    ((withSelf tile fun t => { t with oq := [.read ⟨1, 0⟩ row row 8], oqAt := [0] }).thread? 0).any (fun t => t.slot.isSome && State.takesOutside t && t.oq.length == 1) = true ∧
    pcWellFormed (self tile).ip = true ∧ (self tile).fbuf = [] ∧
    (match tile.fillLine (self tile) (lineOf (self tile).ip.toNat) true with
      | .line _ _ => true
      | _ => false) = true ∧
    (let s := withSelf tile fun t => { t with ip := .ofNat 64 (row + 0x440), fbuf := [⟨row + 0x440, 0, none, true⟩] }
     s.pastLoop (self s) = false ∧ (match s.fillLine (self s) (row + 0x480) true with
      | .line _ _ => true
      | _ => false) = true) ∧
    (∀ copied ∈ [true, false], (match ({ mapped bank with shadows := [{ (default : Shadow) with row := 0x2000000, copied := copied }] }).chargeCopy
        (self bank) 0x2000000 with
      | .ok _ => true
      | _ => false) = true) := by decide +kernel
/-- A part of the head of a hash table, its table as M's newest descriptor describes it. -/
def hashPending : State :=
  let h : HashCtx := { (default : HashCtx) with desc := 0x2000000, descVa := 0x70000, pages := [(7, 0x200)] }
  ({ hashed with parts := [⟨1, h, 0, 0, 3, false, none, 0, 0⟩] } : State).partsNow
/-- A stream slot on mapped memory; commands; a one-sided operation without elements; a part; and walks. -/
def streaming : State :=
  (mapped tile).poke (row + 0x380) (leBytes 8 0x50000 ++ leBytes 40 0 ++ leBytes 8 32)
theorem witness_MovesTakeEffect_units : 0 ≤ streaming.slotDepth row 0 ∧ streaming.slotDone row 0 = false ∧
    streaming.check (self streaming) (streaming.slotAhead row 0 0) .read = .ok 0x400000020000 ∧
    (((commanding [0]).ctx 0).cq.all fun c => (List.range c.accesses).all c.taken.contains) = true ∧ ((commanding []).ctx 0).halt = false ∧
    (commanding []).engineRuns 0 = true ∧
    (match ((commanding []).ctx 0).cq with
      | c :: _ => decide (0 < c.accesses) && (match (commanding []).transfer c.owner (c.xfer ((commanding []).ctx 0) 0) (.command 0 0) c.num [] none 4 with
        | .done _ _ _ => true
        | _ => false)
      | [] => false) = true ∧
    (match ((commanding []).ctx 0).cq with
      | c :: _ => (match (commanding []).flightOf c.owner (c.xfer ((commanding []).ctx 0) 0) (.command 0 0) c.num 4 with
        | .ok _ => true
        | _ => false)
      | [] => false) = true ∧
    (mapped tile).outsideHeld 0x400000020040 = false ∧ (match (mapped tile).reach (opParty 3) 0x400000020040 true with
      | .ok _ => true
      | _ => false) = true ∧
    (match hashPending.parts with
     | p :: _ => hashPending.partNext p && (match hashPending.partsReach (hashParty p.hash.desc) false (hashPending.partRows p).1 with
       | .ok t => (match t.partsReach (hashParty p.hash.desc) true (hashPending.partRows p).2 with
         | .ok _ => true
         | _ => false)
       | _ => false)
     | [] => false) = true ∧
    (let q : WalkReq := ⟨0, row, 0, 0, .e4m3, 0⟩
     let s := tile.setSkink { tile.skink 0 with queue := [q] }
     (s.skink 0).queue = [q] ∧ (s.skink 0).cur = none ∧ s.islandOn 1 = true ∧ ((s.threadAt? q.wrow).isSome = true) ∧
     s.tagOf row = .fixed ∧ (s.setWord0 row 1).code row = 1 ∧ s.thread? 9 = none ∧ s.clhalt.contains 0 = false) ∧
    (let s := walking.setSkink { walking.skink (self walking).place with cur := some { (default : WalkReq) with wrow := (self walking).row }, issues := 1536 }
     (s.threadAt? (self walking).row).any (·.closing.isNone) = true) := by decide +kernel
/-- A READY row of a tile, a bank and a walker, without and with a free slot. -/
def waitingRow (s : State) (code : Nat) : State := withSelf (s.setWord0 (self s).row code) fun t => { t with slot := none }
theorem witness_SchedulerEventsTakeEffect : (∀ s ∈ [tile, bank, walker],
      (waitingRow s 2).isReady (self (waitingRow s 2)) = true ∧ (waitingRow s 2).islandOn (self s).island = true ∧
      (waitingRow s 2).halted (self s) = false ∧ ((waitingRow s 2).freeSlot (self (waitingRow s 2))).isSome = true ∧
      (∀ k ∈ List.range 8, (waitingRow s 2).firstReady (self (waitingRow s 2)) k = true)) ∧
    (match (waitingRow bank 2).openBank (self (waitingRow bank 2)) with
      | .ok _ => true
      | _ => false) = true ∧
    tile.scheduled (self tile) = true ∧ tile.inExchange (self tile) = false ∧ tile.waitingRows (self tile) = [] ∧
    (∀ n ∈ [4095, 4096], (({ tile with islands := tile.islands.map fun (i : Island) => { i with ticks := 1000 * n } }).cyclesSince (self tile) 0) = n) ∧
    ((rivalled 0 2).waitingRows (self tile)).length = 1 := by decide +kernel
/-- A tile whose 8 slots are taken, with a READY row 16 priorities above its least open row. -/
def crowded : State :=
  let s := (List.range 9).foldl (fun s k => s.pokeWord (row + 0x10000 * k) (.ofNat 64 (
    if k = 0 then 3 + 0x80 * 2 ^ 8 else if k = 8 then 2 + 0x90 * 2 ^ 8 else 3 + 0x81 * 2 ^ 8))) tile
  { s with threads := (List.range 9).map fun k => { self tile with
      id := k, row := row + 0x10000 * k, slot := if k = 8 then none else some k } }
theorem witness_SchedulerEventsTakeEffect_priority : crowded.mayPreempt (self crowded) = true ∧
    (∀ u ∈ crowded.openRows (self crowded), u.id ≠ 0 → u.closing = none ∧ u.deferred = none ∧ crowded.prio row < crowded.prio u.row) ∧
    (crowded.firstClaimant (self crowded)).map (·.id) = some 8 := by decide +kernel
/-- A stalled instruction, a wait that has ended, and a watch with 0, 256 and 257 cycles left. -/
def stalled (c : WaitCond) (ticks prog : Nat) (s : State := tile) : State :=
  let s := withSelf s fun t => { t with stall := some ⟨1, 0, c⟩ }
  { s.setCtrl row 0 32 32 prog with islands := s.islands.map fun (i : Island) => { i with ticks := 1000 * ticks } }
theorem witness_SchedulerEventsTakeEffect_waits :
    (stalled .always 256 0 (tile.setWord0 row 3)).code row = 3 ∧ (stalled .always 256 0).cyclesSince (self tile) 0 = 256 ∧
    (stalled .always 0 0 (waitingRow tile 4)).code row = 4 ∧ (waitingRow tile 4).condHolds (self tile) .always = true ∧
    (∀ p ∈ [0, 256, 257], (stalled (.watch 3) 256 p (waitingRow tile 4)).prog row = p ∧
      (stalled (.watch 3) 256 p (waitingRow tile 4)).logical (self (waitingRow tile 4)) = 4) ∧
    ((waitingRow tile 0).setTag row .placed).tagOf row = .placed := by decide +kernel
/-- A state whose allocator has some rows. -/
def pooled (s : State) (rows : List Nat) : State := { s with freeRows := rows }
/-- The row of a reach that does not wait. -/
def reaches (s : State) (who a : Nat) (write : Bool) : Bool :=
  match s.reach who a write with
  | .ok _ => true
  | _ => false
/-- A row of another tile, one of the stacks, and none at all for a placement; victims, reloads and moves. -/
theorem witness_SchedulerEventsTakeEffect_rows :
    (let s := pooled tile [0x400000030000, 0x2000000]
     s.chosen (some row) 0 0x400000030000 = true ∧ s.chosen (some row) 1 0x2000000 = true ∧ s.chosen none 0 row = false ∧
     s.refuses (some row) 0 = false ∧ s.refuses (some row) 1 = false ∧ reaches s (hubParty 0x400000030000) 0x400000030000 true = true ∧
     reaches s (hubParty 0x2000000) 0x2000000 true = true ∧ tile.refuses (some row) 0 = true ∧ tile.refuses (some row) 1 = true) ∧
    tile.handleFree 1 = true ∧ tile.handleFree 0 = false ∧ tile.handleFree (2 ^ 24) = false ∧
    (∀ code ∈ [1, 4], let s := withSelf ((waitingRow tile code).setTag row .placed) fun t => { t with backing := some 0x2000000 }
     s.evictable (self s) = true ∧ (self s).backing = some 0x2000000 ∧ (∀ u ∈ s.threads, u.id = 0) ∧ s.candidates none 0 = [] ∧
     reaches s (hubParty 0x2000000) 0x2000000 true = true) ∧
    (let s := pooled (withSelf (stalled .always 0 0 (waitingRow tile 6)) fun t => { t with evicted := true }) [0x400000030000]
     s.reloadDue (self s) = true ∧ s.code row = 6 ∧ s.ctrlField row 0 4 4 = 0 ∧ (self s).evicted = true ∧
     s.chosen (some (tileRow (self s).place 0)) 0 0x400000030000 = true ∧ reaches s (hubParty row) row false = true) ∧
    (let s := pooled { (waitingRow tile 2).setTag row .placed with gates := [⟨0, []⟩] } [tileRow 5120 0]
     s.isReady (self s) = true ∧ s.gates.any (·.die == State.dieOfTile 0) = true ∧ s.chosen (some row) 0 (tileRow 5120 0) = true ∧
     State.dieOfTile 5120 ≠ State.dieOfTile 0 ∧ s.region (tileRow 5120 0) = .tile 5120) ∧
    ((waitingRow tile 0).setTag row .placed).tagOf row = .placed ∧ (self (waitingRow tile 0)).oq = [] ∧
    (self (waitingRow tile 0)).backing = none ∧
    (let s := { ringed false with tenants := (ringed false).tenants.map fun (t : Tenant) => { t with posts := [(5, 0)] } }
     s.slotFree 0x400000020000 = true ∧ (match s.tenants with
       | t :: _ => s.ringSlot t t.mbox t.mboxNext == some 0x400000020000 && (match s.reachPosting t (State.ringVa t.mbox t.mboxNext) with
         | .ok _ => true
         | _ => false)
       | [] => false) = true) := by decide +kernel
/-- A miss of each stage, with and without a walk of the same page, and an invalidation in flight at 8,000 nanoseconds. -/
def missing (stage : Nat) (va : Word) : State :=
  let m : Miss := ⟨3, some 0, .ofNat 64 row, 0, 0, 0, 0, 0, va, stage, [], false⟩
  { stalled (.translation 0 0 va) 0 0 (ringed true) with misses := [m, { m with id := 4, stage := 1, va := 0x10000 }] }
theorem witness_ServiceEventsTakeEffect : (∀ st ∈ [0, 1, 2], ((missing st 0x20000).miss? 3).map (·.stage) = some st) ∧
    (∃ n ∈ (missing 0 0x10008).misses, n.id ≠ 3 ∧ ((missing 0 0x10008).miss? 3).any (State.samePage n) = true ∧ n.stage = 1) ∧
    (∀ n ∈ (missing 0 0x20000).misses, n.id ≠ 3 → ((missing 0 0x20000).miss? 3).any (State.samePage n) = false) ∧
    ((missing 1 0x20000).walk 0 0 0x20000).isSome = true ∧ (missing 1 0x20000000000).walk 0 0 0x20000000000 = none ∧
    (self (missing 1 0x20000)).waitsFor = some (.translation 0 0 0x20000) ∧ (self (missing 1 0x20000)).split = none ∧
    (let v : Invalidation := ⟨2, 0, [0], 0, 0x1000, 0x400000020000, [0, 640], [], [], 0⟩
     let s := { mapped tile with invs := [v], now := 8000 }
     s.inFlight v 0 = false ∧ s.receiverGated 0 = false ∧ 0 ∈ v.waiting ∧ v.sent + 8000 ≤ s.now ∧ (match s.reach 0 v.counter true with
       | .ok _ => true
       | _ => false) = true) ∧
    (missing 1 0x20000).receiverGated 0 = false ∧ (missing 1 0x20000).misses.any (·.prefetch) = false ∧
    (match (missing 1 0x20000).reachWalk (serviceParty 0) 0 0 0x20000 with
      | .ok _ => true
      | _ => false) = true ∧
    (let v : Invalidation := ⟨2, 0, [0], 0, 0x60000, 0x400000020000, [0, 640], [], [], 0⟩
     let s := withSelf { mapped tile with invs := [v], now := 8000 } fun t => { t with sb := [⟨0x400000020000, [7], 0x50000, 0, .plain, none, none⟩] }
     s.inFlight v 0 = true ∧ s.receiverGated 0 = false ∧ s.outsideHeld v.counter = false) ∧
    ((ringed false).setCtx 0 { (ringed false).ctx 0 with rbase := 0x20000, rsz := 4 }).ctxTenant? 0 = (ringed false).tenant? 0 := by decide +kernel
/-- A launch packet in tile memory, page moves, and a scrub of a tenant without threads. -/
def launching (flags : Nat) : State :=
  let s := ringed true
  let s := { s with mem := s.mem.setBytes 0x400000020000 (leBytes 8 flags ++ leBytes 8 0x480 ++ leBytes 8 0 ++ leBytes 8 0x20000) }
  { s with tenants := s.tenants.map fun (t : Tenant) => { t with lqb := .ofNat 64 (0x20000 + 4) } }
theorem witness_ServiceEventsTakeEffect_others :
    (∀ w ∈ [2 ^ 63, 2 ^ 63 + 2 ^ 62], ((launching w).tenant? 0).any (fun t =>
        (launching w).hubTranslate t (ringBase t.lqb + t.lqSeq % 2 ^ ringLog t.lqb * 64) .rmw == some 0x400000020000 &&
        ((launching w).hubTranslate t ((launching w).word64 0x400000020018).toNat .read).isSome &&
        decide (field ((launching w).word64 0x400000020000) 63 1 = 1) && decide (t.lqSeq % 2 ^ 32 = 0)) = true) ∧
    (let s := pooled (launching (2 ^ 63)) [0x400000030000]
     s.chosen (some 0x400000000000) 0 0x400000030000 = true ∧ s.refuses none 1 = true ∧ s.handleFree 1 = true ∧
     (s.logStale 0).log.length = s.log.length ∧ (match s.tenants with
       | t :: _ => (match s.reachPosting t (State.ringVa t.lqb t.lqSeq) with
         | .ok _ => true
         | _ => false)
       | [] => false) = true) ∧ (launching 0).scrub = none ∧
    (∀ n ∈ [1000000, 1000001], State.reset.trackerAt + 1000000 ≤ n) ∧
    (∀ k < 24, (([.toFar 5 6] : List TrackerMove).filter fun m => State.reset.moveStack m == k).length ≤ 256) ∧
    (let s := State.reset.setDpit ⟨5, .moving, .frame 0 5, .frame 1 7, false, []⟩
     (s.dpitOf 5).st = .moving ∧ (s.dpitOf 5).loc1 = .frame 0 5 ∧ (s.dpitOf 5).loc2 = .frame 1 7) ∧
    ((State.reset.setDpit ⟨5, .moving, .frame 0 5, .far 7, false, []⟩).dpitOf 5).loc2 = .far 7 ∧
    ((State.reset.setDpit ⟨5, .revert, .frame 0 5, .frame 1 7, false, []⟩).dpitOf 5).st = .revert ∧
    ready6.scrubQuiet 5 = true ∧ (ready6.tenant? 5).isSome = true := by decide +kernel
/-- A B-thread with a deferred pre-emption, and subarrays in every state. -/
def deferring (ticks : Nat) : State :=
  let s := withSelf bank fun t => { t with deferred := some 0 }
  { s with islands := s.islands.map fun (i : Island) => { i with ticks := 1000 * ticks } }
theorem witness_WatchdogAndRefreshEventsTakeEffect :
    (∀ b ∈ [BufState.opened 5, .thread 5, .held 5 0], ((bank.setBuf 1 b).subarray 1).buf = b) ∧
    (bank.setSub { bank.subarray 1 with refreshing := true } |>.subarray 1).refreshing = true ∧ bank.regulatorFree 0 0 = true ∧
    ((bank.setBuf 1 (.held 5 0)).occupant? 1) = some 0 ∧ bank.mayPreempt (self bank) = true ∧ (deferring 2048).islandTicks 16 = 2048000 ∧
    (self (deferring 0)).deferred = some 0 ∧
    (∃ r, (deferring 2).stackRegs[0]? = some r ∧ ∃ n, (deferring n).cyclesSince (self (deferring n)) 0 = n ∧ r.lim1 + r.lim2 ≤ n) := by
  refine ⟨by decide +kernel, by decide +kernel, by decide +kernel, by decide +kernel, by decide +kernel, by decide +kernel, by decide +kernel, ?_⟩
  obtain ⟨r, hr⟩ := Option.isSome_iff_exists.1 (show ((deferring 2).stackRegs[0]?).isSome = true by decide +kernel)
  have hl : ((deferring 2).stackRegs[0]?).all (fun r => decide (r.lim1 + r.lim2 ≤ 2 ^ 26)) = true := by decide +kernel
  rw [hr] at hl
  exact ⟨r, hr, 2 ^ 26, by decide +kernel, of_decide_eq_true hl⟩
/-- A thread that has waited 1,024 cycles to push to a full queue that only it binds, with and without room in the pool. -/
def pushing (cap : Nat) : State :=
  let s := stalled (.queue 0 3 0 1) 1024 0 ((tile.pokeWord (row + 0x7D8) (.ofNat 64 (2 ^ 15 + 3))).setWord0 row 3)
  { s with queues := [⟨0, 3, 0, 16, List.replicate 16 1⟩, ⟨0, 9, 0, cap, []⟩] }
theorem witness_WatchdogAndRefreshEventsTakeEffect_guard : ∀ cap ∈ [8160, 8176],
    ((pushing cap).blockedPushers 0).length = 1 ∧
    ((pushing cap).blockedCycle 0 1 ((pushing cap).blockedPushers 0)).any (fun th => State.pushTarget th == some 3) = true ∧
    (cap = 8160 → (pushing cap).poolUsed 0 + 16 ≤ 8192) ∧ (cap = 8176 → 8192 < (pushing cap).poolUsed 0 + 16) := by decide +kernel

/-! One step on a placed instruction (R152, R175, R113, R139): expected values are from the rules. -/

/-- The state after a step that runs an instruction placed at the thread's address, with scalar registers set. -/
def ran (i : Instr) (l : List (Nat × Nat)) (g : Guard := ⟨false, 0⟩) : Option State :=
  match Machine.step (regs (State.reset.placeWord (encode g i).toNat) l) with
  | .next t => some t
  | _ => none
/-- A scalar register after it. -/
def left (n : Nat) (i : Instr) (l : List (Nat × Nat)) : Option Word := (ran i l).map fun t => t.getX row n
theorem test_add_wraps_and_extends : left 5 (.addFa ⟨.x 5, .x 6, .x 7, .x 0, .i32, 0⟩) [(6, 0x7FFFFFFF), (7, 1)] = some 0xFFFFFFFF80000000 := by
  decide +kernel
theorem test_sub_order : left 5 (.sub ⟨.x 5, .x 6, .x 7, .x 0, .i64, 0⟩) [(6, 3), (7, 5)] = some (-2) := by decide +kernel
theorem test_x0_discards : left 0 (.addFa ⟨.x 0, .x 6, .x 7, .x 0, .i64, 0⟩) [(6, 3), (7, 5)] = some 0 := by decide +kernel
theorem test_store_then_frame :
    (ran (.st ⟨.x 6, .x 7, .x 0, 0, 3, 0, 0, 8⟩) [(6, 0x1122334455667788), (7, row + 0x400)]).map (fun t => (t.word64 (row + 0x408), t.word64 (row + 0x410))) =
      some (0x1122334455667788, 0) := by decide +kernel
theorem test_lds_extends : left 5 (.lds ⟨.x 5, .x 7, .x 0, 0, 0, 0, 0, 0⟩) [(6, 0x80), (7, row + 0x80 + 8 * 6)] = some (-128) := by decide +kernel
theorem test_completion_advances : (ran (.sub ⟨.x 5, .x 6, .x 7, .x 0, .i64, 0⟩) []).bind (fun t => (t.thread? 0).map (·.ip)) =
    some (.ofNat 64 (row + 0x481)) := by decide +kernel
theorem test_guard_off : (ran (.sub ⟨.x 5, .x 6, .x 7, .x 0, .i64, 0⟩) [(5, 9), (6, 1)] ⟨false, 1⟩).map (fun t => t.getX row 5) = some 9 := by
  decide +kernel
theorem test_trap_faults : (ran (.sysTrap ⟨.x 0, .x 6, .x 0, 0, 0⟩) [(6, 77)]).map (fun t => (t.logical (self t), t.ctrlField row 3 0 8)) =
    some (5, Cause.systrap.code) := by decide +kernel
theorem test_swizzle_of_a_vector : (ran (.vbcast ⟨.v 1, .x 6, .x 0, .x 0, .i32, 0⟩) [(6, 7)]).map (fun t => lane (t.getV row 1) 32 15) = some 7 := by
  decide +kernel
/-- A store of STOP to the own row, and a VBCAST in the next slot of a line with template 1, issued as a pair or alone (R61): where the
thread stops, and whether the second has run. -/
def stopped (act : Action) : Option (Option Word × Nat) :=
  let w0 := (encode ⟨false, 0⟩ (.st ⟨.x 20, .x 21, .x 0, 0, 0, 0, 0, 0⟩)).toNat
  let w1 := (encode ⟨false, 0⟩ (.vbcast ⟨.v 1, .x 5, .x 0, .x 0, .i32, 0⟩)).toNat
  let s := regs (buffered (.ofNat 512 (w0 + w1 * 2 ^ 96 + 2 ^ 485)) none) [(5, 7), (20, 0x20), (21, row)]
  match Machine.step { s with agenda := [⟨0, act, []⟩] } with
  | .next t => some ((t.thread? 0).map (·.ip), lane (t.getV row 1) 32 15)
  | _ => none
theorem test_pair_has_no_boundary : stopped (.pair 0) = some (some (.ofNat 64 (row + 0x482)), 7) ∧
    stopped (.issue 0) = some (some (.ofNat 64 (row + 0x481)), 0) := by decide +kernel
/-- The check value of R375, over the bytes of "123456789". -/
theorem test_crc32 : crc32 [0x31, 0x32, 0x33, 0x34, 0x35, 0x36, 0x37, 0x38, 0x39] = 0xCBF43926 := by decide +kernel

/-! More premises of the statements on events. -/

/-- A counter's answer from an outside queue. -/
theorem witness_OneSidedAndCounterInstructionsComplete_answered :
    (let s := withSelf (mapped tile) fun t => { t with asked := [0x400000020040], replies := [.data 0x400000020040 [1]] }
     (match (do let p ← Exec.plainAddr 0x50040 .read 0; Exec.answered p.1 : Exec (Option Reply)).run s with
      | .ok (some (.data _ bs), _) => bs == [1]
      | _ => false) = true) := by decide +kernel
/-- Requests that read the slots of the tenant's launch queue too: a queue on the request's page. -/
theorem witness_FabricEventsTakeEffect_slots :
    (let s := launchInto (0x10000 + 4)
     s.slotReads 5 ≠ [] ∧ (match s.reachAll (State.inboundParty (inbound 5)) false (s.tableReads 5 8 0x10000 ++ s.slotReads 5) with
      | .ok w => (match w.inboundParts (inbound 5) 8 2 .write with
        | .ok ps => ps == [(0x3000000, 2)] && ! w.inboundWaits ps && (match w.partsReach (State.inboundParty (inbound 5)) true ps with
          | .ok _ => true
          | _ => false)
        | .error _ => false)
      | _ => false) = true) := by decide +kernel
/-- A matrix unit with a clock and one without, a context's unit, an FSHIP at the head of a queue, and one that drains as the row closes. -/
theorem witness_MovesTakeEffect_shipped : tile.clocked 1 = true ∧ (tile.updIsland 1 fun i => { i with st := 2 }).clocked 1 = false ∧
    (((commanding []).ctx 0).cq.all fun c => ! (commanding []).receiverGated c.unit) = true ∧
    (∀ closing ∈ [none, some 2],
      let s := withSelf tile fun t => { t with oq := [.fship ⟨0, 0⟩ row 0 0 1 []], oqAt := [0], closing := closing }
      State.shipFirst (self s) = true ∧ (self s).slot.isSome = true ∧ (State.takesOutside (self s) = true ∨ (self s).closing.isSome = true ∧
        (self s).matrix = [])) := by decide +kernel
/-- A part whose descriptor has no error, on rows that are closed. -/
theorem witness_MovesTakeEffect_part : (match hashPending.parts with
    | p :: _ => (hashPending.joins? (hashPending.partRows p).2 (hashPending.partRows p).1 none).isNone && p.split.isNone && (match hashPending.partsReach (hashParty p.hash.desc) false (hashPending.partRows p).1 with
      | .ok t => (match t.partsReach (hashParty p.hash.desc) true (hashPending.partRows p).2 with
        | .ok u =>
          let v := u.withdraw (.part p.hash.desc p.usn p.table)
          ! v.descMeets p ((v.applyUpdate p).finishPart p)
        | _ => false)
      | _ => false)
    | [] => false) = true := by decide +kernel
/-- A spawn whose hint is translated, placed and refused. -/
theorem witness_SchedulerEventsTakeEffect_spawn :
    (∃ h, (pooled (mapped tile) [0x400000030000]).reachHint (self (mapped tile)) 0x50000 = .ok h ∧
      reaches h (hubParty 0x400000030000) 0x400000030000 true = true) ∧
    (let s := pooled (mapped tile) [0x400000030000]
     s.chosen (s.hintRow (self s) 0x50000) 0 0x400000030000 = true ∧
     (match s.reach (hubParty 0x400000030000) 0x400000030000 true with
      | .ok r => ((r.placeRow 0x400000030000 1 0 0 0x480 false []).threadAt? 0x400000030000).isSome
      | _ => false) = true) ∧
    tile.refuses (tile.hintRow (self tile) 0x50000) 0 = true := by
  refine ⟨⟨_, if_neg ?_, by decide +kernel⟩, by decide +kernel⟩
  rw [show (pooled (mapped tile) [0x400000030000]).check (self (mapped tile)) 0x50000 .read = .ok 0x400000020000 from by decide +kernel]
  simp
/-- A miss whose walk has a mapping, made before and after an invalidation; one that has none, of a thread that waits, of a prefetch, and
cut short. -/
def walkedOnce (inv pf leaf : Bool) (va : Word) : Bool :=
  let m : Miss := ⟨3, some 0, .ofNat 64 row, 0, 0, 0, 0, 0, va, 1, if inv then [(va.toNat, 8)] else [], pf⟩
  let s := { missing 1 va with misses := [m] }
  match s.reachWalk (serviceParty m.unit) m.tenant m.asid m.va.toNat with
  | .ok r =>
    let t := (r.takeMessage m).dropClaims (serviceParty m.unit)
    (t.walk 0 0 va.toNat).isSome == leaf && t.misses.any (fun n => n.cutOn (pageOf n.va.toNat) pageBytes) == inv && t.misses.any (·.prefetch) == pf &&
      (m.thread.bind t.thread?).any fun th => th.closing.isNone && th.split.isNone && th.waitsFor == some (.translation 0 0 va)
  | _ => false
theorem witness_ServiceEventsTakeEffect_walks : walkedOnce false false true 0x20000 = true ∧ walkedOnce true false true 0x20000 = true ∧
    walkedOnce false false false 0x20000000000 = true ∧ walkedOnce false true false 0x20000000000 = true ∧
    walkedOnce true false false 0x20000000000 = true ∧ (missing 1 0x20000).receiverGated 0 = false := by decide +kernel
/-- A launch packet in its slot that is due, not due, of too high a privilege, and without a row for it. -/
def packetAt (flags desc : Nat) : State :=
  let s := pooled (launching flags) [0x400000030000]
  { s with mem := s.mem.setBytes 0x400000020010 (leBytes 8 desc) }
theorem witness_ServiceEventsTakeEffect_launch : (∀ c ∈ [(2 ^ 63, 0), (2 ^ 63 + 2 ^ 62, 0), (0, 0), (2 ^ 63 + 1, 0), (2 ^ 63, 3 * 512), (2 ^ 63, 256)],
      let s := packetAt c.1 c.2
      (match ((s.logStale 0).tenant? 0) with
       | some t => (match (s.logStale 0).reachPosting t (State.ringVa t.lqb t.lqSeq) with
         | .ok q => q.hubTranslate t (State.ringVa t.lqb t.lqSeq) .rmw == some 0x400000020000 &&
             (match q.reach (hubParty (rowOf 0x400000020000)) 0x400000020000 false with
             | .ok r =>
               let w := r.word64 0x400000020000
               let hintVa := (r.word64 0x400000020018).toNat
               let hint := r.hubTranslate t hintVa .read
               let desc := r.word64 0x400000020010
               (match r.reachPosting t hintVa with
                | .ok y => (match y.reach (hubParty 0x400000030000) 0x400000030000 true with
                  | .ok _ => true
                  | _ => false)
                | _ => false) &&
               decide (field w 63 1 = c.1 / 2 ^ 63) && decide (field w 0 32 = c.1 % 2 ^ 32) && decide (t.lqSeq % 2 ^ 32 = 0) &&
               decide (field desc 9 2 = c.2 / 512) && decide (field t.lqp 0 2 < 3) && r.scrub.isNone && r.handleFree 1 &&
               r.chosen hint 0 0x400000030000 && r.refuses hint 1
             | _ => false)
         | _ => false)
       | none => false) = true) ∧
    ((State.reset.setDpit ⟨5, .moving, .far 7, .frame 0 5, false, []⟩).dpitOf 5).loc1 = .far 7 := by decide +kernel
/-- Addresses of control registers and of handle slots, and a powered link. -/
theorem witness_PowerEventsTakeEffect_registers : inHandleSlots ctlPower = false ∧ LinkUp State.reset ∧
    (State.reset.controlBytes ctlPower 8).isSome = true := ⟨by decide, ⟨by decide +kernel, by decide +kernel⟩, by decide +kernel⟩
/-- A tile island that ends as CGATED with its matrix island as PGATED. -/
theorem witness_IslandEventsTakeEffect_matrix :
    (let s := { (islands6 0 3 1).updIsland 1 fun i => { i with st := 3, req := 2 } with threads := [] }
     ((s.islands[0]?).map (·.st)) = some 3 ∧ (s.gateTiles 0 1).2 = true ∧
     (((s.gateTiles 0 1).1.islands[1]?).map (·.req)) = some 2 ∧ ((s.gateTiles 0 1).1.gateMatrix 0 2).2 = true) := by decide +kernel

/-! Premises of the clauses on rings, held rows, links, boots, islands and power. -/

/-- The walk of a ring's address reaches the table rows, with a mapping and without. -/
theorem witness_ServiceInstructionsComplete_reach : (∀ s ∈ [ringed true, ringed false, mapped tile],
    (match s.tenant? 0 with
      | some t => leaves (reachRing t t.hring t.hringNext) s && leaves (reachRing t t.mbox t.mboxNext) s
      | none => false) = true) ∧
    (match (ringed false).tenant? 0 with
      | some t =>
        let u := after (reachRing t t.hring t.hringNext) (ringed false)
        u.ringSlot t t.hring t.hringNext == some 0x400000020000 && u.slotFree 0x400000020000
      | none => false) = true := by decide +kernel
/-- The page of a row to hold stays where it is, and the row is then activated. -/
theorem witness_RowInstructionsComplete_page : (match (mapped bank).locate 0x2000000 with
     | none => false
     | some l => leaves (holdPage 0x2000000 l) (rowBuffer (.opened 0)) &&
         leaves (do holdPage 0x2000000 l; activateRow 0x2000000 l (.held 0 0)) (rowBuffer (.opened 5))) = true := by decide +kernel
/-- An element that failed with a lost link, whose destination is in tile memory, before its counter moves. -/
theorem witness_MovesTakeEffect_counter :
    (let o : OneSided := { (default : OneSided) with id := 3, n := 1, taken := [0], failed := [(0, 0x40)], counter := 0x400000020040, dst := 0x50000 }
     let s := { mapped tile with oneSided := [o] }
     (match s.reachAll (opParty o.id) false ((o.failed.filter (·.2 == 0x40)).flatMap fun f => s.poisonReads o f.1) with
      | .ok w => (match w.reach (opParty o.id) o.counter true with
        | .ok _ => true
        | _ => false)
      | _ => false) = true) := by decide +kernel
/-- A link with no operation to ask of, and one whose operation has an index in a row of a subarray that an open row holds. -/
theorem witness_FabricEventsTakeEffect_lost : (match (linked 50000).linkRows with
      | .ok _ => true
      | _ => false) = true ∧
    (let o : OneSided := { (default : OneSided) with id := 9, idx := some 0x70000, n := 1, unit := 0 }
     let s := { (linked 50000).setBuf 1 (.thread 77) with oneSided := [o] }
     s.noProgress 127 50000 = true ∧ (match s.linkRows with
      | .wait _ _ => true
      | _ => false) = true) := by decide +kernel
/-- Requests of elements and commands, taken and not, and a halted context. -/
theorem witness_FabricEventsTakeEffect_errors :
    (let s := { commanding [] with
      remotes := [⟨4, 0, 0, 0x50000, .element 9 0, []⟩, ⟨5, 0, 0, 0x50000, .command 0 0, []⟩]
      oneSided := [{ (default : OneSided) with id := 9, n := 2, taken := [1] }] }
     (s.remote? 4).isSome = true ∧ (s.remote? 5).isSome = true ∧ ((s.dropRemote 4).oneSided.find? (·.id == 9)).any (fun o => ! o.taken.contains 0 &&
      o.taken.contains 1) = true ∧ (((s.dropRemote 5).ctx 0).cq.length = 1) ∧ ((s.dropRemote 5).ctx 0).halt = false ∧
      ((s.setCtx 0 { s.ctx 0 with halt := true }).ctx 0).halt = true) := by decide +kernel
/-- The receipt's area of a scrub is reached. -/
theorem witness_ServiceEventsTakeEffect_area : ready6.outsideHeld 0x4000000 = false ∧ reaches ready6 (hubParty 0x4000000) 0x4000000 true = true := by
  decide +kernel
/-- The misses that a walk answers: the one that it was made for, and one that has joined it. -/
theorem witness_ServiceEventsTakeEffect_joined :
    (let m : Miss := ⟨3, some 0, .ofNat 64 row, 0, 0, 0, 0, 0, 0x20000000000, 1, [], false⟩
     let s := { missing 1 0x20000000000 with misses := [m, { m with id := 4, stage := 2 }] }
     (match s.reachWalk (serviceParty 0) 0 0 0x20000000000 with
      | .ok r =>
        let t := (r.takeMessage m).dropClaims (serviceParty 0)
        (t.walk 0 0 0x20000000000).isNone && (t.misses.filter fun n => State.samePage n m && (n.stage == 1 || n.stage == 2)).length == 2 &&
          t.misses.all fun n => ! n.cutOn (pageOf n.va.toNat) pageBytes
      | _ => false) = true) := by decide +kernel
/-- A miss of no thread, of a unit of H.REHASH that reads its keys, and of a restore. -/
theorem witness_ServiceEventsTakeEffect_answers :
    (let m : Miss := ⟨3, some 0, .ofNat 64 row, 0, 0, 0, 0, 0, 0x20000, 1, [], false⟩
     let s := missing 1 0x20000
     ({ m with thread := none }).thread.bind s.thread? = none ∧ m.thread.bind s.thread? = some (self s) ∧ (self s).closing = none ∧
     ((self (withSelf s fun t => { t with split := some { (default : Split) with stage := 1 } })).split.map (·.stage)) = some 1 ∧
     (self (stalled (.restore 2 0x20000) 0 0)).waitsFor = some (.restore 2 0x20000)) := by decide +kernel
/-- A flash without images, an image older than the rollback counter, and an image that was not supplied. -/
theorem witness_BootEventsTakeEffect_failures :
    ({ (atStage 1) with boot := { (atStage 1).boot with flash := [] } }).boot.flash[0]? = none ∧
    (let s := { (atStage 2) with boot := { (atStage 2).boot with rollback := 7, flash := [default, default] } }
     ∃ img, s.boot.flash[1]? = some img ∧ s.verifyImage 1 img ≠ 0 ∧ s.boot.stage = 2) ∧ (atStage 5).boot.supplied = none ∧
    (∀ n ∈ [0, 2, 3, 4, 5], (atStage n).boot.stage ≠ 1 ∧ (atStage n).boot.stage < 6) := by
  refine ⟨by decide +kernel, ⟨default, rfl, ?_, by decide +kernel⟩, by decide +kernel, by decide +kernel⟩
  unfold State.verifyImage
  cases Config.signatureHolds (default : FwImage).digest (default : FwImage).signature <;> decide +kernel
/-- A tile island on its way to ON, one that has rows to close, and a matrix island gated alone or with its tile island. -/
theorem witness_IslandEventsTakeEffect_more : ((islands6 0 3 0).islands[0]?).map (fun i => (i.st, i.req)) = some (3, 0) ∧
    (let s := (islands6 1 3 2)
     ((s.islands[1]?).map (·.req)) = some 2 ∧ ((s.islands[0]?).map (·.st)) = some 0 ∧ (({ s with threads := [] }).gateMatrix 0 2).2 = true ∧
     ((withSelf s fun t => { t with matrix := [default] }).gateMatrix 0 2).2 = false) ∧
    (let s := (islands6 0 3 2).updIsland 1 fun i => { i with st := 3, req := 2 }
     ((s.islands[0]?).map (fun i => (i.st, i.req))) = some (3, 2) ∧ ((s.islands[1]?).map (fun i => (i.st, i.req))) = some (3, 2)) ∧
    (let s := { bank with islands := (bank.updIsland 16 fun i => { i with st := 3, req := 2 }).islands }
     (((withSelf s fun t => { t with sb := [⟨0x2000000, [7], 0x70000, 0, .plain, none, none⟩] }).drainIsland 16).islandRows 16).length = 1) := by
  decide +kernel
/-- Limits at their nominal values and at their floors, and steps of the stacks at 0 and 12: what a power interval lowers or raises. -/
def limited (matrix tile stack : Nat) : State :=
  { ready6 with islands := (List.range 32).map fun k => { Island.reset k with
      st := 0, limit := if k < 16 then (if k % 2 = 1 then matrix else tile) else stack } }
theorem witness_PowerEventsTakeEffect_steps : (limited 0 0 0).islands.length = 32 ∧
    (∃ k ∈ State.matrixIslands, (limited 9999 0 0).islandOn k = true ∧ islandFloor k < (limited 9999 0 0).limitOf k) ∧
    (∀ k ∈ State.matrixIslands, ¬ ((limited 0 9999 0).islandOn k = true ∧ islandFloor k < (limited 0 9999 0).limitOf k)) ∧
    (∃ k ∈ State.tileIslands, (limited 0 9999 0).islandOn k = true ∧ islandFloor k < (limited 0 9999 0).limitOf k) ∧
    (∀ k ∈ State.tileIslands, ¬ ((limited 0 0 0).islandOn k = true ∧ islandFloor k < (limited 0 0 0).limitOf k)) ∧
    (∃ g ∈ (limited 0 0 0).stackRegs, g.step < 12) ∧
    (∀ g ∈ ((limited 0 0 0).stackRegs.map fun g => { g with step := 12 }), ¬ g.step < 12) ∧
    (∃ k ∈ State.stackIslands, (limited 0 0 0).limitOf k < islandNominal k) ∧
    (∀ k ∈ State.stackIslands, ¬ (limited 0 0 9999).limitOf k < islandNominal k) ∧
    (∃ g ∈ ((limited 0 0 9999).stackRegs.map fun g => { g with step := 12 }), 0 < g.step) ∧
    (∀ g ∈ (limited 0 0 9999).stackRegs, ¬ 0 < g.step) ∧
    (∃ k ∈ State.tileIslands, (limited 0 0 9999).islandOn k = true ∧ (limited 0 0 9999).limitOf k < islandNominal k) ∧
    (∀ k ∈ State.tileIslands, ¬ ((limited 0 9999 9999).islandOn k = true ∧ (limited 0 9999 9999).limitOf k < islandNominal k)) ∧
    (4800 * 1000 < 4800001 ∧ ¬ 4800 * 1000 < 4800000 ∧ ¬ 4560000 * 100 < 4800 * 1000 * 95 ∧ 4559999 * 100 < 4800 * 1000 * 95) := by
  decide +kernel
/-- A window that grants read and not write admits the one and not the other (R169, R369). -/
theorem test_window_grants :
    let s := { State.reset with tenants := [{ Tenant.firmware with windows := [(1, 0x2000000, .ofNat 64 (1 + 2 ^ 33))] }] }
    s.checkLeaf 0 0 (leafOf 0x2000000) 0x2000000 .read = .ok 0x2000000 ∧
    s.checkLeaf 0 0 (leafOf 0x2000000) 0x2000000 .write = .violation 0x2000000 := by decide +kernel
/-- A member whose exchange is under way at the 4,096-cycle mark. -/
theorem witness_SchedulerEventsTakeEffect_exchange : (member 0).scheduled (self (member 0)) = true ∧ (member 0).inExchange (self (member 0)) = true ∧
    (stalled (.watch 3) 256 0 (waitingRow tile 4)).prog row = 0 := by decide +kernel
/-- A part on the lines of an open row, where it stands in the queue, and an APPLY that takes one. -/
def openHead : State :=
  { hashPending with threads := { self bank with id := 9, row := 0x2000000, slot := some 3 } :: hashPending.threads }
theorem witness_MovesTakeEffect_joins : (match openHead.parts with
    | p :: _ => openHead.partNext p &&
      (openHead.joins? (openHead.partRows p).2 (openHead.partRows p).1 none).any fun th => th.id == 9 && th.oq.isEmpty
    | [] => false) = true ∧
    (let th := { self bank with oq := [.part 0x2000000 0 0], oqAt := [0] }
     State.shipFirst th = true ∧ State.takesOutside th = true) := by decide +kernel
/-- A row that is given back to its tile: with no unit that failed, and with one. -/
theorem witness_SchedulerEventsTakeEffect_reload : (∀ p ∈ [none, some ⟨4, 0, 0, [], false, some (.pagefault, 0)⟩],
      let s := pooled (withSelf (stalled .always 0 0 (waitingRow tile 6)) fun t => { t with evicted := true, split := p }) [0x400000030000]
      ((self s).split.any fun q => q.stage == 4 && q.failed.isSome) = p.isSome ∧ s.reloadDue (self s) = true) := by decide +kernel
/-- A loop that ends at an issue which stays where it is, of a thread that asks for a row. -/
theorem witness_CompletionAdvances_stay :
    (let s := withSelf (tile.pokeWord (row + 0x20) (.ofNat 64 (2 + 2 ^ 32))) fun t =>
      { t with spawn := some ⟨3, 0, 0, 0, false, 0, false⟩ }
     field (s.ctrl row 4) 32 1 = 1 ∧ field (s.ctrl row 4) 48 16 = 0 ∧ 1 < field (s.ctrl row 4) 0 32 ∧ (self s).spawn.isSome = true) := by
  decide +kernel

end Sys2Proof.Tests
end

section
/-!
PROOFS. What the updates of the islands, the stacks' registers and the package power do to the fields that other statements read (R29, R36, R37,
R271).
-/
namespace Sys2Proof.Machine

/-- The model's list update is the library's. -/
theorem setAt_eq_set {α : Type} : ∀ (l : List α) (n : Nat) (y : α), setAt l n y = l.set n y
  | [], _, _ => rfl
  | _ :: _, 0, _ => rfl
  | x :: l, n + 1, y => congrArg (x :: ·) (setAt_eq_set l n y)

/-- Bits that a store covers are the store's own (R4). -/
theorem field_overlayBits (old v mask : Word) (lo k : Nat) (h : ∀ j < k, mask.toNat.testBit (lo + j) = true) :
    field (State.overlayBits old v mask) lo k = field v lo k := by
  refine Nat.eq_of_testBit_eq fun j => ?_
  by_cases hj : j < k
  · have hm : mask.getLsbD (lo + j) = true := h j hj
    have hw : lo + j < 64 := BitVec.lt_of_getLsbD hm
    have hbit : (State.overlayBits old v mask).getLsbD (lo + j) = v.getLsbD (lo + j) := by
      simp [State.overlayBits, hm]
    simpa [field, bitsAt, Nat.testBit_mod_two_pow, hj, Nat.testBit_div_two_pow, BitVec.testBit_toNat, Nat.add_comm j lo] using hbit
  · simp [field, bitsAt, Nat.testBit_mod_two_pow, hj]

namespace State

theorem limitOf_of_getElem? {s : State} {k : Nat} {i : Island} (h : s.islands[k]? = some i) : s.limitOf k = i.limit := by
  simp [limitOf, h]

/-- An island that is there is changed, and its frequency follows (R29, R30). -/
theorem updIsland_of_some {s : State} {n : Nat} {i : Island} (f : Island → Island) (h : s.islands[n]? = some i) :
    ∃ fnow, s.updIsland n f = { s with islands := setAt s.islands n { f i with fnow := fnow } } := by
  simp only [updIsland, h]
  exact ⟨_, rfl⟩

theorem updIsland_of_none {s : State} {n : Nat} (f : Island → Island) (h : s.islands[n]? = none) : s.updIsland n f = s := by
  simp only [updIsland, h]

@[simp] theorem updIsland_power (s : State) (n : Nat) (f : Island → Island) : (s.updIsland n f).power = s.power := by
  unfold updIsland; split <;> rfl

@[simp] theorem updIsland_stackRegs (s : State) (n : Nat) (f : Island → Island) : (s.updIsland n f).stackRegs = s.stackRegs := by
  unfold updIsland; split <;> rfl

@[simp] theorem updIsland_islands_length (s : State) (n : Nat) (f : Island → Island) :
    (s.updIsland n f).islands.length = s.islands.length := by
  unfold updIsland; split <;> simp [setAt_eq_set]

/-- One island's limit is set, and no other's. -/
theorem limitOf_updIsland (s : State) (n k : Nat) (g : Nat → Nat) :
    (s.updIsland n fun i => { i with limit := g i.limit }).limitOf k =
      if k = n ∧ k < s.islands.length then g (s.limitOf k) else s.limitOf k := by
  cases hn : s.islands[n]? with
  | none =>
    have hle := List.getElem?_eq_none_iff.1 hn
    rw [updIsland_of_none _ hn, if_neg (by omega)]
  | some i =>
    obtain ⟨hlt, -⟩ := List.getElem?_eq_some_iff.1 hn
    obtain ⟨fnow, hu⟩ := updIsland_of_some (fun i => { i with limit := g i.limit }) hn
    rw [hu]
    by_cases hk : k = n
    · subst hk
      rw [if_pos ⟨rfl, hlt⟩, limitOf_of_getElem? hn]
      simp [limitOf, setAt_eq_set, hlt]
    · rw [if_neg fun h => hk h.1]
      simp [limitOf, setAt_eq_set, List.getElem?_set_ne (Ne.symm hk)]

@[simp] theorem moveLimits_power (s : State) (ns : List Nat) (f : Nat → Island → Nat) : (s.moveLimits ns f).power = s.power := by
  induction ns generalizing s with
  | nil => rfl
  | cons n ns ih => exact (ih _).trans (updIsland_power ..)

@[simp] theorem moveLimits_stackRegs (s : State) (ns : List Nat) (f : Nat → Island → Nat) :
    (s.moveLimits ns f).stackRegs = s.stackRegs := by
  induction ns generalizing s with
  | nil => rfl
  | cons n ns ih => exact (ih _).trans (updIsland_stackRegs ..)

@[simp] theorem moveLimits_islands_length (s : State) (ns : List Nat) (f : Nat → Island → Nat) :
    (s.moveLimits ns f).islands.length = s.islands.length := by
  induction ns generalizing s with
  | nil => rfl
  | cons n ns ih => exact (ih _).trans (updIsland_islands_length ..)

/-- A move of limits takes every island of its list once, and leaves the limits of the others (R36, R37). -/
theorem limitOf_moveLimits (s : State) (ns : List Nat) (g : Nat → Nat → Nat) (hns : ns.Nodup) (k : Nat) :
    (s.moveLimits ns fun n i => g n i.limit).limitOf k =
      if k ∈ ns ∧ k < s.islands.length then g k (s.limitOf k) else s.limitOf k := by
  induction ns generalizing s with
  | nil => simp [moveLimits]
  | cons n ns ih =>
    obtain ⟨hn, hns⟩ := List.nodup_cons.1 hns
    have step : (s.moveLimits (n :: ns) fun n i => g n i.limit) =
        (s.updIsland n fun i => { i with limit := g n i.limit }).moveLimits ns fun n i => g n i.limit := rfl
    rw [step, ih _ hns, limitOf_updIsland, updIsland_islands_length]
    by_cases hk : k = n
    · subst hk; simp [hn]
    · simp [hk]

theorem updStack_of_some {s : State} {k : Nat} {r : StackRegs} (f : StackRegs → StackRegs) (h : s.stackRegs[k]? = some r) :
    s.updStack k f = { s with stackRegs := setAt s.stackRegs k (f r) } := by
  simp only [updStack, h]

end State
end Sys2Proof.Machine
end

section
/-!
PROOFS. The package power controller: one step down or up in the order of R36, the power interval, the fast guard and the thermal trip.
-/
namespace Sys2Proof
open Sys2Proof.Machine

namespace Machine.State

/-- An island of a list is ON with its limit above the floor: R36 can lower it. -/
def CanLower (s : State) (ns : List Nat) : Prop := ∃ k ∈ ns, s.islandOn k = true ∧ islandFloor k < s.limitOf k

/-- An island of a list is ON with its limit below nominal: R36 can raise it. -/
def CanRaise (s : State) (ns : List Nat) : Prop := ∃ k ∈ ns, s.islandOn k = true ∧ s.limitOf k < islandNominal k

/-- A stack-logic island has its limit below nominal. -/
def StacksSlow (s : State) : Prop := ∃ k ∈ stackIslands, s.limitOf k < islandNominal k

/-- A stack's registers at another STEP, FAST clear (R271). -/
def paced (f : Nat → Nat) (g : StackRegs) : StackRegs := { g with step := f g.step, lim := 0x1800 * (16 - f g.step) / 16 }

/-- The limits of some islands take one step and the registers of the stacks end as given: what one step of R36 comes to. -/
def Throttles (s t : State) (ns : List Nat) (step : Nat → Nat → Nat) (regs : List StackRegs) : Prop :=
  LimitsStep s t ns step ∧ t.stackRegs = regs

theorem any_onIslands_iff (s : State) (ns : List Nat) (p : Nat → Prop) [DecidablePred p] :
    ((s.onIslands ns).any fun n => decide (p n)) = true ↔ ∃ k ∈ ns, s.islandOn k = true ∧ p k := by
  simp [onIslands]

theorem matrixIslands_nodup : matrixIslands.Nodup := by decide
theorem tileIslands_nodup : tileIslands.Nodup := by decide
theorem stackIslands_nodup : stackIslands.Nodup := by decide

theorem moveLimits_throttles {s : State} (hlen : s.islands.length = 32) {ns : List Nat} (hns : ns.Nodup) (g : Nat → Nat → Nat) :
    Throttles s (s.moveLimits ns fun n i => g n i.limit) ns g s.stackRegs := by
  refine ⟨fun k hk => ?_, moveLimits_stackRegs ..⟩
  rw [limitOf_moveLimits s ns g hns, hlen]
  simp [hk]

/-- A change of the stacks' registers alone moves no limit. -/
theorem withStackRegs_throttles (s : State) (g : Nat → Nat → Nat) (regs : List StackRegs) :
    Throttles s { s with stackRegs := regs } [] g regs :=
  ⟨fun _ _ => rfl, rfl⟩

theorem throttles_self (s : State) (g : Nat → Nat → Nat) : Throttles s s [] g s.stackRegs := withStackRegs_throttles s g s.stackRegs

theorem stackLim_paced (f : Nat → Nat) {rs : List StackRegs} (h : ∀ r ∈ rs, r.fast = false) :
    (rs.map fun r => stackLim { r with step := f r.step }) = rs.map (paced f) := by
  refine List.map_congr_left fun r hr => ?_
  simp [stackLim, paced, h r hr]

section Down
variable {s : State} (hlen : s.islands.length = 32)
include hlen

theorem throttleDown_matrix (hm : s.CanLower matrixIslands) :
    Throttles s s.throttleDown (matrixIslands.filter s.islandOn) lowerLimit s.stackRegs := by
  rw [throttleDown, if_pos ((any_onIslands_iff ..).2 hm)]
  exact moveLimits_throttles hlen (matrixIslands_nodup.filter _) lowerLimit

theorem throttleDown_tiles (hm : ¬ s.CanLower matrixIslands) (ht : s.CanLower tileIslands) :
    Throttles s s.throttleDown (tileIslands.filter s.islandOn) lowerLimit s.stackRegs := by
  rw [throttleDown, if_neg (mt (any_onIslands_iff ..).1 hm), if_pos ((any_onIslands_iff ..).2 ht)]
  exact moveLimits_throttles hlen (tileIslands_nodup.filter _) lowerLimit

theorem throttleDown_stackLimits (hm : ¬ s.CanLower matrixIslands) (ht : ¬ s.CanLower tileIslands) (hs : ¬ ∃ g ∈ s.stackRegs, g.step < 12) :
    Throttles s s.throttleDown stackIslands lowerLimit s.stackRegs := by
  rw [throttleDown, if_neg (mt (any_onIslands_iff ..).1 hm), if_neg (mt (any_onIslands_iff ..).1 ht), if_neg (by simpa using hs)]
  exact moveLimits_throttles hlen stackIslands_nodup lowerLimit

theorem throttleUp_stackLimits (hs : s.StacksSlow) : Throttles s s.throttleUp stackIslands raiseLimit s.stackRegs := by
  rw [throttleUp, if_pos (by simpa [StacksSlow] using hs)]
  exact moveLimits_throttles hlen stackIslands_nodup raiseLimit

theorem throttleUp_tiles (hs : ¬ s.StacksSlow) (hr : ¬ ∃ g ∈ s.stackRegs, 0 < g.step) (ht : s.CanRaise tileIslands) :
    Throttles s s.throttleUp (tileIslands.filter s.islandOn) raiseLimit s.stackRegs := by
  rw [throttleUp, if_neg (by simpa [StacksSlow] using hs), if_neg (by simpa using hr), if_pos ((any_onIslands_iff ..).2 ht)]
  exact moveLimits_throttles hlen (tileIslands_nodup.filter _) raiseLimit

theorem throttleUp_matrix (hs : ¬ s.StacksSlow) (hr : ¬ ∃ g ∈ s.stackRegs, 0 < g.step) (ht : ¬ s.CanRaise tileIslands) :
    Throttles s s.throttleUp (matrixIslands.filter s.islandOn) raiseLimit s.stackRegs := by
  rw [throttleUp, if_neg (by simpa [StacksSlow] using hs), if_neg (by simpa using hr), if_neg (mt (any_onIslands_iff ..).1 ht)]
  exact moveLimits_throttles hlen (matrixIslands_nodup.filter _) raiseLimit

end Down

section Rate
variable {s : State} (hfast : ∀ r ∈ s.stackRegs, r.fast = false)
include hfast

theorem throttleDown_rate (hm : ¬ s.CanLower matrixIslands) (ht : ¬ s.CanLower tileIslands) (hs : ∃ g ∈ s.stackRegs, g.step < 12) :
    Throttles s s.throttleDown [] lowerLimit (s.stackRegs.map (paced fun k => min 12 (k + 1))) := by
  rw [throttleDown, if_neg (mt (any_onIslands_iff ..).1 hm), if_neg (mt (any_onIslands_iff ..).1 ht), if_pos (by simpa using hs),
    stackLim_paced (fun k => min 12 (k + 1)) hfast]
  exact withStackRegs_throttles ..

theorem throttleUp_rate (hs : ¬ s.StacksSlow) (hr : ∃ g ∈ s.stackRegs, 0 < g.step) :
    Throttles s s.throttleUp [] raiseLimit (s.stackRegs.map (paced (· - 1))) := by
  rw [throttleUp, if_neg (by simpa [StacksSlow] using hs), if_pos (by simpa using hr), stackLim_paced (· - 1) hfast]
  exact withStackRegs_throttles ..

end Rate

theorem throttleDown_power (s : State) : s.throttleDown.power = s.power := by
  dsimp only [throttleDown]
  split_ifs
  · exact moveLimits_power ..
  · exact moveLimits_power ..
  · rfl
  · exact moveLimits_power ..

theorem throttleUp_power (s : State) : s.throttleUp.power = s.power := by
  dsimp only [throttleUp]
  split_ifs
  · exact moveLimits_power ..
  · rfl
  · exact moveLimits_power ..
  · exact moveLimits_power ..

/-- The intervals in a row, this one with them, whose power lies below 95 percent of PLIM (R36). -/
def lowIntervalsAt (s : State) (r : PowerReading) : Nat :=
  if r.pnow.toNat * 100 < s.power.plim * 1000 * 95 then s.power.lowIntervals + 1 else 0

/-- A power interval before the controller's step: the readings are taken, and FAST ends (R271). -/
def intervalStart (s : State) (r : PowerReading) : State :=
  { s with power := { s.power with pnow := r.pnow.toNat, lowIntervals := s.lowIntervalsAt r }
           stackRegs := s.stackRegs.map settleFast }

/-- A power interval after the controller's step, its telemetry to come (R36). -/
def intervalStep (s : State) (r : PowerReading) : State :=
  if s.power.plim * 1000 < r.pnow.toNat then (s.intervalStart r).throttleDown
  else if 20 ≤ s.lowIntervalsAt r then (s.intervalStart r).throttleUp else s.intervalStart r

theorem intervalStep_power (s : State) (r : PowerReading) : (s.intervalStep r).power = (s.intervalStart r).power := by
  unfold intervalStep; split_ifs
  · exact throttleDown_power _
  · exact throttleUp_power _
  · rfl

theorem powerInterval_stackRegs (s : State) (r : PowerReading) : (s.powerInterval r).stackRegs = (s.intervalStep r).stackRegs := rfl

/-- The telemetry of an interval changes nothing of the package power but THR (R35, R39). -/
theorem powerInterval_power (s : State) (r : PowerReading) :
    (s.powerInterval r).power = { (s.intervalStart r).power with
      thr := (s.intervalStep r).throttled.toNat + (if (s.intervalStep r).throttled then s.power.thr / 2 % 2 * 2 else 0) +
        (! s.power.hotDies.isEmpty).toNat * 4 + s.power.thr / 8 % 2 * 8 } := by
  rw [← intervalStep_power s r]
  rfl

/-- An island with the telemetry of an interval (R39). -/
def telemetry (s : State) (r : PowerReading) (k : Nat) (i : Island) : Island :=
  { i with
    pavg := (r.islandPower.getD k 0).toNat
    temp := r.islandTemp.getD k 0
    thr := islandThr { s.intervalStep r with power := (s.powerInterval r).power } k i }

theorem powerInterval_islands (s : State) (r : PowerReading) (k : Nat) :
    (s.powerInterval r).islands[k]? = ((s.intervalStep r).islands[k]?).map (s.telemetry r k) := by
  have h : (s.powerInterval r).islands = (List.range (s.intervalStep r).islands.length).map fun k =>
      s.telemetry r k ((s.intervalStep r).islands.getD k (Island.reset k)) := rfl
  rw [h, List.getElem?_map]
  by_cases hk : k < (s.intervalStep r).islands.length
  · simp [List.getElem?_range hk, List.getElem?_eq_getElem hk]
  · simp [hk]

theorem powerInterval_limitOf (s : State) (r : PowerReading) (k : Nat) : (s.powerInterval r).limitOf k = (s.intervalStep r).limitOf k := by
  rw [limitOf, powerInterval_islands, Option.map_map]
  rfl

/-- What the controller's step comes to, the interval comes to. -/
theorem powerInterval_throttles {s : State} {r : PowerReading} {ns : List Nat} {g : Nat → Nat → Nat} {regs : List StackRegs}
    (h : Throttles (s.intervalStart r) (s.intervalStep r) ns g regs) : Throttles s (s.powerInterval r) ns g regs := by
  obtain ⟨hlimits, hregs⟩ := h
  exact ⟨fun k hk => (powerInterval_limitOf s r k).trans (hlimits k hk), hregs⟩

theorem intervalStep_hot {s : State} {r : PowerReading} (h : s.power.plim * 1000 < r.pnow.toNat) :
    s.intervalStep r = (s.intervalStart r).throttleDown := if_pos h

theorem intervalStep_rested {s : State} {r : PowerReading} (h : ¬ s.power.plim * 1000 < r.pnow.toNat) (hn : 20 ≤ s.lowIntervalsAt r) :
    s.intervalStep r = (s.intervalStart r).throttleUp := (if_neg h).trans (if_pos hn)

theorem intervalStep_steady {s : State} {r : PowerReading} (h : ¬ s.power.plim * 1000 < r.pnow.toNat) (hn : s.lowIntervalsAt r < 20) :
    s.intervalStep r = s.intervalStart r := (if_neg h).trans (if_neg (by omega))

/-- The stacks' registers once FAST has ended (R271). -/
def settledRegs (s : State) : List StackRegs :=
  s.stackRegs.map fun g => if g.fast then { g with fast := false, step := 12, lim := 0x600 } else g

theorem intervalStart_stackRegs (s : State) (r : PowerReading) : (s.intervalStart r).stackRegs = s.settledRegs := by
  refine List.map_congr_left fun g _ => ?_
  cases hg : g.fast <;> simp [settleFast, stackLim, hg]

theorem settledRegs_slow (s : State) : ∀ g ∈ s.settledRegs, g.fast = false := by
  intro g hg
  obtain ⟨g0, -, rfl⟩ := List.mem_map.1 hg
  cases h0 : g0.fast <;> simp [h0]

/-- THR bits 2 and 3 after an interval (R35): a die in its thermal limit, and a thermal trip. -/
theorem powerInterval_thr (s : State) (r : PowerReading) :
    (s.powerInterval r).power.thr / 4 = (if s.power.hotDies = [] then 0 else 1) + s.power.thr / 8 % 2 * 2 := by
  have hhot : (! s.power.hotDies.isEmpty).toNat = if s.power.hotDies = [] then 0 else 1 := by
    cases s.power.hotDies <;> rfl
  rw [powerInterval_power, hhot]
  generalize (if s.power.hotDies = [] then 0 else 1) = h
  cases (s.intervalStep r).throttled <;> simp <;> omega

theorem powerInterval_plim (s : State) (r : PowerReading) : (s.powerInterval r).power.plim = s.power.plim := by
  rw [powerInterval_power]; rfl

theorem powerInterval_pnow (s : State) (r : PowerReading) : (s.powerInterval r).power.pnow = r.pnow.toNat := by
  rw [powerInterval_power]; rfl

theorem powerInterval_lowIntervals (s : State) (r : PowerReading) : (s.powerInterval r).power.lowIntervals = s.lowIntervalsAt r := by
  rw [powerInterval_power]; rfl

theorem powerInterval_readings {s : State} {r : PowerReading} {k : Nat} {i : Island} (h : (s.powerInterval r).islands[k]? = some i) :
    i.pavg = (r.islandPower.getD k 0).toNat ∧ i.temp = r.islandTemp.getD k 0 := by
  rw [powerInterval_islands] at h
  obtain ⟨_, -, rfl⟩ := Option.map_eq_some_iff.1 h
  exact ⟨rfl, rfl⟩

/-- Above PLIM, an interval takes one step down (R36). -/
theorem powerInterval_down {s : State} {r : PowerReading} (hlen : s.islands.length = 32) (hot : s.power.plim * 1000 < r.pnow.toNat) :
    (s.CanLower matrixIslands → Throttles s (s.powerInterval r) (matrixIslands.filter s.islandOn) lowerLimit s.settledRegs) ∧
    (¬ s.CanLower matrixIslands → s.CanLower tileIslands →
      Throttles s (s.powerInterval r) (tileIslands.filter s.islandOn) lowerLimit s.settledRegs) ∧
    (¬ s.CanLower matrixIslands → ¬ s.CanLower tileIslands →
      ((∃ g ∈ s.settledRegs, g.step < 12) →
        Throttles s (s.powerInterval r) [] lowerLimit (s.settledRegs.map (paced fun k => min 12 (k + 1)))) ∧
      (¬ (∃ g ∈ s.settledRegs, g.step < 12) → Throttles s (s.powerInterval r) stackIslands lowerLimit s.settledRegs)) := by
  have hfast := s.settledRegs_slow
  rw [← intervalStart_stackRegs s r] at hfast ⊢
  refine ⟨fun hm => powerInterval_throttles ?_, fun hm ht => powerInterval_throttles ?_,
    fun hm ht => ⟨fun hs => powerInterval_throttles ?_, fun hs => powerInterval_throttles ?_⟩⟩ <;> rw [intervalStep_hot hot]
  · exact throttleDown_matrix (s := s.intervalStart r) hlen hm
  · exact throttleDown_tiles (s := s.intervalStart r) hlen hm ht
  · exact throttleDown_rate (s := s.intervalStart r) hfast hm ht hs
  · exact throttleDown_stackLimits (s := s.intervalStart r) hlen hm ht hs

/-- At PLIM or below, an interval takes no step before 20 intervals in a row below 95 percent of it (R36). -/
theorem powerInterval_steady {s : State} {r : PowerReading} (hot : ¬ s.power.plim * 1000 < r.pnow.toNat) (hn : s.lowIntervalsAt r < 20) :
    Throttles s (s.powerInterval r) [] raiseLimit s.settledRegs := by
  refine powerInterval_throttles ?_
  rw [intervalStep_steady hot hn, ← intervalStart_stackRegs s r]
  exact throttles_self _ _

/-- After 20 intervals in a row below 95 percent of PLIM, an interval takes one step up (R36). -/
theorem powerInterval_up {s : State} {r : PowerReading} (hlen : s.islands.length = 32) (hot : ¬ s.power.plim * 1000 < r.pnow.toNat)
    (hn : 20 ≤ s.lowIntervalsAt r) :
    (s.StacksSlow → Throttles s (s.powerInterval r) stackIslands raiseLimit s.settledRegs) ∧
    (¬ s.StacksSlow → (∃ g ∈ s.settledRegs, 0 < g.step) →
      Throttles s (s.powerInterval r) [] raiseLimit (s.settledRegs.map (paced (· - 1)))) ∧
    (¬ s.StacksSlow → ¬ (∃ g ∈ s.settledRegs, 0 < g.step) →
      (s.CanRaise tileIslands → Throttles s (s.powerInterval r) (tileIslands.filter s.islandOn) raiseLimit s.settledRegs) ∧
      (¬ s.CanRaise tileIslands → Throttles s (s.powerInterval r) (matrixIslands.filter s.islandOn) raiseLimit s.settledRegs)) := by
  have hfast := s.settledRegs_slow
  rw [← intervalStart_stackRegs s r] at hfast ⊢
  refine ⟨fun hs => powerInterval_throttles ?_, fun hs hr => powerInterval_throttles ?_,
    fun hs hr => ⟨fun ht => powerInterval_throttles ?_, fun ht => powerInterval_throttles ?_⟩⟩ <;> rw [intervalStep_rested hot hn]
  · exact throttleUp_stackLimits (s := s.intervalStart r) hlen hs
  · exact throttleUp_rate (s := s.intervalStart r) hfast hs hr
  · exact throttleUp_tiles (s := s.intervalStart r) hlen hs hr ht
  · exact throttleUp_matrix (s := s.intervalStart r) hlen hs hr ht

theorem fastGuard_islands (s : State) : s.fastGuard.islands = (s.moveLimits (List.range 16) fun n _ => islandFloor n).islands := by
  simp only [fastGuard]

theorem fastGuard_limitOf (s : State) (k : Nat) :
    s.fastGuard.limitOf k = if k < 16 ∧ k < s.islands.length then islandFloor k else s.limitOf k := by
  have h := limitOf_moveLimits s (List.range 16) (fun n _ => islandFloor n) List.nodup_range k
  rw [limitOf, fastGuard_islands, ← limitOf, h]
  exact if_congr (by rw [List.mem_range]) rfl rfl

/-- The fast guard puts every A-die island at its floor (R37). -/
theorem fastGuard_floor {s : State} {k : Nat} {i : Island} (hk : k < 16) (h : s.fastGuard.islands[k]? = some i) : i.limit = islandFloor k := by
  have hlt : k < s.fastGuard.islands.length := (List.getElem?_eq_some_iff.1 h).1
  rw [fastGuard_islands, moveLimits_islands_length] at hlt
  rw [← limitOf_of_getElem? h, fastGuard_limitOf, if_pos ⟨hk, hlt⟩]

/-- The fast guard holds every stack at its lowest rate (R37, R271). -/
theorem fastGuard_stackRegs {s : State} {g : StackRegs} (h : g ∈ s.fastGuard.stackRegs) : g.fast = true ∧ g.lim = 0x600 := by
  simp only [fastGuard, moveLimits_stackRegs] at h
  obtain ⟨g0, -, rfl⟩ := List.mem_map.1 h
  exact ⟨rfl, rfl⟩

theorem fastGuard_power (s : State) : s.fastGuard.power = { s.power with thr := s.power.thr % 2 + 2 + s.power.thr / 4 * 4 } := by
  simp only [fastGuard, moveLimits_power]

/-- What a thermal trip does once the links are lost (R38). -/
def tripped (u : State) : State :=
  { u with
    boot := { u.boot with thermTrip := true, memoryActive := false }
    power := { u.power with thr := u.power.thr % 8 + 8 }
    islands := (List.range u.islands.length).map fun k =>
      let i := u.islands.getD k (Island.reset k)
      if k = 28 then i else { i with st := 2, fnow := 0 }
    threads := u.threads.map fun t => if t.island = 28 then t else { t with slot := none, closing := none } }

/-- A thermal trip gates every island but 28 (R38). -/
theorem tripped_islands {u : State} {k : Nat} {i : Island} (hk : k ≠ 28) (h : u.tripped.islands[k]? = some i) :
    i.st = 2 ∧ i.fnow = 0 := by
  obtain ⟨hlt, rfl⟩ := List.getElem?_eq_some_iff.1 h
  simp [tripped, hk]

/-- A thermal trip leaves only the cores of the hub their slots (R38). -/
theorem tripped_slot {u : State} {th : Thread} (h : th ∈ u.tripped.threads) (hi : th.island ≠ 28) : th.slot = none := by
  obtain ⟨t, -, rfl⟩ := List.mem_map.1 h
  by_cases ht : t.island = 28
  · rw [if_pos ht] at hi
    exact absurd ht hi
  · rw [if_neg ht]

end Machine.State
end Sys2Proof
end

section
/-!
PROOFS. The events of the control registers, and that power events take effect (R4, R35 to R38, R271, R275, R363).
-/
namespace Sys2Proof
open Sys2Proof.Machine

namespace Machine.State

theorem hostLink_of_linkUp {s : State} (h : LinkUp s) : s.hostLink = true := by
  obtain ⟨hp, ht⟩ := h
  simp [hostLink, hp, ht]

theorem handleSlot?_outside (s : State) {a : Nat} (h : inHandleSlots a = false) : s.handleSlot? a = none := by
  simp [handleSlot?, h]

theorem noteReserved_of_uncovered (s : State) (v : Word) {mask reserved : Word} (h : mask &&& reserved = 0) :
    s.noteReserved v mask reserved = s := by
  have hz : v &&& mask &&& reserved = 0 := by rw [BitVec.and_assoc, h]; exact BitVec.and_zero
  rw [noteReserved, if_pos hz]

/-- A store to PKGPWR that covers PLIM alone writes it (R35). -/
theorem writeControl_plim (s : State) (v : Word) :
    s.writeControl ctlPower v 0x0000FFFF00000000 = some (s.writePlim (field v 32 16)) := by
  have hplim : field (overlayBits (.ofNat 64 (s.power.plim * 2 ^ 32)) v 0x0000FFFF00000000) 32 16 = field v 32 16 :=
    field_overlayBits _ _ _ _ _ (by decide)
  have hres : s.noteReserved v 0x0000FFFF00000000 (resv 56 8) = s := noteReserved_of_uncovered s v (by decide)
  have hboot : ctlPower ≠ ctlBoot := by decide
  have hcovers : (0x0000FFFF00000000 : Word).toNat.testBit 32 = true := by decide
  rw [writeControl, if_neg hboot, if_pos rfl, hres]
  exact congrArg some ((if_pos (Or.inl hcovers)).trans (congrArg s.writePlim hplim))

section Hash
variable {s : State} {k : Nat} {r : StackRegs} (hr : s.stackRegs[k]? = some r)
include hr

theorem hashApply_busy (hq : s.quiesced k = false) : s.hashApply k = s.updStack k fun r => { r with refuse := 1 } := by
  simp [hashApply, hr, hq]

theorem hashApply_badMasks (hq : s.quiesced k = true) (hm : inverseMasksGood r = false) :
    s.hashApply k = s.updStack k fun r => { r with refuse := 2 } := by
  have hm : inverseMasks r.staged = none := by simpa [inverseMasksGood] using hm
  simp [hashApply, hr, hq, hm]

theorem hashApply_taken (hq : s.quiesced k = true) (hm : inverseMasksGood r = true) : s.hashApply k =
    { s.updStack k fun r => { r with active := r.staged, applying := true, appliedAt := s.now } with
      bankWins := s.bankWins.filter fun b => b.bank / 16384 != k } := by
  have hm : (inverseMasks r.staged).isNone = false := by simpa [inverseMasksGood, Option.isSome_iff_ne_none] using hm
  simp [hashApply, hr, hq, hm, updStack_of_some _ hr]

end Hash

theorem writeFar_live {s : State} (h : s.tenants.any (·.num != 0) = true) (size : Bool) (v : Word) :
    s.writeFar size v = s.logRec .farTier [v] := if_pos h

theorem writeFar_fars {s : State} (h : s.tenants.any (·.num != 0) = false) (v : Word) : s.writeFar true v = { s with fars := v } := by
  simp only [writeFar, h, Bool.false_eq_true, if_false, if_true]

theorem writeFar_farb {s : State} (h : s.tenants.any (·.num != 0) = false) (v : Word) : s.writeFar false v = { s with farb := v } := by
  simp only [writeFar, h, Bool.false_eq_true, if_false]

end Machine.State

/-! What each event does with its input. -/
section Events
variable {s : State}

theorem does_plimWrite {w : BitVec 16} (h : s.inp = .watts w) (hp : s.boot.powered = true) (hs : s.boot.stage ≠ 0) :
    Does .plimWrite s (s.writePlim w.toNat) := by
  show execPlimWrite s = _
  simp [execPlimWrite, h, hp, hs]

theorem does_controlRegisterWrite {a : Nat} {v mask : Word} {t : State} (h : s.inp = .register a v mask) (hl : LinkUp s)
    (ha : inHandleSlots a = false) (ht : s.writeControl a v mask = some t) : Does .controlRegisterWrite s t := by
  show execControlRegisterWrite s = _
  simp [execControlRegisterWrite, h, hostStore, State.hostLink_of_linkUp hl, s.handleSlot?_outside ha, ht]

theorem does_farTierRegisterWrite {size : Bool} {v : Word} (h : s.inp = .farTier size v) (hl : LinkUp s) :
    Does .farTierRegisterWrite s (s.writeFar size v) := by
  show execFarTierRegisterWrite s = _
  simp [execFarTierRegisterWrite, h, State.hostLink_of_linkUp hl]

theorem does_rowhctlApply {k : Nat} (h : s.inp = .unit k) (hl : LinkUp s) : Does .rowhctlApply s (s.hashApply k) := by
  show execRowhctlApply s = _
  simp [execRowhctlApply, h, State.hostLink_of_linkUp hl]

theorem does_rowhashApplyDone {k : Nat} {r : StackRegs} (h : s.inp = .unit k) (hr : s.stackRegs[k]? = some r) (ha : r.applying = true)
    (ht : r.appliedAt + 40000000 ≤ s.now) :
    Does .rowhashApplyDone s { s with stackRegs := setAt s.stackRegs k { r with applying := false, done := true } } := by
  show execRowhashApplyDone s = _
  simp only [execRowhashApplyDone, h, State.updStack_of_some _ hr]
  rw [if_pos ⟨ha, ht⟩]

theorem does_powerInterval {r : PowerReading} (h : s.inp = .power r) : Does .powerInterval s (s.powerInterval r) := by
  show execPowerInterval s = _
  simp only [execPowerInterval, h]

theorem does_thermalLimit {d : Nat} (h : s.inp = .unit d) : Does .thermalLimit s (s.setHot d true) := by
  show execThermalLimit s = _
  simp only [execThermalLimit, h]

theorem does_thermalRelease {d : Nat} (h : s.inp = .unit d) : Does .thermalRelease s (s.setHot d false) := by
  show execThermalRelease s = _
  simp only [execThermalRelease, h]

theorem does_fastGuard (s : State) : Does .fastGuard s s.fastGuard := rfl

theorem does_thermalTrip (s : State) : Does .thermalTrip s ((List.range 128).foldl (fun s k => s.linkLost k) s).tripped := rfl

end Events

theorem setHot_release (s : State) (d : Nat) :
    let others := s.power.hotDies.filter (· != d)
    s.setHot d false = ({ s with power :=
      { s.power with
        hotDies := others
        thr := s.power.thr % 4 + (if others.isEmpty then 0 else 4) + s.power.thr / 8 * 8 } } : State).reclock := by
  intro others
  have hthr : (! others.isEmpty).toNat * 4 = if others.isEmpty then 0 else 4 := by cases others <;> rfl
  rw [← hthr]
  rfl

/-- Settles O55: each event comes to one update of the state, the power interval to one step of R36. -/
theorem powerEventsTakeEffect : Obligations.PowerEventsTakeEffect := by
  intro s
  refine ⟨fun w => does_plimWrite, fun a v mask t => does_controlRegisterWrite, fun v h hl => ?plim, fun v hl => ⟨fun hlive size h => ?live,
    fun hidle => ⟨fun h => ?size, fun h => ?base⟩⟩, fun k r h hr => ⟨fun hl hq => ?busy, fun hl hq hm => ?bad, fun hl hq hm => ?taken,
    does_rowhashApplyDone h hr⟩, fun r h hlen => ?interval, ?guard, fun d h => ⟨does_thermalLimit h, ?release⟩, ?trip⟩
  case plim => exact does_controlRegisterWrite h hl (by decide) (s.writeControl_plim v)
  case live => exact State.writeFar_live hlive size v ▸ does_farTierRegisterWrite h hl
  case size => exact State.writeFar_fars hidle v ▸ does_farTierRegisterWrite h hl
  case base => exact State.writeFar_farb hidle v ▸ does_farTierRegisterWrite h hl
  case busy => exact State.hashApply_busy hr hq ▸ does_rowhctlApply h hl
  case bad => exact State.hashApply_badMasks hr hq hm ▸ does_rowhctlApply h hl
  case taken => exact State.hashApply_taken hr hq hm ▸ does_rowhctlApply h hl
  case interval =>
    refine ⟨s.powerInterval r, does_powerInterval h, s.powerInterval_pnow r, s.powerInterval_lowIntervals r, s.powerInterval_plim r,
      s.powerInterval_thr r, fun k i hi => State.powerInterval_readings hi, State.powerInterval_down hlen, State.powerInterval_steady,
      fun hot hn => ?_⟩
    obtain ⟨hslow, hrate, hclocks⟩ := State.powerInterval_up hlen hot hn
    refine ⟨hslow, hrate, fun hs hr => ?_⟩
    obtain ⟨htiles, hmatrix⟩ := hclocks hs hr
    refine ⟨?_, fun ht => (htiles ht).1, fun ht => (hmatrix ht).1⟩
    by_cases ht : s.CanRaise State.tileIslands
    · exact (htiles ht).2
    · exact (hmatrix ht).2
  case guard =>
    refine ⟨s.fastGuard, does_fastGuard s, fun g => State.fastGuard_stackRegs, fun k i => State.fastGuard_floor, fun k hk => ?_,
      s.fastGuard_power⟩
    rw [State.fastGuard_limitOf, if_neg (by omega)]
  case release => exact setHot_release s d ▸ does_thermalRelease h
  case trip =>
    intro u
    exact ⟨u.tripped, does_thermalTrip s, rfl, rfl, fun k i => State.tripped_islands, fun th => State.tripped_slot⟩

end Sys2Proof
end

section
/-!
PROOFS. What reset leaves: the tables of the islands and of the stacks' registers, and the module as a whole (R22, R28, R29, R35, R269, R274, R283).
-/
namespace Sys2Proof
open Sys2Proof.Machine

namespace Machine

/-- An island at reset: no request, no code, no cap, and ON for island 28 alone, which alone has a frequency (R22, R29). -/
theorem Island.reset_fields (n : Nat) :
    (Island.reset n).req = 0 ∧ (Island.reset n).st = (if n = 28 then 0 else 2) ∧ (Island.reset n).done = false ∧
      (Island.reset n).refuse = 0 ∧ (Island.reset n).fcap = 0 ∧ (n ≠ 28 → (Island.reset n).fnow = 0) := by
  by_cases h : n = 28 <;> simp [Island.reset, h]

/-- The default masks by L bit (R274). -/
theorem StackRegs.reset_staged {j : Nat} (h : j < 25) : StackRegs.reset.staged[j]? = some (defaultMask j) := by
  simp [StackRegs.reset, h]

theorem State.reset_islands {n : Nat} (h : n < 32) : State.reset.islands[n]? = some (Island.reset n) := by
  simp [State.reset, h]

theorem State.eq_reset_of_mem_stackRegs {r : StackRegs} (h : r ∈ State.reset.stackRegs) : r = StackRegs.reset :=
  List.eq_of_mem_replicate h

/-- A memory that lists no cell reads zero everywhere (log entry 4). -/
theorem Memory.bytes_nil (a n : Nat) : Memory.bytes [] a n = List.replicate n Memory.unlisted := by
  induction n generalizing a with
  | zero => rfl
  | succ n ih => exact congrArg (Memory.unlisted :: ·) (ih (a + 1))

theorem State.reset_word64 (a : Nat) : State.reset.word64 a = 0 := by
  have hz : leWord (List.replicate 8 Memory.unlisted) = 0 := by decide
  exact (congrArg leWord (Memory.bytes_nil a 8)).trans hz

end Machine

/-- Settles O4: the islands and the stacks by their tables, and the rest as the state at reset lists it. -/
theorem resetLeavesTheSpecifiedState : Obligations.ResetLeavesTheSpecifiedState := by
  refine ⟨rfl, rfl, rfl, rfl, fun n hn => ⟨_, State.reset_islands hn, Island.reset_fields n⟩, rfl, rfl, rfl, rfl, fun r hr => ?_,
    fun row k => State.reset_word64 _, fun a => rfl, rfl, rfl, rfl, rfl, rfl⟩
  · obtain rfl := State.eq_reset_of_mem_stackRegs hr
    exact ⟨rfl, rfl, rfl, rfl, rfl, rfl, rfl, rfl, rfl, rfl, fun j hj => StackRegs.reset_staged hj⟩

/-- Settles O5: the memory at reset lists no cell. -/
theorem resetStateIsSafe : Obligations.ResetStateIsSafe := rfl

end Sys2Proof
end

section
/-!
PROOFS. What a store to an island's register and the end of a transition come to, and that island events take effect (R29 to R34).
-/
namespace Sys2Proof
open Sys2Proof.Machine

namespace Machine.State

@[simp] theorem updIsland_gates (s : State) (n : Nat) (f : Island → Island) : (s.updIsland n f).gates = s.gates := by
  unfold updIsland; split <;> rfl

theorem updIsland_islands_isSome {s : State} {k : Nat} {i : Island} (n : Nat) (f : Island → Island) (h : s.islands[k]? = some i) :
    ∃ j, (s.updIsland n f).islands[k]? = some j := by
  obtain ⟨hk, -⟩ := List.getElem?_eq_some_iff.1 h
  exact ⟨_, List.getElem?_eq_getElem ((updIsland_islands_length s n f).symm ▸ hk)⟩

/-- A request is taken: REQ holds it and the transition begins (R29). -/
def requested (req : Nat) (i : Island) : Island := { i with req := req, st := 3 }

/-- What a store writes of an island's register before its REQ field is looked at (R29). -/
def fieldsWritten (s : State) (w : IslWrite) : State :=
  s.updIsland w.island fun i => { i with done := i.done && ! w.clearDone, fcap := w.fcap.toNat }

/-- The ports of quadrant n - 24 lose their links (R32, R187). -/
def quadrantLost (s : State) (n : Nat) : State := (List.range 32).foldl (fun s k => s.linkLost (32 * (n - 24) + k)) s

/-- A request that gates an island is taken, for a tile island of its matrix island with it (R32). -/
def gatingBegun (s : State) (n req : Nat) : State :=
  if n < 16 ∧ n % 2 = 0 then (s.updIsland n (requested req)).updIsland (n + 1) (requested req) else s.updIsland n (requested req)

section Request
variable {s : State} {n req : Nat} {i : Island} (h : s.islands[n]? = some i)
include h

theorem islandRequest_reserved : s.islandRequest n 3 = s.updIsland n fun i => { i with refuse := 3 } := by
  simp [islandRequest, h]

/-- A matrix island does not come up before its tile island (R31). -/
theorem islandRequest_tileOff (hn : n < 16) (hodd : n % 2 = 1) (htile : s.islandOn (n - 1) = false) :
    s.islandRequest n 0 = s.updIsland n fun i => { i with refuse := 2 } := by
  simp [islandRequest, h, hn, hodd, htile]

/-- A request to come up is taken by an island that is gated and in no transition (R29). -/
theorem islandRequest_on (hoff : i.st ≠ 0) (hrest : i.st ≠ 3) (htile : n < 16 → n % 2 = 1 → s.islandOn (n - 1) = true) :
    s.islandRequest n 0 = s.updIsland n (requested 0) := by
  simp only [islandRequest, h]
  rw [if_neg (by decide), if_neg (by simp), if_neg (by simpa using htile), if_neg (by omega), if_pos trivial, if_neg (by simp)]
  rfl

variable (hr : req = 1 ∨ req = 2)
include hr

theorem islandRequest_ungateable (hn : 28 ≤ n) : s.islandRequest n req = s.updIsland n fun i => { i with refuse := 1 } := by
  have hg : req ≠ 0 ∧ ungateable n = true := ⟨by omega, by simpa [ungateable] using hn⟩
  simp only [islandRequest, h]
  rw [if_neg (by omega), if_pos hg]

variable (hon : i.st = 0)
include hon

/-- A request to be gated is taken by an island that is ON: a quadrant loses its links, and the rows of another island are closed (R32). -/
theorem islandRequest_gate (hn : n < 28) :
    s.islandRequest n req = if 24 ≤ n then (s.gatingBegun n req).quadrantLost n else (s.gatingBegun n req).drainIsland n := by
  have hg : ¬ (req ≠ 0 ∧ ungateable n = true) := fun hg => by simp [ungateable] at hg; omega
  have hkind : (req ≠ 0 ∧ n < 16 ∧ n % 2 = 0) = (n < 16 ∧ n % 2 = 0) := propext ⟨And.right, And.intro (by omega)⟩
  have hquad : (24 ≤ n ∧ n < 28) = (24 ≤ n) := propext ⟨And.left, fun h24 => ⟨h24, hn⟩⟩
  simp only [islandRequest, h, hkind, hquad]
  rw [if_neg (by omega), if_neg hg, if_neg (by omega), if_neg (by omega), if_neg (by omega)]
  rfl

theorem islandRequest_gateStack (h16 : 16 ≤ n) (h24 : n < 24) :
    s.islandRequest n req = (s.updIsland n (requested req)).drainIsland n := by
  rw [islandRequest_gate h hr hon (by omega), if_neg (by omega), gatingBegun, if_neg (by omega)]

theorem islandRequest_gateQuadrant (h24 : 24 ≤ n) (h28 : n < 28) :
    s.islandRequest n req = (s.updIsland n (requested req)).quadrantLost n := by
  rw [islandRequest_gate h hr hon h28, if_pos h24, gatingBegun, if_neg (by omega)]

theorem islandRequest_gateMatrix (hn : n < 16) (hodd : n % 2 = 1) : s.islandRequest n req = s.updIsland n (requested req) := by
  rw [islandRequest_gate h hr hon (by omega), if_neg (by omega), gatingBegun, if_neg (by omega), drainIsland, if_pos ⟨hn, hodd⟩]

theorem islandRequest_gateTile (hn : n < 16) (heven : n % 2 = 0) :
    s.islandRequest n req = ((s.updIsland n (requested req)).updIsland (n + 1) (requested req)).drainIsland n := by
  rw [islandRequest_gate h hr hon (by omega), if_neg (by omega), gatingBegun, if_pos ⟨hn, heven⟩]

end Request

section Transition
variable {s : State} {n : Nat} {i : Island} (h : s.islands[n]? = some i) (hst : i.st = 3)
include h hst

theorem transitionDone_on (hreq : i.req = 0) (hn : 16 ≤ n ∨ n % 2 = 1) : s.transitionDone n = s.endTransition n := by
  have htile : ¬ (n < 16 ∧ n % 2 = 0) := by omega
  simp only [transitionDone, h]
  rw [if_neg (not_not.2 hst), if_pos hreq, if_neg htile]

/-- A tile island that is ON again needs its gate image no more (log entry 92). -/
theorem transitionDone_tileOn (hreq : i.req = 0) (hn : n < 16) (heven : n % 2 = 0) :
    s.transitionDone n = { s.endTransition n with gates := s.gates.filter (·.die != n / 2) } := by
  have hg : (s.endTransition n).gates = s.gates := updIsland_gates ..
  simp only [transitionDone, h]
  rw [if_neg (not_not.2 hst), if_pos hreq, if_pos ⟨hn, heven⟩, hg]

variable (hreq : i.req ≠ 0)
include hreq

theorem transitionDone_free (hn : 24 ≤ n) : s.transitionDone n = s.endTransition n := by
  simp only [transitionDone, h]
  rw [if_neg (not_not.2 hst), if_neg hreq, if_neg (by omega), if_neg (by omega), if_neg (by omega)]

theorem transitionDone_stack (h16 : 16 ≤ n) (h24 : n < 24) :
    s.transitionDone n =
      if ((s.drainIsland n).islandRows n).isEmpty then (s.drainIsland n).endTransition n else s.drainIsland n := by
  simp only [transitionDone, h]
  rw [if_neg (not_not.2 hst), if_neg hreq, if_neg (by omega), if_neg (by omega), if_pos h24]

/-- A matrix island that is gated with its tile island ends with it, and alone otherwise (R32, R34). -/
theorem transitionDone_matrix (hn : n < 16) (hodd : n % 2 = 1) {tile : Island} (htile : s.islands[n - 1]? = some tile) :
    s.transitionDone n =
      if tile.st = 3 ∧ tile.req ≠ 0 then s
      else if (s.gateMatrix (n / 2) i.req).2 then (s.gateMatrix (n / 2) i.req).1.endTransition n
      else (s.gateMatrix (n / 2) i.req).1 := by
  simp only [transitionDone, h, htile]
  rw [if_neg (not_not.2 hst), if_neg hreq, if_neg (by omega), if_pos hn]

/-- A tile island ends together with its matrix island (R32, R34). -/
theorem transitionDone_tile (hn : n < 16) (heven : n % 2 = 0) (htiles : (s.gateTiles (n / 2) i.req).2 = true) :
    let u := (s.gateTiles (n / 2) i.req).1
    let v := u.gateMatrix (n / 2) (((u.islands[n + 1]?).map (·.req)).getD i.req)
    v.2 = true → s.transitionDone n = (v.1.endTransition n).endTransition (n + 1) := by
  intro u v hv
  simp only [transitionDone, h]
  rw [if_neg (not_not.2 hst), if_neg hreq, if_pos ⟨hn, heven⟩]
  exact if_pos (by rw [htiles]; exact hv)

end Transition

end Machine.State

section Events
variable {s t : State} {w : IslWrite}

theorem does_islctlReqOn (h : islandEvent s 0 = t) : Does .islctlReqOn s t := congrArg _ h
theorem does_islctlReqCgated (h : islandEvent s 1 = t) : Does .islctlReqCgated s t := congrArg _ h
theorem does_islctlReqPgated (h : islandEvent s 2 = t) : Does .islctlReqPgated s t := congrArg _ h
theorem does_islctlReqReserved (h : islandEvent s 3 = t) : Does .islctlReqReserved s t := congrArg _ h

/-- The two requests that gate an island do alike, each with its code. -/
theorem does_gatingRequests {t : Nat → State} (h : ∀ req, req = 1 ∨ req = 2 → islandEvent s req = t req) :
    Does .islctlReqCgated s (t 1) ∧ Does .islctlReqPgated s (t 2) :=
  ⟨does_islctlReqCgated (h 1 (.inl rfl)), does_islctlReqPgated (h 2 (.inr rfl))⟩

/-- Before READY a store to an island's register is refused with code 5 (R29). -/
theorem islandEvent_early (h : s.inp = .island w) (hcool : s.boot.thermTrip = false) (hs : s.boot.stage ≠ 6) (req : Nat) :
    islandEvent s req = s.updIsland w.island fun i => { i with refuse := 5 } := by
  simp [islandEvent, h, State.islandWrite, hcool, hs]

theorem islandEvent_ready (h : s.inp = .island w) (hcool : s.boot.thermTrip = false) (hs : s.boot.stage = 6) (req : Nat) :
    islandEvent s req = (s.fieldsWritten w).islandRequest w.island req := by
  simp [islandEvent, h, State.islandWrite, hcool, hs, State.fieldsWritten]

theorem does_islandTransitionDone {n : Nat} (h : s.inp = .unit n) (ht : s.transitionDone n = t) : Does .islandTransitionDone s t := by
  show execIslandTransitionDone s = _
  simp only [execIslandTransitionDone, h, ht]

end Events

/-- Settles O54: a store's REQ field by the kind of island, and the end of a transition by the kind of island. -/
theorem islandEventsTakeEffect : Obligations.IslandEventsTakeEffect := by
  intro s w i hi
  refine ⟨fun h hcool => ⟨fun hs => ?early, fun hs => ?ready⟩, fun h hst => ?done⟩
  case early =>
    have hw := islandEvent_early h hcool hs
    exact ⟨does_islctlReqOn (hw 0), does_islctlReqCgated (hw 1), does_islctlReqPgated (hw 2), does_islctlReqReserved (hw 3)⟩
  case ready =>
    have hw := islandEvent_ready h hcool hs
    obtain ⟨i1, h1⟩ : ∃ i1, (s.fieldsWritten w).islands[w.island]? = some i1 := State.updIsland_islands_isSome _ _ hi
    refine ⟨does_islctlReqReserved ((hw 3).trans (State.islandRequest_reserved h1)), fun hn => ?ungateable, fun hn hodd htile => ?tileOff,
      fun i2 h2 hrest => ?taken⟩
    case ungateable => exact (does_gatingRequests fun req hr => (hw req).trans (State.islandRequest_ungateable h1 hr hn) :)
    case tileOff => exact does_islctlReqOn ((hw 0).trans (State.islandRequest_tileOff h1 hn hodd htile))
    case taken =>
      refine ⟨fun hoff hn hodd htile => ?matrixOn, fun hoff hn => ?othersOn, fun h16 h24 hon => ?stack, fun h24 h28 hon => ?quadrant,
        fun hn hodd hon => ?matrix, fun hn heven hon => ?tile⟩
      case matrixOn => exact does_islctlReqOn ((hw 0).trans (State.islandRequest_on h2 hoff hrest fun _ _ => htile))
      case othersOn => exact does_islctlReqOn ((hw 0).trans (State.islandRequest_on h2 hoff hrest fun _ _ => by omega))
      case stack => exact (does_gatingRequests fun req hr => (hw req).trans (State.islandRequest_gateStack h2 hr hon h16 h24) :)
      case quadrant => exact (does_gatingRequests fun req hr => (hw req).trans (State.islandRequest_gateQuadrant h2 hr hon h24 h28) :)
      case matrix => exact (does_gatingRequests fun req hr => (hw req).trans (State.islandRequest_gateMatrix h2 hr hon hn hodd) :)
      case tile => exact (does_gatingRequests fun req hr => (hw req).trans (State.islandRequest_gateTile h2 hr hon hn heven) :)
  case done =>
    have hd {t : State} (ht : s.transitionDone w.island = t) : Does .islandTransitionDone s t := does_islandTransitionDone h ht
    refine ⟨fun hreq hn => hd (State.transitionDone_on hi hst hreq hn), fun hreq hn heven => hd (State.transitionDone_tileOn hi hst hreq hn heven),
      fun hreq hn => hd (State.transitionDone_free hi hst hreq hn), fun hreq h16 h24 hrows => ?emptied, fun hreq h16 h24 hrows => ?emptying,
      fun tile hreq hn hodd ht hrest => ?matrix, fun tile hreq hn hodd ht h3 h0 => ?withTile, fun hreq hn heven htiles => ?tile⟩
    case emptied => exact hd ((State.transitionDone_stack hi hst hreq h16 h24).trans (if_pos (List.isEmpty_iff.2 hrows)))
    case emptying => exact hd ((State.transitionDone_stack hi hst hreq h16 h24).trans (if_neg (mt List.isEmpty_iff.1 hrows)))
    case matrix =>
      have hm := (State.transitionDone_matrix hi hst hreq hn hodd ht).trans (if_neg (by tauto))
      exact ⟨fun hu => hd (hm.trans (if_pos hu)), fun hu => hd (hm.trans (if_neg (by simp [hu])))⟩
    case withTile => exact hd ((State.transitionDone_matrix hi hst hreq hn hodd ht).trans (if_pos ⟨h3, h0⟩))
    case tile => exact fun hu => hd (State.transitionDone_tile hi hst hreq hn heven htiles hu)

end Sys2Proof
end

section
/-!
PROOFS. The verification of images, recovery and the stages of the boot, and that boot events take effect (R22, R24 to R28, R38).
-/
namespace Sys2Proof
open Sys2Proof.Machine

namespace Machine.State

@[simp] theorem updIsland_boot (s : State) (n : Nat) (f : Island → Island) : (s.updIsland n f).boot = s.boot := by
  unfold updIsland; split <;> rfl

@[simp] theorem updIsland_ports (s : State) (n : Nat) (f : Island → Island) : (s.updIsland n f).ports = s.ports := by
  unfold updIsland; split <;> rfl

/-- An island after a change is what it was, changed, at some frequency (R29, R30). -/
theorem updIsland_islands_self {s : State} {n : Nat} {f : Island → Island} {j : Island} (h : (s.updIsland n f).islands[n]? = some j) :
    ∃ i fnow, j = { f i with fnow := fnow } := by
  cases hn : s.islands[n]? with
  | none =>
    rw [updIsland_of_none f hn, hn] at h
    cases h
  | some i =>
    obtain ⟨fnow, hu⟩ := updIsland_of_some f hn
    obtain ⟨hlt, -⟩ := List.getElem?_eq_some_iff.1 hn
    rw [hu, setAt_eq_set, List.getElem?_set_self hlt] at h
    exact ⟨i, fnow, (Option.some.inj h).symm⟩

@[simp] theorem raiseIslands_boot (s : State) (ns : List Nat) : (s.raiseIslands ns).boot = s.boot := by
  induction ns generalizing s with
  | nil => rfl
  | cons n ns ih => exact (ih _).trans (updIsland_boot ..)

@[simp] theorem raiseIslands_ports (s : State) (ns : List Nat) : (s.raiseIslands ns).ports = s.ports := by
  induction ns generalizing s with
  | nil => rfl
  | cons n ns ih => exact (ih _).trans (updIsland_ports ..)

theorem raiseIslands_on {s : State} {n : Nat} {i : Island} (h : (s.raiseIslands [n]).islands[n]? = some i) : i.st = 0 ∧ i.req = 0 := by
  obtain ⟨_, _, rfl⟩ := updIsland_islands_self h
  exact ⟨rfl, rfl⟩

/-- Recovery waits at its stage with the code of what failed (R25). -/
theorem enterRecovery_boot (s : State) (err : Nat) : (s.enterRecovery err).boot = { s.boot with recov := true, err := err } := by
  unfold enterRecovery
  split <;> simp

/-- In recovery the island of the host link is up (R22, R25). -/
theorem enterRecovery_link {s : State} (hs : s.boot.stage = 1 ∨ s.boot.stage = 2) (err : Nat) {i : Island}
    (h : (s.enterRecovery err).islands[29]? = some i) : i.st = 0 ∧ i.req = 0 := by
  rw [enterRecovery, if_pos hs] at h
  exact raiseIslands_on h

/-- What the check of an image looks at of the state is the rollback counter (R24, R28). -/
theorem verifyImage_congr {s t : State} (h : t.boot.rollback = s.boot.rollback) (k : Nat) (img : FwImage) :
    t.verifyImage k img = s.verifyImage k img := by
  simp only [verifyImage, h]

section Images
variable {s : State} {k : Nat}

/-- An image has been verified and its version is kept for the rollback counter (R24). -/
def withVerified (s : State) (img : FwImage) : State := { s with boot := { s.boot with verified := s.boot.verified ++ [img.version] } }

theorem verifyImages_missing (h : s.boot.flash[k]? = none) (ks : List Nat) : s.verifyImages (k :: ks) = (s.enterRecovery 3, false) := by
  simp only [verifyImages, h]

variable {img : FwImage} (h : s.boot.flash[k]? = some img)
include h

theorem verifyImages_bad (hv : s.verifyImage k img ≠ 0) (ks : List Nat) :
    s.verifyImages (k :: ks) = (s.enterRecovery (s.verifyImage k img), false) := by
  simp only [verifyImages, h]
  exact if_pos hv

theorem verifyImages_good (hv : s.verifyImage k img = 0) (ks : List Nat) :
    s.verifyImages (k :: ks) = (s.withVerified img).verifyImages ks := by
  simp only [verifyImages, h]
  exact if_neg (not_not.2 hv)

end Images

/-- The first image of a list that does not verify leads to recovery with its code (R24, R25). -/
theorem verifyImages_first_bad {s : State} {pre post : List Nat} {k : Nat} {img : FwImage} (h : s.boot.flash[k]? = some img)
    (hv : s.verifyImage k img ≠ 0) (hpre : ∀ j ∈ pre, ∃ m, s.boot.flash[j]? = some m ∧ s.verifyImage j m = 0) :
    ∃ u : State, u.boot.stage = s.boot.stage ∧ s.verifyImages (pre ++ k :: post) = (u.enterRecovery (s.verifyImage k img), false) := by
  induction pre generalizing s with
  | nil => exact ⟨s, rfl, verifyImages_bad h hv post⟩
  | cons j pre ih =>
    obtain ⟨m, hm, hj⟩ := hpre j List.mem_cons_self
    obtain ⟨u, hu, hrun⟩ := ih (s := s.withVerified m) h hv fun i hi => hpre i (List.mem_cons_of_mem _ hi)
    exact ⟨u, hu, (verifyImages_good hm hj (pre ++ k :: post)).trans hrun⟩

/-- The greatest version that has run to READY (R28). -/
theorem foldl_version_max (vs : List (BitVec 16)) (r : BitVec 16) :
    let top := vs.foldl (fun m v => if m.toNat < v.toNat then v else m) r
    r.toNat ≤ top.toNat ∧ (∀ v ∈ vs, v.toNat ≤ top.toNat) ∧ (top = r ∨ top ∈ vs) := by
  induction vs generalizing r with
  | nil => exact ⟨le_rfl, fun v hv => absurd hv List.not_mem_nil, .inl rfl⟩
  | cons w vs ih =>
    obtain ⟨hr, hvs, htop⟩ := ih (if r.toNat < w.toNat then w else r)
    obtain ⟨hold, hnew⟩ : r.toNat ≤ (if r.toNat < w.toNat then w else r).toNat ∧ w.toNat ≤ (if r.toNat < w.toNat then w else r).toNat := by
      split <;> omega
    refine ⟨hold.trans hr, fun v hv => ?_, ?_⟩
    · obtain rfl | hv := List.mem_cons.1 hv
      · exact hnew.trans hr
      · exact hvs v hv
    · rcases htop with htop | htop
      · rw [List.foldl_cons, htop]
        split <;> simp
      · exact .inr (List.mem_cons_of_mem _ htop)

/-- The rollback counter at READY: the greatest version that has run to here (R22, R28). -/
def topVersion (s : State) : BitVec 16 := s.boot.verified.foldl (fun m v => if m.toNat < v.toNat then v else m) s.boot.rollback

theorem anyCommand_of_linkUp {s : State} (h : LinkUp s) (f : State → State) : s.anyCommand f = f s := if_pos (hostLink_of_linkUp h)

/-- The module boots: it is powered, and neither recovery, READY, a fatal stop nor a thermal trip holds the stages (R22, R25, R27, R38). -/
structure Booting (s : State) : Prop where
  powered : s.boot.powered = true
  recov : s.boot.recov = false
  cool : s.boot.thermTrip = false
  stage : s.boot.stage < 6

section Stages
variable {s : State}

theorem Booting.not_held (h : Booting s) :
    ¬ ((! s.boot.powered) = true ∨ s.boot.recov = true ∨ 6 ≤ s.boot.stage ∨ s.boot.thermTrip = true) := by
  obtain ⟨hp, hr, ht, hs⟩ := h
  simp [hp, hr, ht, hs]

theorem stageDone_done (h : Booting s) : s.stageDone .done = s.stageWorkDone := if_neg h.not_held

/-- An image that cannot be read leads to recovery (R25). -/
theorem stageDone_readError (h : Booting s) (hs : s.boot.stage = 1 ∨ s.boot.stage = 2) : s.stageDone .readError = s.enterRecovery 3 :=
  (if_neg h.not_held).trans (if_pos hs)

/-- A failure of the hardware stops the boot for good (R27). -/
theorem stageDone_fatal (h : Booting s) {err : Byte} (hs : s.boot.stage ≠ 1) (h4 : 4 ≤ err.toNat) (h6 : err.toNat ≤ 6) :
    s.stageDone (.fatal err) = s.fatalStop err.toNat :=
  (if_neg h.not_held).trans (if_pos ⟨hs, h4, h6⟩)

theorem stageWorkDone_rom (hs : s.boot.stage = 0) : s.stageWorkDone = { s with boot := { s.boot with stage := 1, verified := [] } } := by
  simp only [stageWorkDone, hs]
  rfl

/-- Mask ROM verifies the hub's image (R22, R24). -/
theorem stageWorkDone_hubImage (hs : s.boot.stage = 1) {img : FwImage} (h : s.boot.flash[0]? = some img) (hv : s.verifyImage 0 img = 0) :
    s.stageWorkDone = (s.withVerified img).toStage 2 := by
  simp only [stageWorkDone, hs, verifyImages_good h hv]
  rfl

theorem stageWorkDone_badHubImage (hs : s.boot.stage = 1) {img : FwImage} (h : s.boot.flash[0]? = some img) (hv : s.verifyImage 0 img ≠ 0) :
    s.stageWorkDone = s.enterRecovery (s.verifyImage 0 img) := by
  simp only [stageWorkDone, hs, verifyImages_bad h hv]
  rfl

theorem stageWorkDone_noHubImage (hs : s.boot.stage = 1) (h : s.boot.flash[0]? = none) : s.stageWorkDone = s.enterRecovery 3 := by
  simp only [stageWorkDone, hs, verifyImages_missing h]
  rfl

/-- The hub verifies the other images, with the host link up (R22, R24). -/
theorem stageWorkDone_images (hs : s.boot.stage = 2) :
    s.stageWorkDone =
      let v := (s.raiseIslands [29]).verifyImages [1, 2, 3, 4]
      if v.2 then v.1.toStage 3 else v.1 := by
  simp only [stageWorkDone, hs]

theorem stageWorkDone_stacks (hs : s.boot.stage = 3) :
    s.stageWorkDone = ((s.raiseIslands ([30, 31] ++ (List.range 8).map (16 + ·))).clearStackMemory).toStage 4 := by
  simp only [stageWorkDone, hs]

theorem stageWorkDone_tiles (hs : s.boot.stage = 4) :
    s.stageWorkDone = ((s.raiseIslands (List.range 16)).clearTileMemory).toStage 5 := by
  simp only [stageWorkDone, hs]

/-- The fabric comes up and the module is READY (R22). -/
theorem stageWorkDone_fabric (hs : s.boot.stage = 5) :
    s.stageWorkDone = { s.raiseIslands [24, 25, 26, 27] with
      acl := []
      ports := s.ports.map fun p => { Port.reset p.num with st := .normal }
      boot := { s.boot with stage := 6, err := 0, memoryActive := true, rollback := s.topVersion } } := by
  simp only [stageWorkDone, hs, toReady, raiseIslands_boot, raiseIslands_ports, topVersion]

end Stages

/-- An image in its place among the images that the hub verifies (R24). -/
theorem images_split {k : Nat} (h1 : 1 ≤ k) (h4 : k ≤ 4) : ∃ pre post, [1, 2, 3, 4] = pre ++ k :: post ∧ ∀ j ∈ pre, 1 ≤ j ∧ j < k := by
  have hk : k ∈ [1, 2, 3, 4] := by simp; omega
  obtain ⟨pre, post, hsplit⟩ := List.append_of_mem hk
  have hsorted : (pre ++ k :: post).Pairwise (· < ·) := hsplit ▸ by decide
  obtain ⟨-, -, hlt⟩ := List.pairwise_append.1 hsorted
  refine ⟨pre, post, hsplit, fun j hj => ⟨?_, hlt j hj k List.mem_cons_self⟩⟩
  have hmem : j ∈ [1, 2, 3, 4] := hsplit ▸ List.mem_append_left _ hj
  simp at hmem
  omega

/-- The first image that does not verify in stage 2 leaves the module in recovery there, with the host link up (R24, R25). -/
theorem stageWorkDone_badImage {s : State} (hs : s.boot.stage = 2) {k : Nat} {img : FwImage} (h1 : 1 ≤ k) (h4 : k ≤ 4)
    (h : s.boot.flash[k]? = some img) (hv : s.verifyImage k img ≠ 0)
    (hpre : ∀ j, 1 ≤ j → j < k → ∃ m, s.boot.flash[j]? = some m ∧ s.verifyImage j m = 0) :
    ∃ u : State, u.boot.stage = 2 ∧ s.stageWorkDone = u.enterRecovery (s.verifyImage k img) := by
  obtain ⟨pre, post, hsplit, hmem⟩ := images_split h1 h4
  have hboot : (s.raiseIslands [29]).boot = s.boot := raiseIslands_boot ..
  have hcheck (j : Nat) (m : FwImage) : (s.raiseIslands [29]).verifyImage j m = s.verifyImage j m :=
    verifyImage_congr (congrArg Boot.rollback hboot) j m
  obtain ⟨u, hu, hrun⟩ := verifyImages_first_bad (s := s.raiseIslands [29]) (pre := pre) (post := post) (k := k) (img := img)
    (by rw [hboot, h]) (by rwa [hcheck]) fun j hj => by
      obtain ⟨hj1, hjk⟩ := hmem j hj
      obtain ⟨m, hm, hj⟩ := hpre j hj1 hjk
      exact ⟨m, by rw [hboot, hm], by rw [hcheck, hj]⟩
  refine ⟨u, by rw [hu, hboot, hs], ?_⟩
  rw [stageWorkDone_images hs, hsplit, hrun, hcheck]
  rfl

section Firmware
variable {s : State} {slot : Nat}

theorem activateFw_refused (h : s.boot.supplied = none ∨ 5 ≤ slot) : s.activateFw slot = { s with mailbox := .refused } := by
  unfold activateFw
  cases hsup : s.boot.supplied with
  | none => rfl
  | some img => exact if_pos (by simpa [hsup] using h)

variable {img : FwImage} (hsup : s.boot.supplied = some img) (hslot : slot < 5)
include hsup hslot

theorem activateFw_bad (hv : s.verifyImage slot img ≠ 0) :
    s.activateFw slot = ({ s with mailbox := .refused, boot := { s.boot with
      err := if s.boot.recov then s.verifyImage slot img else s.boot.err } }.logRec .boot
        [.ofNat 64 (s.verifyImage slot img), .ofNat 64 slot]) := by
  simp only [activateFw, hsup]
  rw [if_neg (by omega), if_neg hv, ← hsup]
  by_cases hr : s.boot.recov = true
  · rw [if_pos hr, if_pos hr]
    rfl
  · rw [if_neg hr, if_neg hr]
    rfl

variable (hv : s.verifyImage slot img = 0)
include hv

/-- In recovery a good image restarts the boot at stage 1 (R25). -/
theorem activateFw_recovery (hr : s.boot.recov = true) :
    s.activateFw slot = { s with
      mailbox := .success
      boot := { s.boot with
        flash := setAt s.boot.flash slot img, supplied := none, recov := false, err := 0, stage := 1, verified := [] } } := by
  simp only [activateFw, hsup]
  rw [if_neg (by omega), if_pos hv, if_pos hr]
  rfl

/-- Outside recovery a good image is written to the flash and restarts nothing (log entry 61). -/
theorem activateFw_flash (hr : s.boot.recov = false) :
    s.activateFw slot = { s with
      mailbox := .success, boot := { s.boot with flash := setAt s.boot.flash slot img, supplied := none } } := by
  simp only [activateFw, hsup]
  rw [if_neg (by omega), if_pos hv, if_neg (by simp [hr])]
  rfl

end Firmware

end Machine.State

section Events
variable {s t : State}

theorem does_bootStageDone {r : StageResult} (h : s.inp = .stage r) (ht : s.stageDone r = t) : Does .bootStageDone s t := by
  show execBootStageDone s = _
  simp only [execBootStageDone, h, ht]

theorem does_getFwInfo (hl : LinkUp s) : Does .getFwInfo s { s with mailbox := .words (Config.mailboxAnswer 0) } :=
  congrArg _ (State.anyCommand_of_linkUp hl _)

theorem does_identify (hl : LinkUp s) : Does .identify s { s with mailbox := .words (Config.mailboxAnswer 1) } :=
  congrArg _ (State.anyCommand_of_linkUp hl _)

theorem does_transferFw (hl : LinkUp s) {img : FwImage} (h : s.inp = .image img) : Does .transferFw s (s.transferFw img) := by
  show execTransferFw s = _
  simp only [execTransferFw, h, State.anyCommand_of_linkUp hl]

theorem does_activateFw (hl : LinkUp s) {slot : Nat} (h : s.inp = .unit slot) (ht : s.activateFw slot = t) : Does .activateFw s t := by
  show execActivateFw s = _
  simp only [execActivateFw, h, State.anyCommand_of_linkUp hl, ht]

theorem does_powerGood (h : s.boot.powered = false) : Does .powerGood s (s.restart true) :=
  congrArg _ (if_neg (by simp [h]))

theorem does_perst (hl : LinkUp s) : Does .perst s (s.restart true) := congrArg _ (if_pos (State.hostLink_of_linkUp hl))

end Events

/-- Settles O52: resets, the stages of the boot one by one, failures, and the commands of firmware. -/
theorem bootEventsTakeEffect : Obligations.BootEventsTakeEffect := by
  intro s
  refine ⟨does_powerGood, rfl, does_perst, fun b => ⟨rfl, rfl, rfl, rfl, rfl, rfl⟩, fun h hp hr ht => ?stages,
    fun hp hr ht hs => ?failures, fun err => ⟨s.enterRecovery_boot err, fun hs i => State.enterRecovery_link hs err⟩, fun hl => ?firmware⟩
  case stages =>
    have hd {t : State} (hs : s.boot.stage < 6) (hw : s.stageWorkDone = t) : Does .bootStageDone s t :=
      does_bootStageDone h ((State.stageDone_done ⟨hp, hr, ht, hs⟩).trans hw)
    refine ⟨fun hs => hd (by omega) (State.stageWorkDone_rom hs), fun img hs himg => ⟨fun hv => ?hubImage, fun hv => ?badHubImage⟩,
      fun hs hall => ?images, fun hs => hd (by omega) (State.stageWorkDone_stacks hs), fun hs => hd (by omega) (State.stageWorkDone_tiles hs),
      fun hs => ?fabric, fun hs hnone => hd (by omega) (State.stageWorkDone_noHubImage hs hnone), fun k img hs h1 h4 himg hv hpre => ?badImage⟩
    case hubImage => exact hd (by omega) (State.stageWorkDone_hubImage hs himg hv)
    case badHubImage => exact hd (by omega) (State.stageWorkDone_badHubImage hs himg hv)
    case images => exact hd (by omega) ((State.stageWorkDone_images hs).trans (if_pos hall))
    case fabric =>
      obtain ⟨hroll, hver, htop⟩ := State.foldl_version_max s.boot.verified s.boot.rollback
      exact ⟨s.topVersion, hd (by omega) (State.stageWorkDone_fabric hs), hroll, hver, htop⟩
    case badImage =>
      obtain ⟨u, hu, hw⟩ := State.stageWorkDone_badImage hs h1 h4 himg hv hpre
      have hb := u.enterRecovery_boot (s.verifyImage k img)
      refine ⟨_, hd (by omega) hw, ?_, ?_, ?_, fun i => State.enterRecovery_link (.inr hu) _⟩ <;> rw [hb]
      exact hu
  case failures =>
    have hboot : State.Booting s := ⟨hp, hr, ht, hs⟩
    exact ⟨fun h hs => does_bootStageDone h (State.stageDone_readError hboot hs),
      fun err h h1 h4 h6 => does_bootStageDone h (State.stageDone_fatal hboot h1 h4 h6)⟩
  case firmware =>
    refine ⟨does_getFwInfo hl, does_identify hl, fun img => does_transferFw hl, fun slot img h hsup hslot hv => ⟨fun hr => ?_, fun hr => ?_⟩,
      fun slot h href => does_activateFw hl h (State.activateFw_refused href), fun slot img h hsup hslot hv => ?_⟩
    · exact does_activateFw hl h (State.activateFw_recovery hsup hslot hv hr)
    · exact does_activateFw hl h (State.activateFw_flash hsup hslot hv hr)
    · exact does_activateFw hl h (State.activateFw_bad hsup hslot hv)

end Sys2Proof
end

section
/-!
PROOFS. The mailbox's commands at READY, the host's accesses within a line, and that host events take effect (R25, R26, R88, R353, R367, R369, R371,
R373, R374).
-/
namespace Sys2Proof
open Sys2Proof.Machine

namespace Machine

/-- Bytes within one line are one part (R67). -/
theorem lineParts_within {a n : Nat} (hn : 1 ≤ n) (h : a % 64 + n ≤ 64) : lineParts a n = [(a, n)] := by
  have hlines : linesOf a n = [a / 64 * 64] := by
    have hone : (a + n - 1) / 64 - a / 64 + 1 = 1 := by omega
    rw [linesOf, if_neg (by omega)]
    show (List.range ((a + n - 1) / 64 - a / 64 + 1)).map (fun i => (a / 64 + i) * 64) = _
    rw [hone]
    rfl
  have hlow : max a (a / 64 * 64) = a := by omega
  have hhigh : min (a + n) (a / 64 * 64 + 64) - a = n := by omega
  rw [lineParts, hlines]
  show [(max a (a / 64 * 64), min (a + n) (a / 64 * 64 + 64) - max a (a / 64 * 64))] = _
  rw [hlow, hhigh]

namespace State

section Ready
variable {s : State}

theorem readyCommand_early (hl : LinkUp s) (hs : s.boot.stage ≠ 6) (f : State → State) : s.readyCommand f = s.mailBusy := by
  rw [readyCommand, if_neg (by simp [hostLink_of_linkUp hl]), if_pos hs]

theorem readyCommand_of_isReady (h : IsReady s) (f : State → State) : s.readyCommand f = f s := by
  obtain ⟨hl, hs⟩ := h
  rw [readyCommand, if_neg (by simp [hostLink_of_linkUp hl]), if_neg (not_not.2 hs)]

theorem createTenant_fits {r : TenantReq} (h : s.tenantFits r = true) :
    s.createTenant r =
      { { s with tenants := s.tenants ++ [newTenant r] }.allotFresh r.tenant 0 (tenantAllot r) with mailbox := .success } :=
  if_neg (by simp [h])

theorem createTenant_refused {r : TenantReq} (h : s.tenantFits r = false) : s.createTenant r = { s with mailbox := .refused } :=
  if_pos (by simp [h])

/-- No window of a tenant meets a span, the window of a number of one tenant apart (R369). -/
def MeetsNoOther (s : State) (n win : Nat) (span : Nat × Nat) : Prop :=
  ∀ u ∈ s.tenants, ∀ w ∈ u.windows, ¬ (u.num = n ∧ w.1 = win) →
    spansMeet span.1 span.2 (windowSpan w.2.1 w.2.2).1 (windowSpan w.2.1 w.2.2).2 = false

theorem any_clash_of_meetsNoOther {n win : Nat} {span : Nat × Nat} (h : s.MeetsNoOther n win span) :
    (s.tenants.any fun u => u.windows.any fun w => ! (u.num == n && w.1 == win) &&
      spansMeet span.1 span.2 (windowSpan w.2.1 w.2.2).1 (windowSpan w.2.1 w.2.2).2) = false := by
  refine List.any_eq_false.2 fun u hu => ?_
  rw [Bool.not_eq_true]
  refine List.any_eq_false.2 fun w hw => ?_
  by_cases hown : u.num = n ∧ w.1 = win
  · simp [hown]
  · simp [h u hu w hw hown]

section Tenants
variable {n : Nat} {t : Tenant} (ht : s.tenant? n = some t)
include ht

/-- A window that meets no other is written (R369, log entry 64). -/
theorem hostWindow_free {win : Nat} {winb wins : Word} (hw : win < 64)
    (hfree : s.MeetsNoOther n win (windowSpan (winb &&& maskAt 16 32) (wins &&& maskAt 0 46))) :
    s.hostWindow n win winb wins =
      { (s.setTenant (t.setWindow win (winb &&& maskAt 16 32) (wins &&& maskAt 0 46))).clearBankWindows n with mailbox := .success } := by
  simp only [hostWindow, ht]
  refine if_neg fun hc => ?_
  rcases (Bool.or_eq_true ..).mp hc with hbig | hclash
  · exact absurd (of_decide_eq_true hbig) (by omega)
  · exact Bool.false_ne_true ((any_clash_of_meetsNoOther hfree).symm.trans hclash)

theorem loadKey_own {slot : Nat} (k : BitVec 512) (hs : s.secured = true) (hlo : t.keyFirst ≤ slot) (hhi : slot < t.keyFirst + t.keyCount) :
    s.loadKey n slot k = { s with keys := assocSet s.keys slot k, mailbox := .success } := by
  simp only [loadKey, ht]
  exact if_pos (by simp [hs, hlo, hhi])

end Tenants

section Scrub
variable {area : Nat} (halign : area % 512 = 0) (hwin : s.anyWindow area = false) (hmem : s.region area = .dram ∨ s.inTile area = true)
include halign hwin hmem

/-- The area for a receipt is taken: what the command comes to is the scrub's own code (R371). -/
theorem hostScrub_area (n : Nat) (nonce : BitVec 256) :
    s.hostScrub n area nonce =
      if (s.startScrub n area).2 = 0 then ((s.startScrub n area).1.hubPoke (area + 0xC0) (leBytes 32 nonce.toNat)).mailReply (.words [0])
      else s.mailReply (.words [.ofNat 64 (s.startScrub n area).2]) :=
  if_neg (by rcases hmem with hmem | hmem <;> simp [halign, hwin, hmem])

end Scrub

theorem getReceipt_of_assoc {n : Nat} {b : List Byte} (h : assoc s.receipts n = some b) : s.getReceipt n = { s with mailbox := .bytes b } := by
  rw [getReceipt, h]
  rfl

theorem fabricEntry_route {i : Nat} (hi : i < 4096) (v : Word) :
    s.fabricEntry true i v =
      { s with route := assocSet s.route i (v &&& (maskAt 0 7 ||| maskAt 8 7 ||| maskAt 15 1)), mailbox := .success } :=
  if_pos (show decide (i < 4096) = true by simpa using hi)

theorem fabricEntry_acl {i : Nat} (hi : i < 256) (v : Word) :
    s.fabricEntry false i v = { s with acl := assocSet s.acl i (v &&& maskAt 0 39), mailbox := .success } :=
  if_pos (show decide (i < 256) = true by simpa using hi)

end Ready

section Lines
variable {s : State} {a n : Nat} {ide : Bool}

theorem memReadLine_blocked (hs : s.boot.stage = 6) {tn : Nat} (hb : s.hostBlocked a .read ide = some tn) :
    s.memReadLine a n ide = (s.hostCompletion [] true).hostViolation tn a := by
  rw [memReadLine, if_neg (not_not.2 hs), hb]

theorem memReadLine_admitted (hs : s.boot.stage = 6) (hb : s.hostBlocked a .read ide = none) :
    s.memReadLine a n ide = (s.countWindow (s.windowTenant a) a false).hostReadLine a n := by
  rw [memReadLine, if_neg (not_not.2 hs), hb]

theorem memWriteLine_admitted (hs : s.boot.stage = 6) {bs : List Byte} (hb : s.hostBlocked a .write ide = none) :
    s.memWriteLine a bs ide = (s.countWindow (s.windowTenant a) a true).outsideStore a bs := by
  rw [memWriteLine, if_neg (not_not.2 hs), hb]

theorem hostReadLine_open {u : Thread} (hu : s.openAt? a = some u) : s.hostReadLine a n = s.enqueue u.id (.hostRead a n) := by
  rw [hostReadLine, hu]

theorem hostReadLine_poisoned (hu : s.openAt? a = none) (hp : s.poisoned a n = true) :
    s.hostReadLine a n = { s with hostData := s.hostData ++ [([], true)] } := by
  rw [hostReadLine, hu]
  exact if_pos hp

theorem hostReadLine_newest (hu : s.openAt? a = none) (hp : s.poisoned a n = false) :
    s.hostReadLine a n = { s with hostData := s.hostData ++ [(s.newest a n, false)] } := by
  rw [hostReadLine, hu]
  exact if_neg (by simp [hp])

variable (h : IsReady s)
include h

/-- A host read within a line whose row is reached (R88). -/
theorem memRead_within (hn : 1 ≤ n) (hline : a % 64 + n ≤ 64) (hhdm : a + n ≤ 0x018000000000) {t : State} (hr : s.hostReach a n = .ok t) :
    s.memRead a n ide = t.memReadLine a n ide := by
  obtain ⟨hl, hs⟩ := h
  rw [memRead, if_neg (by simp [hostLink_of_linkUp hl, hdm, hhdm]), if_pos hs, hr]
  simp only [lineParts_within hn hline, List.foldl]

/-- A host write within a line (R88). -/
theorem memWrite_within {bs : List Byte} (hbs : bs ≠ []) (hline : a % 64 + bs.length ≤ 64) (hhdm : a + bs.length ≤ 0x018000000000) :
    s.memWrite a bs ide = s.memWriteLine a bs ide := by
  obtain ⟨hl, hs⟩ := h
  have hn : 1 ≤ bs.length := List.length_pos_iff.2 hbs
  rw [memWrite, if_neg (by simp [hostLink_of_linkUp hl, hdm, hhdm])]
  simp [lineParts_within hn hline]

/-- A host read of a register (R373). -/
theorem registerRead_register (ha : inHandleSlots a = false) {bs : List Byte} (hb : s.controlBytes a n = some bs) :
    s.registerRead a n = { s with hostData := s.hostData ++ [(bs, false)] } := by
  rw [registerRead, if_neg (by simp [hostLink_of_linkUp h.1]), handleSlot?_outside s ha, hb]
  rfl

end Lines

end State
end Machine

section Events
variable {s t : State}

theorem does_mailboxBusy (hl : LinkUp s) (hs : s.boot.stage ≠ 6) :
    Does .mailboxBusy s ({ s with mailbox := .busy }.logRec .host [.ofNat 64 s.boot.stage]) :=
  congrArg _ (State.readyCommand_early hl hs id)

theorem does_spdmRequest (hl : LinkUp s) {r : SpdmReq} (h : s.inp = .spdm r) : Does .spdmRequest s (s.spdm r) := by
  show execSpdmRequest s = _
  simp only [execSpdmRequest, h, State.anyCommand_of_linkUp hl]

theorem does_cxlMemRead {a n : Nat} {ide : Bool} (h : s.inp = .memRead a n ide) (ht : s.memRead a n ide = t) : Does .cxlMemRead s t := by
  show execCxlMemRead s = _
  simp only [execCxlMemRead, h, ht]

theorem does_registerRead {a n : Nat} (h : s.inp = .registerRead a n) (ht : s.registerRead a n = t) : Does .cxlMemRead s t := by
  show execCxlMemRead s = _
  simp only [execCxlMemRead, h, ht]

theorem does_cxlMemWrite {a : Nat} {bs : List Byte} {ide : Bool} (h : s.inp = .memWrite a bs ide) (ht : s.memWrite a bs ide = t) :
    Does .cxlMemWrite s t := by
  show execCxlMemWrite s = _
  simp only [execCxlMemWrite, h, ht]

section Mailbox
variable (hr : IsReady s)
include hr

theorem does_createTenant {r : TenantReq} (h : s.inp = .tenantReq r) (ht : s.createTenant r = t) : Does .createTenant s t := by
  show execCreateTenant s = _
  simp only [execCreateTenant, h, State.readyCommand_of_isReady hr, ht]

theorem does_setWindow {n win : Nat} {winb wins : Word} (h : s.inp = .window n win winb wins) (ht : s.hostWindow n win winb wins = t) :
    Does .setWindow s t := by
  show execSetWindow s = _
  simp only [execSetWindow, h, State.readyCommand_of_isReady hr, ht]

theorem does_loadKey {n slot : Nat} {k : BitVec 512} (h : s.inp = .key n slot k) (ht : s.loadKey n slot k = t) : Does .loadKey s t := by
  show execLoadKey s = _
  simp only [execLoadKey, h, State.readyCommand_of_isReady hr, ht]

theorem does_scrubTenant {n area : Nat} {nonce : BitVec 256} (h : s.inp = .scrub n area nonce) (ht : s.hostScrub n area nonce = t) :
    Does .scrubTenant s t := by
  show execScrubTenant s = _
  simp only [execScrubTenant, h, State.readyCommand_of_isReady hr, ht]

theorem does_getReceipt {n : Nat} (h : s.inp = .unit n) (ht : s.getReceipt n = t) : Does .getReceipt s t := by
  show execGetReceipt s = _
  simp only [execGetReceipt, h, State.readyCommand_of_isReady hr, ht]

theorem does_setAclSetRoute {route : Bool} {i : Nat} {v : Word} (h : s.inp = .fabricEntry route i v) (ht : s.fabricEntry route i v = t) :
    Does .setAclSetRoute s t := by
  show execSetAclSetRoute s = _
  simp only [execSetAclSetRoute, h, State.readyCommand_of_isReady hr, ht]

theorem does_getLog {n : Nat} (h : s.inp = .unit n) : Does .getLog s (s.mailReply (.records (s.log.drop n))) := by
  show execGetLog s = _
  simp only [execGetLog, h, State.readyCommand_of_isReady hr]

end Mailbox

end Events

/-- Settles O53: the mailbox before READY and at READY, the host's reads and writes, and SPDM. -/
theorem hostEventsTakeEffect : Obligations.HostEventsTakeEffect := by
  intro s
  refine ⟨does_mailboxBusy, fun hr => ⟨fun r h => ⟨fun hfit => ?fits, fun hfit => ?unfit⟩, fun n win winb wins t h ht hw => ?window,
    fun n slot k t h ht hsec hlo hhi => ?key, fun n area nonce h halign hwin hmem => ⟨fun hcode => ?scrub, fun hcode => ?noScrub⟩,
    fun n b h hb => ?receipt, fun i v => ⟨fun h hi => ?route, fun h hi => ?acl⟩, fun n h => does_getLog hr h,
    fun a n ide t h hn hline hhdm hreach hboot => ?read, fun a n bs h ha hb => ?register, fun a bs ide h hbs hline hhdm hb => ?write⟩,
    fun r h hl => ?spdm⟩
  case fits => exact does_createTenant hr h (State.createTenant_fits hfit)
  case unfit => exact does_createTenant hr h (State.createTenant_refused hfit)
  case window => exact fun hfree => does_setWindow hr h (State.hostWindow_free ht hw hfree)
  case key => exact does_loadKey hr h (State.loadKey_own ht k hsec hlo hhi)
  case scrub => exact does_scrubTenant hr h ((State.hostScrub_area halign hwin hmem n nonce).trans (if_pos hcode))
  case noScrub => exact does_scrubTenant hr h ((State.hostScrub_area halign hwin hmem n nonce).trans (if_neg hcode))
  case receipt => exact does_getReceipt hr h (State.getReceipt_of_assoc hb)
  case route => exact does_setAclSetRoute hr h (State.fabricEntry_route hi v)
  case acl => exact does_setAclSetRoute hr h (State.fabricEntry_acl hi v)
  case read =>
    have hs : t.boot.stage = 6 := hboot ▸ hr.2
    have hd {u : State} (hu : t.memReadLine a n ide = u) : Does .cxlMemRead s u :=
      does_cxlMemRead h ((State.memRead_within hr hn hline hhdm hreach).trans hu)
    refine ⟨fun tn hb => hd (State.memReadLine_blocked hs hb), fun hb => ?_⟩
    have hw {u : State} (hu : (t.countWindow (t.windowTenant a) a false).hostReadLine a n = u) : Does .cxlMemRead s u :=
      hd ((State.memReadLine_admitted hs hb).trans hu)
    exact ⟨fun u ho => hw (State.hostReadLine_open ho), fun ho hp => hw (State.hostReadLine_poisoned ho hp),
      fun ho hp => hw (State.hostReadLine_newest ho hp)⟩
  case register => exact does_registerRead h (State.registerRead_register hr ha hb)
  case write => exact does_cxlMemWrite h ((State.memWrite_within hr hbs hline hhdm).trans (State.memWriteLine_admitted hr.2 hb))
  case spdm =>
    have hd := does_spdmRequest hl h
    cases r <;> exact hd

end Sys2Proof
end

section
/-!
PROOFS. The decoder reads back what the encoder writes, over the whole instruction set, and with that the words of the spec's tables (R43 to R51).
-/
namespace Sys2Proof

namespace Laws.WordRoundTrip

/-- The round trip of every instruction: each one that has a word by its own lemma, and the events, which have none. -/
theorem decode_encode (i : Instr) : Statement i := by
  cases i with
  | thSpawn f => exact thSpawn f | thStart f => exact thStart f | thStop f => exact thStop f | thRedirect f => exact thRedirect f
  | thYield f => exact thYield f | thWait f => exact thWait f | thExit f => exact thExit f | thSelf f => exact thSelf f
  | thPeek f => exact thPeek f | nop f => exact nop f | br f => exact br f | bcmp f => exact bcmp f | bri f => exact bri f
  | jt f => exact jt f | lpad f => exact lpad f | call f => exact call f | calli f => exact calli f | ret f => exact ret f
  | loop f => exact loop f | fsync f => exact fsync f | pand f => exact pand f | por f => exact por f | pxor f => exact pxor f
  | pnot f => exact pnot f | addFa f => exact addFa f | addFi f => exact addFi f | sub f => exact sub f | andFa f => exact andFa f
  | andFi f => exact andFi f | orFa f => exact orFa f | orFi f => exact orFi f | xorFa f => exact xorFa f | xorFi f => exact xorFi f
  | andn f => exact andn f | minFa f => exact minFa f | minFi f => exact minFi f | maxFa f => exact maxFa f | maxFi f => exact maxFi f
  | minuFa f => exact minuFa f | minuFi f => exact minuFi f | maxuFa f => exact maxuFa f | maxuFi f => exact maxuFi f
  | adds f => exact adds f | subs f => exact subs f | cmpFa f => exact cmpFa f | cmpFi f => exact cmpFi f | sel f => exact sel f
  | movFa f => exact movFa f | movFi f => exact movFi f | movhi f => exact movhi f | lea f => exact lea f | rowa f => exact rowa f
  | mulFa f => exact mulFa f | mulFi f => exact mulFi f | mulh f => exact mulh f | mulhu f => exact mulhu f | div f => exact div f
  | divu f => exact divu f | rem f => exact rem f | remu f => exact remu f | muls f => exact muls f | shlFa f => exact shlFa f
  | shlFi f => exact shlFi f | shrFa f => exact shrFa f | shrFi f => exact shrFi f | sraFa f => exact sraFa f | sraFi f => exact sraFi f
  | rolFa f => exact rolFa f | rolFi f => exact rolFi f | rorFa f => exact rorFa f | rorFi f => exact rorFi f
  | bextFa f => exact bextFa f | bextFi f => exact bextFi f | binsFa f => exact binsFa f | binsFi f => exact binsFi f
  | popc f => exact popc f | clz f => exact clz f | ctz f => exact ctz f | ld f => exact ld f | lds f => exact lds f | st f => exact st f
  | ldv f => exact ldv f | stv f => exact stv f | ldfe f => exact ldfe f | stfe f => exact stfe f | sete f => exact sete f
  | sset f => exact sset f | srst f => exact srst f | spos f => exact spos f | pref f => exact pref f | get f => exact get f
  | put f => exact put f | ccrd f => exact ccrd f | aadd f => exact aadd f | aand f => exact aand f | aor f => exact aor f
  | axor f => exact axor f | amin f => exact amin f | amax f => exact amax f | aswp f => exact aswp f | acas f => exact acas f
  | afadd f => exact afadd f | fship f => exact fship f | vadd f => exact vadd f | vsub f => exact vsub f | vmul f => exact vmul f
  | vfma f => exact vfma f | vmin f => exact vmin f | vmax f => exact vmax f | vabs f => exact vabs f | vneg f => exact vneg f
  | vrcp f => exact vrcp f | vrsq f => exact vrsq f | vexp f => exact vexp f | vlog f => exact vlog f | vand f => exact vand f
  | vor f => exact vor f | vxor f => exact vxor f | vshl f => exact vshl f | vshr f => exact vshr f | vsra f => exact vsra f
  | vcmp f => exact vcmp f | vsel f => exact vsel f | vadds f => exact vadds f | vsubs f => exact vsubs f | vmulh f => exact vmulh f
  | vcvt f => exact vcvt f | vbcast f => exact vbcast f | vperm f => exact vperm f | vrot f => exact vrot f | vzip f => exact vzip f
  | vunzip f => exact vunzip f | vrsum f => exact vrsum f | vrmax f => exact vrmax f | vrmin f => exact vrmin f
  | vscan f => exact vscan f | vqnt f => exact vqnt f | vdqnt f => exact vdqnt f | vbscale f => exact vbscale f
  | vmovx f => exact vmovx f | vins f => exact vins f | vpack f => exact vpack f | mMma f => exact mMma f | mMmag f => exact mMmag f
  | mGath f => exact mGath f | mMvs f => exact mMvs f | mSacc f => exact mSacc f | mZero f => exact mZero f | mLdacc f => exact mLdacc f
  | mStacc f => exact mStacc f | mSpmm f => exact mSpmm f | mTdir f => exact mTdir f | mDrain f => exact mDrain f
  | wLdi f => exact wLdi f | wLdv f => exact wLdv f | wEmit f => exact wEmit f | wEmitz f => exact wEmitz f | wAdv f => exact wAdv f
  | wSel f => exact wSel f | wEnd f => exact wEnd f | rowOpen f => exact rowOpen f | rowHold f => exact rowHold f
  | rowRel f => exact rowRel f | txBegin f => exact txBegin f | txCommit f => exact txCommit f | txAbort f => exact txAbort f
  | attn f => exact attn f | safeptPoint f => exact safeptPoint f | safeptBegin f => exact safeptBegin f
  | safeptEnd f => exact safeptEnd f | hSig f => exact hSig f | hProbe f => exact hProbe f | hIns f => exact hIns f
  | hDel f => exact hDel f | hRehash f => exact hRehash f | hDedup f => exact hDedup f | hUsn f => exact hUsn f
  | hWusn f => exact hWusn f | synBind f => exact synBind f | synAcq f => exact synAcq f | synRel f => exact synRel f
  | synWtl f => exact synWtl f | synTlTl f => exact synTlTl f | synTlSub f => exact synTlSub f | synTlFl f => exact synTlFl f
  | synTlMark f => exact synTlMark f | synStep f => exact synStep f | synSend f => exact synSend f | synRecv f => exact synRecv f
  | synVote f => exact synVote f | synPollab f => exact synPollab f | synAbort f => exact synAbort f | synDomBind f => exact synDomBind f
  | synDomUnbind f => exact synDomUnbind f | synQcfgCreate f => exact synQcfgCreate f | synQcfgDel f => exact synQcfgDel f
  | ceCopy f => exact ceCopy f | ceFill f => exact ceFill f | ceGath f => exact ceGath f | ceScat f => exact ceScat f
  | ceCtxRead f => exact ceCtxRead f | ceCtxRing f => exact ceCtxRing f | ceCtxRetry f => exact ceCtxRetry f
  | ceCtxClr f => exact ceCtxClr f | ceCancel f => exact ceCancel f | decLoad f => exact decLoad f | decStrm f => exact decStrm f
  | sysRdcr f => exact sysRdcr f | sysWrcr f => exact sysWrcr f | rtabLoad f => exact rtabLoad f | rtabEmpty f => exact rtabEmpty f
  | clhaltWrite f => exact clhaltWrite f | wacntWrite f => exact wacntWrite f | sysTlbinv f => exact sysTlbinv f
  | sysTlbwr f => exact sysTlbwr f | sysTrap f => exact sysTrap f | sysScrub f => exact sysScrub f | sysLog f => exact sysLog f
  | sysMpostHost f => exact sysMpostHost f | sysMpostMbox f => exact sysMpostMbox f
  | _ => exact of_event _ rfl

/-- A word that is the encoding of a well-formed instruction under a legal guard decodes to the two. -/
theorem decode_of_encode {w : IWord} {g : Guard} {i : Instr} (h : encode g i = w)
    (hi : (g.legal && i.isWord && i.wellFormed && w != 0) = true) : decode w = .ok (g, i) := by
  subst h
  simp only [Bool.and_eq_true, bne_iff_ne] at hi
  obtain ⟨⟨⟨hg, hw⟩, hf⟩, hz⟩ := hi
  exact decode_encode i g hg hw hf hz

end Laws.WordRoundTrip

open Laws.WordRoundTrip

/-- Settles O2: every instruction word by the lemma of its instruction. -/
theorem instructionWordsRoundTrip : Obligations.InstructionWordsRoundTrip := decode_encode

/-- Settles O1: each word of the tables is the encoding of its instruction, and the second has a reserved bit set. -/
theorem specWordsDecode : Obligations.SpecWordsDecode :=
  ⟨decode_of_encode (by decide) (by decide), by decide, decode_of_encode (by decide) (by decide), decode_of_encode (by decide) (by decide),
    decode_of_encode (by decide) (by decide), decode_of_encode (by decide) (by decide), decode_of_encode (by decide) (by decide),
    decode_of_encode (by decide) (by decide), decode_of_encode (by decide) (by decide)⟩

end Sys2Proof
end

section
/-!
PROOFS. The control words and registers of a row read back after a write, a write changes its own bytes alone, and that registers read back
(R46, R47, R89, R91).
-/
namespace Sys2Proof
open Sys2Proof.Machine

section Bytes
variable {s : State}

theorem SameBytesBut.poke (hs : SafeState s) (a : Nat) (bs : List Byte) : SameBytesBut [(a, bs.length)] s (s.poke a bs) :=
  fun x hx => s.poke_get_other a bs x hs (hx _ List.mem_cons_self)

theorem SameBytesBut.pokeWord (hs : SafeState s) (a : Nat) (w : Word) : SameBytesBut [(a, 8)] s (s.pokeWord a w) := by
  have h := SameBytesBut.poke hs a (wordBytes w)
  rwa [show (wordBytes w).length = 8 from leBytes_length 8 _] at h

theorem SafeState.poke (hs : SafeState s) (a : Nat) (bs : List Byte) : SafeState (s.poke a bs) := s.poke_wf a bs hs

theorem SafeState.pokeWord (hs : SafeState s) (a : Nat) (w : Word) : SafeState (s.pokeWord a w) := hs.poke a _

end Bytes

namespace Machine.State

section Rows
variable {s : State} (hs : SafeState s) (row : Nat)
include hs

theorem ctrl_setCtrl_same (k lo n v : Nat) : (s.setCtrl row k lo n v).ctrl row k = setField (s.ctrl row k) lo n v :=
  word64_pokeWord_same _ _ _ hs

theorem getX_setX_same {n : Nat} (hn : n ≠ 0) (w : Word) : (s.setX row n w).getX row n = w := by
  rw [getX, setX, if_neg hn, if_neg hn, word64_pokeWord_same _ _ _ hs]

theorem getX_setX_other {n m : Nat} (hnm : n ≠ m) (w : Word) : (s.setX row n w).getX row m = s.getX row m := by
  by_cases hn : n = 0
  · rw [setX, if_pos hn]
  · rw [getX, getX, setX, if_neg hn, word64_pokeWord_other _ _ _ _ hs (by omega)]

theorem setX_sameBytes {n : Nat} (hn : n ≠ 0) (w : Word) : SameBytesBut [(row + 0x80 + 8 * n, 8)] s (s.setX row n w) := by
  rw [setX, if_neg hn]
  exact .pokeWord hs _ _

theorem getV_setV_same (n : Nat) (v : Line) : (s.setV row n v).getV row n = v := by
  have h := Memory.bytes_setBytes_same s.mem (row + 0x180 + 64 * n) (lineToBytes v) hs
  rw [show (lineToBytes v).length = 64 from leBytes_length 64 _] at h
  rw [getV, setV, poke_mem, h, leLine_lineToBytes]

theorem getV_setV_other {n m : Nat} (hnm : n ≠ m) (v : Line) : (s.setV row n v).getV row m = s.getV row m := by
  have hlen : (lineToBytes v).length = 64 := leBytes_length 64 _
  rw [getV, getV, setV, poke_mem, Memory.bytes_setBytes_other _ _ _ _ _ hs (by omega)]

theorem setV_sameBytes (n : Nat) (v : Line) : SameBytesBut [(row + 0x180 + 64 * n, 64)] s (s.setV row n v) := by
  have h := SameBytesBut.poke hs (row + 0x180 + 64 * n) (lineToBytes v)
  rwa [show (lineToBytes v).length = 64 from leBytes_length 64 _] at h

theorem getP_setP_same {n : Nat} (hn : n ≠ 0) (hn8 : n < 8) (b : Bool) : (s.setP row n b).getP row n = b := by
  rw [getP, setP, if_neg hn, ctrlField, ctrl_setCtrl_same hs, field_setField_same _ _ _ _ (by omega)]
  cases b <;> simp [hn]

theorem getP_setP_other {n m : Nat} (hnm : n ≠ m) (hn8 : n < 8) (b : Bool) : (s.setP row n b).getP row m = s.getP row m := by
  by_cases hn : n = 0
  · rw [setP, if_pos hn]
  · rw [getP, getP, setP, if_neg hn, ctrlField, ctrlField, ctrl_setCtrl_same hs, field_setField_other _ _ _ _ _ _ (by omega) (by omega)]

theorem setP_sameBytes {n : Nat} (hn : n ≠ 0) (b : Bool) : SameBytesBut [(row + 0x38, 8)] s (s.setP row n b) := by
  rw [setP, if_neg hn]
  exact .pokeWord hs _ _

/-- The predicates are the low byte of control word 7 (R91). -/
theorem setP_ctrl_above {n : Nat} (hn8 : n < 8) (b : Bool) : field ((s.setP row n b).ctrl row 7) 8 56 = field (s.ctrl row 7) 8 56 := by
  by_cases hn : n = 0
  · rw [setP, if_pos hn]
  · rw [setP, if_neg hn, ctrl_setCtrl_same hs, field_setField_other _ _ _ _ _ _ (by omega) (by omega)]

end Rows

end Machine.State

/-- Settles O7: the scalar registers, the vector registers and the predicates of a row in turn. -/
theorem registersReadBack : Obligations.RegistersReadBack := by
  intro s row hs
  refine ⟨fun n w hn => ⟨State.getX_setX_same hs row hn w, State.setX_sameBytes hs row hn w⟩,
    fun n m w hnm => State.getX_setX_other hs row hnm w, fun w => rfl, rfl,
    fun n v => ⟨State.getV_setV_same hs row n v, State.setV_sameBytes hs row n v⟩,
    fun n m v hnm => State.getV_setV_other hs row hnm v,
    fun n b hn hn8 => ⟨State.getP_setP_same hs row hn hn8 b, State.setP_sameBytes hs row hn b⟩,
    fun n m b hnm hn8 _ => State.getP_setP_other hs row hnm hn8 b, fun n b hn8 => State.setP_ctrl_above hs row hn8 b, fun b => rfl, rfl⟩

end Sys2Proof
end

section
/-!
PROOFS. The end of an issue: the loop test, the PC word and the thread's own record, and that completion advances (R53, R92, R120, R139).
-/
namespace Sys2Proof
open Sys2Proof.Machine

theorem SafeState.of_mem {s t : State} (hs : SafeState s) (h : t.mem = s.mem) : SafeState t := by
  rw [SafeState, h]
  exact hs

theorem SameBytesBut.trans {s t u : State} {rs qs : List (Nat × Nat)} (h : SameBytesBut rs s t) (h' : SameBytesBut qs t u) :
    SameBytesBut (rs ++ qs) s u :=
  fun a ha => (h' a fun r hr => ha r (List.mem_append_right _ hr)).trans (h a fun r hr => ha r (List.mem_append_left _ hr))

theorem SameBytesBut.mono {s t : State} {rs qs : List (Nat × Nat)} (h : SameBytesBut rs s t) (hsub : rs ⊆ qs) : SameBytesBut qs s t :=
  fun a ha => h a fun r hr => ha r (hsub hr)

theorem SameBytesBut.of_mem {s t : State} (rs : List (Nat × Nat)) (h : t.mem = s.mem) : SameBytesBut rs s t := fun a _ => by rw [h]

namespace Machine.State

theorem thread?_updThread (s : State) (id : Nat) (f : Thread → Thread) (hf : ∀ t, (f t).id = t.id) :
    (s.updThread id f).thread? id = (s.thread? id).map f := by
  have h (l : List Thread) : (l.map fun u => if u.id = id then f u else u).find? (·.id == id) = (l.find? (·.id == id)).map f := by
    induction l with
    | nil => rfl
    | cons u l ih =>
      by_cases hu : u.id = id
      · simp [hu, hf]
      · simp [hu, ih]
  exact h s.threads

theorem thread?_updThread_self {s : State} {id : Nat} {v : Thread} (h : s.thread? id = some v) (f : Thread → Thread)
    (hf : ∀ t, (f t).id = t.id := by exact fun _ => rfl) : (s.updThread id f).thread? id = some (f v) := by
  rw [thread?_updThread s id f hf, h]
  rfl

theorem thread?_congr {s t : State} (h : t.threads = s.threads) (id : Nat) : t.thread? id = s.thread? id := by
  rw [thread?, thread?, h]

@[simp] theorem writePc_threads (s : State) (row : Nat) (pc : Word) : (s.writePc row pc).threads = s.threads := by
  unfold State.writePc
  dsimp only
  split <;> simp

theorem ctrl_setCtrl_other {s : State} (hs : SafeState s) (row : Nat) {k j : Nat} (hkj : k ≠ j) (lo n v : Nat) :
    (s.setCtrl row k lo n v).ctrl row j = s.ctrl row j :=
  word64_pokeWord_other _ _ _ _ hs (by omega)

/-- What an issue that completes notes before the loop test (R75, R251, R253). -/
def issueNoted (s : State) (th : Thread) : State := ((s.countWalk th).dropWalk th.id).noteIssue th

/-- The loop test has left a loop word, and no other byte of memory has changed (R139). -/
structure LoopWritten (s : State) (row : Nat) (loop : Word) (t : State) : Prop where
  safe : SafeState t
  loop : t.ctrl row 4 = loop
  flags : t.ctrl row 7 = s.ctrl row 7
  same : SameBytesBut [(row + 0x20, 8)] s t

/-- An issue has left an address in the PC word, a loop word, and PCW and SSTEP clear, and no other byte of memory has changed (R92, R139). -/
structure RowAdvanced (s : State) (row : Nat) (pc loop : Word) (t : State) : Prop where
  pcWord : t.pcWord row = pc
  loop : t.ctrl row 4 = loop
  pcw : t.ctrlField row 7 12 1 = 0
  sstep : t.ctrlField row 7 13 1 = 0
  same : SameBytesBut [(row + 0x08, 8), (row + 0x20, 8), (row + 0x38, 8)] s t

theorem RowAdvanced.of_mem {s t u : State} {row : Nat} {pc loop : Word} (h : RowAdvanced s row pc loop t) (hm : u.mem = t.mem) :
    RowAdvanced s row pc loop u := by
  have hctrl (k : Nat) : u.ctrl row k = t.ctrl row k := by rw [ctrl, ctrl, word64, word64, hm]
  obtain ⟨hpc, hloop, hpcw, hstep, hsame⟩ := h
  exact ⟨(hctrl 1).trans hpc, (hctrl 4).trans hloop, by rwa [ctrlField, hctrl], by rwa [ctrlField, hctrl], fun a ha => by rw [hm, hsame a ha]⟩

theorem LoopWritten.kept {s t : State} (hs : SafeState s) (h : t.mem = s.mem) (row : Nat) : LoopWritten s row (s.ctrl row 4) t where
  safe := hs.of_mem h
  loop := by rw [ctrl, ctrl, word64, word64, h]
  flags := by rw [ctrl, ctrl, word64, word64, h]
  same := .of_mem _ h

theorem LoopWritten.written {s t : State} (hs : SafeState s) (h : t.mem = s.mem) (row : Nat) (w : Word) :
    LoopWritten s row w (t.pokeWord (row + 0x20) w) where
  safe := (hs.of_mem h).pokeWord _ _
  loop := word64_pokeWord_same _ _ _ (hs.of_mem h)
  flags := by
    have h7 : (t.pokeWord (row + 0x20) w).ctrl row 7 = t.ctrl row 7 := word64_pokeWord_other _ _ _ _ (hs.of_mem h) (by omega)
    rw [h7, ctrl, ctrl, word64, word64, h]
  same := (SameBytesBut.of_mem [] h).trans (.pokeWord (hs.of_mem h) _ _)

/-- The next address is written into the PC word and PCW is cleared (R92). -/
theorem RowAdvanced.writePc {s t : State} {row : Nat} {loop : Word} (h : LoopWritten s row loop t) (hstep : s.ctrlField row 7 13 1 = 0)
    (pc : Word) : RowAdvanced s row pc loop (t.writePc row pc) := by
  have hu : SafeState (t.pokeWord (row + 8) pc) := h.safe.pokeWord _ _
  have h1 : (t.pokeWord (row + 8) pc).ctrl row 1 = pc := word64_pokeWord_same _ _ _ h.safe
  have h4 : (t.pokeWord (row + 8) pc).ctrl row 4 = loop := (word64_pokeWord_other _ _ _ _ h.safe (by omega)).trans h.loop
  have h7 : (t.pokeWord (row + 8) pc).ctrl row 7 = s.ctrl row 7 := (word64_pokeWord_other _ _ _ _ h.safe (by omega)).trans h.flags
  have hsame := h.same.trans (.pokeWord h.safe (row + 8) pc)
  by_cases hp : (t.pokeWord (row + 8) pc).ctrlField row 7 12 1 = 1
  · rw [State.writePc, if_pos hp]
    refine ⟨(ctrl_setCtrl_other hu row (by decide) _ _ _).trans h1, (ctrl_setCtrl_other hu row (by decide) _ _ _).trans h4, ?_, ?_,
      (hsame.trans (.pokeWord hu (row + 0x38) _)).mono (by simp)⟩
    · rw [ctrlField, ctrl_setCtrl_same hu, field_setField_same _ _ _ _ (by decide), Nat.zero_mod]
    · rw [ctrlField, ctrl_setCtrl_same hu, field_setField_other _ _ _ _ _ _ (by decide) (by decide), h7]
      exact hstep
  · rw [State.writePc, if_neg hp]
    have hlt : (t.pokeWord (row + 8) pc).ctrlField row 7 12 1 < 2 := Nat.mod_lt _ (by decide)
    exact ⟨h1, h4, by omega, by rw [ctrlField, h7]; exact hstep, hsame.mono (by simp)⟩

/-- A thread that has gone on to an address (R92, R132, R144). -/
def goneOn (pc : Word) (c : Option TargetCheck) (discard : Bool) (t : Thread) : Thread :=
  { t.askAnew with ip := pc, check := c, stall := none, fbuf := if discard then [] else t.fbuf }

theorem setNext_thread? {s : State} {id row : Nat} {pc : Word} {v : Thread} (h : (s.writePc row pc).thread? id = some v)
    (c : Option TargetCheck) (d : Bool) : (s.setNext id row pc c d).thread? id = some (goneOn pc c d v) :=
  thread?_updThread_self h _

section Ends
variable {s : State} {id row : Nat} {v : Thread}

theorem endStep_of_clear (h : s.ctrlField row 7 13 1 = 0) : s.endStep id row = s := if_neg (by omega)

theorem takeOwnCommand_of_none (h : s.thread? id = some v) (hown : v.ownCmd = 0) : s.takeOwnCommand id = s := by
  simp only [takeOwnCommand, h]
  exact if_pos (.inl hown)

theorem progressClose_of_open (h : s.thread? id = some v) (hc : v.closing = none) (drop : Bool) : s.progressClose id drop = s := by
  simp only [progressClose, h, hc]

end Ends

section Loop
variable {s : State} {row : Nat} {w : Word} (hw : s.ctrl row 4 = w) {pc : Word}
include hw

theorem loopAfterNext_inactive (h : field w 32 1 ≠ 1) : s.loopAfterNext row pc = (s, pcNext pc, false) := by
  subst hw
  exact if_pos (by have : field (s.ctrl row 4) 32 1 < 2 := Nat.mod_lt _ (by decide); omega)

theorem loopAfterJump_inactive (h : field w 32 1 ≠ 1) (target : Word) : s.loopAfterJump row pc target = s := by
  subst hw
  exact if_pos (by have : field (s.ctrl row 4) 32 1 < 2 := Nat.mod_lt _ (by decide); omega)

variable (h : field w 32 1 = 1)
include h

theorem loopAfterNext_within (hd : field w 48 16 ≠ 0) :
    s.loopAfterNext row pc = (s.pokeWord (row + 0x20) (setField w 48 16 (field w 48 16 - 1)), pcNext pc, false) := by
  subst hw
  exact (if_neg (by omega)).trans (if_neg hd)

theorem loopAfterNext_last (hd : field w 48 16 = 0) (hc : field w 0 32 ≤ 1) :
    s.loopAfterNext row pc = (s.pokeWord (row + 0x20) (setField (setField w 0 32 0) 32 1 0), pcNext pc, false) := by
  subst hw
  exact (if_neg (by omega)).trans ((if_pos hd).trans (if_pos hc))

theorem loopAfterNext_back (hd : field w 48 16 = 0) (hc : 1 < field w 0 32) :
    s.loopAfterNext row pc = (s.pokeWord (row + 0x20) (setField (setField w 0 32 (field w 0 32 - 1)) 48 16 (field w 33 15)),
      pcAddress (pcIndex pc - field w 33 15), true) := by
  subst hw
  exact (if_neg (by omega)).trans ((if_pos hd).trans (if_neg (by omega)))

variable {target : Word}

theorem loopAfterJump_within
    (ht : pcIndex pc + field w 48 16 ≤ pcIndex target + field w 33 15 ∧ pcIndex target ≤ pcIndex pc + field w 48 16) :
    s.loopAfterJump row pc target = s.pokeWord (row + 0x20) (setField w 48 16 (pcIndex pc + field w 48 16 - pcIndex target)) := by
  subst hw
  exact (if_neg (by omega)).trans (if_pos ht)

theorem loopAfterJump_out
    (ht : ¬ (pcIndex pc + field w 48 16 ≤ pcIndex target + field w 33 15 ∧ pcIndex target ≤ pcIndex pc + field w 48 16)) :
    s.loopAfterJump row pc target = s.pokeWord (row + 0x20) (setField w 32 1 0) := by
  subst hw
  exact (if_neg (by omega)).trans (if_neg ht)

end Loop

section Noted
variable (s : State) (th : Thread)

theorem noteIssue_mem : (s.noteIssue th).mem = s.mem := by
  unfold noteIssue
  cases th.uses <;> rfl

theorem countWalk_mem : (s.countWalk th).mem = s.mem := by
  unfold countWalk
  split <;> rfl

theorem countWalk_threads : (s.countWalk th).threads = s.threads := by
  unfold countWalk
  split <;> rfl

theorem issueNoted_mem : (s.issueNoted th).mem = s.mem := (noteIssue_mem ..).trans (countWalk_mem s th)

theorem issueNoted_ctrl (row k : Nat) : (s.issueNoted th).ctrl row k = s.ctrl row k := by
  rw [ctrl, ctrl, word64, word64, issueNoted_mem]

/-- The thread that has issued, with its unit, its outside queue and its fetch-buffer line noted. -/
def issuedThread (th v : Thread) : Thread :=
  { v with uses := none, appliedSince := false, issued := v.issued + 1
           fbuf := v.fbuf.map fun (f : FetchLine) => if f.va = lineOf th.ip.toNat then { f with issued := true } else f }

theorem issueNoted_thread? : (s.issueNoted th).thread? th.id = (s.thread? th.id).map (issuedThread th) := by
  have hc : (s.countWalk th).thread? th.id = s.thread? th.id := thread?_congr (countWalk_threads s th) _
  rw [← hc]
  unfold issueNoted noteIssue
  cases th.uses <;> exact thread?_updThread _ _ (issuedThread th) fun _ => rfl

end Noted

end Machine.State

section Completion
open Machine.State

/-- An issue leaves a thread's row advanced, and the thread's record as told. -/
def Advances (s t : State) (th : Thread) (pc loop : Word) (p : Thread → Prop) : Prop :=
  t.pcWord th.row = pc ∧ t.ctrl th.row 4 = loop ∧ t.ctrlField th.row 7 12 1 = 0 ∧ (∃ u, t.thread? th.id = some u ∧ p u) ∧
    SameBytesBut [(th.row + 0x08, 8), (th.row + 0x20, 8), (th.row + 0x38, 8)] s t

theorem Advances.of_row {s t : State} {th u : Thread} {pc loop : Word} {p : Thread → Prop} (h : RowAdvanced s th.row pc loop t)
    (hu : t.thread? th.id = some u) (hp : p u) : Advances s t th pc loop p :=
  ⟨h.pcWord, h.loop, h.pcw, ⟨u, hu, hp⟩, h.same⟩

theorem Advances.imp {s t : State} {th : Thread} {pc loop : Word} {p q : Thread → Prop} (h : Advances s t th pc loop p)
    (hpq : ∀ u, p u → q u) : Advances s t th pc loop q := by
  obtain ⟨hpc, hloop, hpcw, ⟨u, hu, hp⟩, hsame⟩ := h
  exact ⟨hpc, hloop, hpcw, ⟨u, hu, hpq u hp⟩, hsame⟩

/-- The loop test of an issue has been made: the row holds its loop word, and the threads are as the issue left them (R139). -/
structure Tested (s : State) (th : Thread) (loop : Word) (u : State) : Prop extends LoopWritten s th.row loop u where
  threads : u.threads = (s.issueNoted th).threads

variable {s u : State} {th : Thread} {loop : Word}

theorem Tested.kept (hs : SafeState s) : Tested s th (s.ctrl th.row 4) (s.issueNoted th) :=
  ⟨.kept hs (issueNoted_mem s th) _, rfl⟩

theorem Tested.written (hs : SafeState s) (w : Word) : Tested s th w ((s.issueNoted th).pokeWord (th.row + 0x20) w) :=
  ⟨.written hs (issueNoted_mem s th) _ w, pokeWord_threads ..⟩

variable (hth : s.thread? th.id = some th) (hstep : s.ctrlField th.row 7 13 1 = 0) (hl : Tested s th loop u)
include hth hstep hl

theorem writePc_advanced (pc : Word) : RowAdvanced s th.row pc loop (u.writePc th.row pc) ∧
    (u.writePc th.row pc).thread? th.id = some (issuedThread th th) := by
  refine ⟨.writePc hl.toLoopWritten hstep pc, ?_⟩
  rw [thread?_congr ((writePc_threads ..).trans hl.threads), issueNoted_thread?, hth]
  rfl

/-- The end of an issue that goes on to an address, with no STEP and no command of its own. -/
theorem advances_setNext (hclose : th.closing = none) (hown : th.ownCmd = 0) (pc : Word) (c : Option TargetCheck) (d : Bool) :
    Advances s ((((u.setNext th.id th.row pc c d).endStep th.id th.row).takeOwnCommand th.id).progressClose th.id false) th pc loop fun v =>
      v.ip = pc ∧ v.check = c ∧ v.stall = none ∧ v.closing = none := by
  obtain ⟨hrow, hv⟩ := writePc_advanced hth hstep hl pc
  have hrow' : RowAdvanced s th.row pc loop (u.setNext th.id th.row pc c d) := hrow.of_mem rfl
  have hv' := setNext_thread? hv c d
  rw [endStep_of_clear hrow'.sstep, takeOwnCommand_of_none hv' hown, progressClose_of_open hv' hclose]
  exact .of_row hrow' hv' ⟨rfl, rfl, rfl, hclose⟩

variable {pc : Word} {back : Bool} (hnext : (s.issueNoted th).loopAfterNext th.row th.ip = (u, pc, back))
include hnext

theorem completed_next_advances (hclose : th.closing = none) (hown : th.ownCmd = 0) : Advances s (completed s th .next) th pc loop fun v =>
    v.ip = pc ∧ v.check = (if back then some ⟨true, none, none⟩ else none) ∧ v.stall = none ∧ v.closing = none := by
  have h := advances_setNext hth hstep hl hclose hown pc (if back then some ⟨true, none, none⟩ else none) false
  rw [issueNoted] at hnext
  simpa only [completed, finishIssue, hnext] using h

theorem finishIssue_close_advances (bits : Nat) : Advances s (s.finishIssue th (.close bits)) th pc loop fun v =>
    v.ip = pc ∧ v.check = (if back then some ⟨true, none, none⟩ else none) ∧ v.closing = some bits ∧ (bits % 16 ≠ 4 → v.stall = none) := by
  obtain ⟨hrow, hv⟩ := writePc_advanced hth hstep hl pc
  rw [issueNoted] at hnext
  simp only [finishIssue, hnext]
  rw [if_neg]
  · exact .of_row (hrow.of_mem rfl) (thread?_updThread_self (thread?_updThread_self (setNext_thread? hv _ _) _) _)
      ⟨rfl, rfl, rfl, fun hb => if_neg hb⟩
  · exact fun h => absurd (hrow.sstep.symm.trans h.1) (by decide)

theorem completed_stay_advances (hclose : th.closing = none) (wk wa : Nat) (c : WaitCond) :
    Advances s (completed s th (.stay wk wa c)) th th.ip loop fun v =>
      v.ip = th.ip ∧ v.stall = some ⟨wk, wa, c⟩ ∧ v.closing = none ∧
        v.spawn = th.spawn.map fun q => { q with next := pc, back := back } := by
  obtain ⟨hrow, hv⟩ := writePc_advanced hth hstep hl th.ip
  rw [issueNoted] at hnext
  simp only [completed, finishIssue, hnext]
  rw [if_neg, progressClose_of_open (thread?_updThread_self (thread?_updThread_self hv _) _) hclose]
  · exact .of_row (hrow.of_mem rfl) (thread?_updThread_self (thread?_updThread_self hv _) _) ⟨rfl, rfl, hclose, rfl⟩
  · exact fun h => absurd (hrow.sstep.symm.trans h) (by decide)

end Completion

open Machine.State in
/-- Settles O9: the loop test by its cases, for each way that control goes on. -/
theorem completionAdvances : Obligations.CompletionAdvances := by
  intro s th hs hth hclose hown hstep w lact lc llen ldist le ends nexts tested
  have hw : (s.issueNoted th).ctrl th.row 4 = w := s.issueNoted_ctrl th th.row 4
  have hjump {loop : Word} {u : State} (hl : Tested s th loop u) := advances_setNext hth hstep hl hclose hown
  have hends {loop : Word} {u : State} (hl : Tested s th loop u) (pc : Word) (c : Option TargetCheck) (d : Bool)
      (hu : (s.issueNoted th).loopAfterJump th.row th.ip pc = u) : ends (.jump pc c d) pc loop c := by
    subst hu
    exact hjump hl pc c d
  have htested {loop pc : Word} {u : State} {back : Bool} (hl : Tested s th loop u)
      (hnext : (s.issueNoted th).loopAfterNext th.row th.ip = (u, pc, back)) :
      tested pc loop (if back then some ⟨true, none, none⟩ else none) := by
    refine ⟨⟨completed_next_advances hth hstep hl hnext hclose hown, fun bits =>
        ⟨rfl, finishIssue_close_advances hth hstep hl hnext bits⟩⟩,
      fun wk wa c => (completed_stay_advances hth hstep hl hnext hclose wk wa c).imp fun v hv => ?_⟩
    cases back <;> exact hv
  refine ⟨fun ha => ?inactive, fun ha hd => ?within, fun ha hd hc => ?last, fun ha hd hc => ?back, fun pc c d ha => ?jump,
    fun pc c d ha hin => ?jumpWithin, fun pc c d ha hout => ?jumpOut, hjump (.kept hs), hjump (.kept hs) th.ip none false⟩
  case inactive => exact htested (.kept hs) (loopAfterNext_inactive hw ha)
  case within => exact htested (.written hs _) (loopAfterNext_within hw ha hd)
  case last => exact htested (.written hs _) (loopAfterNext_last hw ha hd hc)
  case back => exact htested (.written hs _) (loopAfterNext_back hw ha hd hc)
  case jump => exact hends (.kept hs) pc c d (loopAfterJump_inactive hw ha pc)
  case jumpWithin => exact hends (.written hs _) pc c d (loopAfterJump_within hw ha hin)
  case jumpOut => exact hends (.written hs _) pc c d (loopAfterJump_out hw ha hout)

end Sys2Proof
end

section
/-!
PROOFS. What an issue comes to, check by check, and that a step runs the decoded instruction (R46, R57, R58, R61, R65, R132, R165, R225).
-/
namespace Sys2Proof
open Sys2Proof.Machine

namespace Machine

namespace State

section Prepare
variable {s : State} {id : Nat} {th : Thread} (hth : s.thread? id = some th) (hcan : s.canIssue th = true)
include hth hcan

theorem prepareIssue_badAddress (hpc : pcWellFormed th.ip = false) :
    s.prepareIssue id = ({ s with cur := some id } : State).issueFault th .badtarget ((th.check.bind (·.source)).getD 0) := by
  simp [prepareIssue, hth, hcan, hpc]

/-- The line of an issue is in the fetch buffer, or a fill has put it there (R57, R143). -/
theorem prepareIssue_line (hpc : pcWellFormed th.ip = true) {f : FetchLine} {u : State}
    (hf : (th.fbuf.find? (·.va == lineOf th.ip.toNat)) = some f ∧ u = { s with cur := some id } ∨
      (th.fbuf.find? (·.va == lineOf th.ip.toNat)) = none ∧
        ({ s with cur := some id } : State).fillLine th (lineOf th.ip.toNat) false = .line u f) :
    s.prepareIssue id = u.issueWord th f := by
  rcases hf with ⟨hbuf, rfl⟩ | ⟨hbuf, hfill⟩
  · simp [prepareIssue, hth, hcan, hpc, hbuf]
  · simp [prepareIssue, hth, hcan, hpc, hbuf, hfill]

end Prepare

/-- The word at a thread's address in a fetched line (R54). -/
def wordAt (th : Thread) (f : FetchLine) : IWord := slotWord f.data (th.ip.toNat % 8)

/-- The data of a fault before the instruction runs: the source of the transfer that led there (R132). -/
def faultSource (th : Thread) : Word := (th.check.bind (·.source)).getD 0

/-- A transfer has landed on a slot that the mask of its line leaves out (R58). -/
def LandsMasked (th : Thread) (f : FetchLine) : Prop :=
  (∃ c, th.check = some c ∧ c.tmask = true) ∧ bitsAt (tmask (lineWord f.data)) (th.ip.toNat % 8) 1 = 0

/-- An indirect transfer has landed on no LPAD of its tag (R132). -/
def MissesPad (th : Thread) (f : FetchLine) : Prop :=
  ∃ c tag, th.check = some c ∧ c.lpad = some tag ∧ ¬ (bitsAt (wordAt th f).toNat 86 10 = 0x45 ∧ bitsAt (wordAt th f).toNat 58 8 = tag.toNat)

/-- The unit that a word takes when its guard does not hold it back (R46, R165, R225). -/
def useUnder (s : State) (th : Thread) (w : IWord) (g : Guard) : Option (Nat × Nat) :=
  if s.getP th.row g.pred.val ≠ g.neg then unitUse th.exec w else none

/-- A thread whose word has passed its checks, with the unit it takes (R58, R165). -/
def passed (s : State) (th : Thread) (w : IWord) (g : Guard) : State :=
  s.updThread th.id fun t => { t with check := none, uses := s.useUnder th w g }

/-- What a decoded word comes to: it waits for the unit it takes, runs, or goes on without effect (R46, R165, R225). -/
def issueDecoded (s : State) (th : Thread) (w : IWord) (g : Guard) (i : Instr) : Issued :=
  let u := s.passed th w g
  if (match s.useUnder th w g with
      | some (kind, _) => u.unitBusy th kind && u.divQueues i
      | none => false) then
    .done ((u.blockIssue th 0xC 0 (.unitBusy (((s.useUnder th w g).map (·.1)).getD 0))).progressClose th.id false)
  else if u.getP th.row g.pred.val ≠ g.neg then .run i u
  else .done (completed u { th with uses := none } .next)

/-- The checks of R65 on a word whose landing is good, in their order, and what the word then comes to. -/
def issueLanded (s : State) (th : Thread) (f : FetchLine) : Issued :=
  if wordAt th f = 0 ∨ wordAt th f = BitVec.allOnes 96 then s.issueFault th .zeroword (faultSource th)
  else if ! lineWordOk (lineWord f.data) then s.issueFault th .illegal (faultSource th)
  else match decodeFor (some th.exec) (wordAt th f) with
    | .error c => s.issueFault th c (faultSource th)
    | .ok (g, i) => s.issueDecoded th (wordAt th f) g i

section Landing
variable {s : State} {th : Thread} {f : FetchLine}

theorem issueWord_badLine {c : Cause} (hbad : f.bad = some c) : s.issueWord th f = s.issueFault th c (faultSource th) := by
  simp only [issueWord, hbad]
  rfl

theorem not_landsMasked (h : ¬ LandsMasked th f) :
    ((th.check.map (·.tmask)).getD false && bitsAt (tmask (lineWord f.data)) (th.ip.toNat % 8) 1 == 0) = false := by
  cases hc : th.check with
  | none => rfl
  | some c => simpa [LandsMasked, hc] using h

theorem landed_cases (h : ¬ MissesPad th f) : th.check.bind (·.lpad) = none ∨
    ∃ tag, th.check.bind (·.lpad) = some tag ∧ bitsAt (wordAt th f).toNat 86 10 = 0x45 ∧ bitsAt (wordAt th f).toNat 58 8 = tag.toNat := by
  cases hl : th.check.bind (·.lpad) with
  | none => exact .inl rfl
  | some tag =>
    obtain ⟨c, hc, hl⟩ := Option.bind_eq_some_iff.1 hl
    exact .inr ⟨tag, rfl, not_not.1 fun hne => h ⟨c, tag, hc, hl, hne⟩⟩

variable (hbad : f.bad = none)
include hbad

theorem issueWord_masked (hm : LandsMasked th f) : s.issueWord th f = s.issueFault th .badtarget (faultSource th) := by
  obtain ⟨⟨c, hc, ht⟩, hb⟩ := hm
  simp [issueWord, faultSource, hbad, hc, ht, hb]

variable (hm : ¬ LandsMasked th f)
include hm

theorem issueWord_missesPad (hp : MissesPad th f) : s.issueWord th f = s.issueFault th .lpadmiss (faultSource th) := by
  have hm := not_landsMasked hm
  obtain ⟨c, tag, hc, hl, hne⟩ := hp
  have hl : th.check.bind (·.lpad) = some tag := by rw [hc]; exact hl
  simp only [issueWord, hbad, hm, hl]
  rw [if_neg (by decide), if_pos (by simpa [wordAt, imp_iff_not_or] using hne)]
  rfl

variable (hp : ¬ MissesPad th f)
include hp

theorem issueWord_landed : s.issueWord th f = s.issueLanded th f := by
  have hm := not_landsMasked hm
  rcases landed_cases hp with hl | ⟨tag, hl, hop, htag⟩
  · simp only [issueWord, hbad, hm, hl, bne_iff_ne]
    rw [if_neg (by decide), if_neg (by decide)]
    rfl
  · have hland : (! (bitsAt (wordAt th f).toNat 86 10 == 0x45 && bitsAt (wordAt th f).toNat 58 8 == tag.toNat)) = false := by
      rw [hop, htag, beq_self_eq_true, beq_self_eq_true]
      rfl
    unfold wordAt at hland
    simp only [issueWord, hbad, hm, hl, hland, bne_iff_ne]
    rw [if_neg (by decide), if_neg (by decide)]
    rfl

end Landing

section Landed
variable {s : State} {th : Thread} {f : FetchLine}

theorem issueLanded_empty (he : wordAt th f = 0 ∨ wordAt th f = BitVec.allOnes 96) :
    s.issueLanded th f = s.issueFault th .zeroword (faultSource th) := if_pos he

variable (he : ¬ (wordAt th f = 0 ∨ wordAt th f = BitVec.allOnes 96))
include he

theorem issueLanded_badLineWord (hw : lineWordOk (lineWord f.data) = false) :
    s.issueLanded th f = s.issueFault th .illegal (faultSource th) := (if_neg he).trans (if_pos (by rw [hw]; rfl))

variable (hw : lineWordOk (lineWord f.data) = true)
include hw

theorem issueLanded_undecoded {c : Cause} (hd : decodeFor (some th.exec) (wordAt th f) = .error c) :
    s.issueLanded th f = s.issueFault th c (faultSource th) := by
  rw [issueLanded, if_neg he, if_neg (by simp [hw]), hd]

theorem issueLanded_decoded {g : Guard} {i : Instr} (hd : decodeFor (some th.exec) (wordAt th f) = .ok (g, i)) :
    s.issueLanded th f = s.issueDecoded th (wordAt th f) g i := by
  rw [issueLanded, if_neg he, if_neg (by simp [hw]), hd]

end Landed

section Decoded
variable {s : State} {th : Thread} {w : IWord} {g : Guard} {i : Instr}

/-- A guard that does not hold leaves the instruction without effect (R46). -/
theorem issueDecoded_held (hg : s.getP th.row g.pred.val = g.neg) :
    s.issueDecoded th w g i = .done (completed (s.passed th w g) { th with uses := none } .next) := by
  have huse : s.useUnder th w g = none := if_neg (not_not.2 hg)
  simp only [issueDecoded, huse]
  exact (if_neg (by decide)).trans (if_neg (not_not.2 hg))

variable (hg : ¬ s.getP th.row g.pred.val = g.neg)
include hg

theorem issueDecoded_waits {kind cycles : Nat} (hu : unitUse th.exec w = some (kind, cycles))
    (hbusy : (s.passed th w g).unitBusy th kind = true) (hq : (s.passed th w g).divQueues i = true) :
    s.issueDecoded th w g i = .done (((s.passed th w g).blockIssue th 0xC 0 (.unitBusy kind)).progressClose th.id false) := by
  have huse : s.useUnder th w g = some (kind, cycles) := (if_pos hg).trans hu
  simp only [issueDecoded, huse]
  exact if_pos (by rw [hbusy, hq]; rfl)

theorem issueDecoded_runs (hfree : ∀ kind cycles, unitUse th.exec w = some (kind, cycles) →
    (s.passed th w g).unitBusy th kind = false ∨ (s.passed th w g).divQueues i = false) :
    s.issueDecoded th w g i = .run i (s.passed th w g) := by
  have huse : s.useUnder th w g = unitUse th.exec w := if_pos hg
  cases hu : unitUse th.exec w with
  | none =>
    simp only [issueDecoded, huse, hu]
    exact (if_neg (by decide)).trans (if_pos hg)
  | some u =>
    simp only [issueDecoded, huse, hu]
    exact (if_neg (by rcases hfree u.1 u.2 hu with h | h <;> simp [h])).trans (if_pos hg)

end Decoded

/-- A line that the thread's own row holds and whose CRC is good is buffered (R57, R88). -/
theorem fillLine_own {s : State} {th : Thread} {va dp : Nat} (hown : s.check th (.ofNat 64 va) .exec = .own dp)
    (hp : s.poisoned dp lineBytes = false) (hr : th.reread = none)
    (hcrc : crc16 ((lineToBytes (leLine (s.newest dp lineBytes))).take 60) = lineCrc (lineWord (leLine (s.newest dp lineBytes)))) (ahead : Bool) :
    s.fillLine th va ahead =
      .line (s.bufferLine th.id ⟨va, leLine (s.newest dp lineBytes), none, false⟩) ⟨va, leLine (s.newest dp lineBytes), none, false⟩ := by
  simp [fillLine, hown, acceptLine, hp, hr, hcrc]

end State

section Step
variable {s : State} {m : Move} {rest : List Move} (hagenda : s.agenda = m :: rest)
include hagenda

theorem step_event {e : Instr} {inp : EventIn} (hact : m.act = .event e inp) :
    step s = settleOutcome (exec e { ({ s with agenda := rest } : State).beginMove m with inp := inp }) := by
  simp only [step, State.takeMove, hagenda, hact]

theorem step_pair {id : Nat} (hact : m.act = .pair id) :
    step s = settleOutcome ((({ s with agenda := rest } : State).beginMove m).issuePair id) := by
  simp only [step, State.takeMove, hagenda, hact]

theorem step_issue_done {id : Nat} {u : State} (hact : m.act = .issue id)
    (h : (({ s with agenda := rest } : State).beginMove m).prepareIssue id = .done u) : step s = .next u.settle := by
  simp only [step, State.takeMove, hagenda, hact, h]

theorem step_issue_run {id : Nat} {i : Instr} {u : State} (hact : m.act = .issue id)
    (h : (({ s with agenda := rest } : State).beginMove m).prepareIssue id = .run i u) : step s = settleOutcome (exec i u) := by
  simp only [step, State.takeMove, hagenda, hact, h]

end Step

theorem step_empty {s : State} (h : s.agenda = []) : step s = step { s with agenda := [Config.freeMove s.fresh], fresh := s.fresh + 1 } := by
  cases s
  subst h
  rfl

end Machine

open State in
/-- Settles O3: an issue check by check, in the order of the checks, then events and pairs, a line's fill, p0 and the empty schedule. -/
theorem stepRunsTheDecodedInstruction : Obligations.StepRunsTheDecodedInstruction := by
  refine ⟨fun s m rest hagenda => ⟨fun e inp => step_event hagenda, fun id => step_pair hagenda,
    fun id th hact hth hcan => ⟨fun hpc => ?address, fun f s1 hpc hline => ?line⟩⟩,
    fun s th va dp ahead hown hp hr hcrc => fillLine_own hown hp hr hcrc ahead, fun s row b => ⟨rfl, rfl⟩, fun s => step_empty⟩
  case address => exact step_issue_done hagenda hact (prepareIssue_badAddress hth hcan hpc)
  case line =>
    have hprep := prepareIssue_line hth hcan hpc hline
    have hfault {c : Cause} (hw : s1.issueWord th f = s1.issueFault th c (faultSource th)) := step_issue_done hagenda hact (hprep.trans hw)
    intro slot w faults masked missed empty
    refine ⟨fun c hbad => hfault (issueWord_badLine hbad), fun hbad => ⟨fun hm => hfault (issueWord_masked hbad hm),
      fun hm hp => hfault (issueWord_missesPad hbad hm hp), fun hm hp he => ?empty, fun hm hp he hw => ?lineWord, fun hm hp he hw => ?word⟩⟩
    case empty => exact hfault ((issueWord_landed hbad hm hp).trans (issueLanded_empty he))
    case lineWord => exact hfault ((issueWord_landed hbad hm hp).trans (issueLanded_badLineWord he hw))
    case word =>
      refine ⟨fun c hd => hfault ((issueWord_landed hbad hm hp).trans (issueLanded_undecoded he hw hd)), fun g i hd => ?_⟩
      have hdone := hprep.trans ((issueWord_landed hbad hm hp).trans (issueLanded_decoded he hw hd))
      exact ⟨fun hg => step_issue_done hagenda hact (hdone.trans (issueDecoded_held hg)),
        fun kind cycles hg hu hbusy hq => step_issue_done hagenda hact (hdone.trans (issueDecoded_waits hg hu hbusy hq)),
        fun hg hfree => step_issue_run hagenda hact (hdone.trans (issueDecoded_runs hg hfree))⟩

end Sys2Proof
end

section
/-!
PROOFS. The moves of the store buffers, the outside queues, the fetch buffers and the stream slots (R57, R73 to R76, R143, R181, R255).
-/
namespace Sys2Proof
open Sys2Proof.Machine

namespace Machine.State

section Drain
variable {s t : State} {id : Nat} {th : Thread} {e : SBEntry} {rest : List SBEntry} (hth : s.thread? id = some th) (hsb : th.sb = e :: rest)
include hth hsb

theorem drain_remote {m : Nat} (hr : e.remote = some m) : s.drain id = s.sendRemote m e.va (.store id) e.bytes := by
  simp only [drain, hth, hsb, hr]

variable (hr : e.remote = none)
include hr

theorem drain_group {row : Nat} (hm : e.mark = .group row) (hc : s.chargeCopy th row = .ok t) :
    s.drain id = ((t.shadowWrite id e.dp e.bytes).popSB id).progressClose id false := by
  simp only [drain, hth, hsb, hr, hm, hc]

theorem drain_plain (hm : ∀ row, e.mark ≠ .group row) : s.drain id = (s.drainTo th e).progressClose id false := by
  simp only [drain, hth, hsb, hr]

end Drain

section DrainTo
variable {s : State} {th : Thread} {e : SBEntry}

/-- The entry lands on its line, and the thread's view takes what it has written (R73). -/
def drained (s : State) (th : Thread) (e : SBEntry) : State :=
  ((s.popSB th.id).landStore (some th.id) e.dp e.bytes e.mark).viewNewest th.id (lineOf e.dp)

theorem drainTo_control (h : s.region e.dp = .control) : s.drainTo th e = (s.popSB th.id).storeControl th e.dp e.bytes := by
  simp only [drainTo, h]

variable (h : s.region e.dp ≠ .control)
include h

theorem drainTo_openRow {u : Thread} (ho : s.openAt? e.dp = some u) : s.drainTo th e =
    if u.id ≠ th.id then (s.popSB th.id).enqueue u.id (.write (some th.id) e.dp e.bytes e.mark) else s.drained th e := by
  unfold drainTo
  split
  · exact absurd ‹_› h
  · simp only [ho]
    rfl

theorem drainTo_reached (ho : s.openAt? e.dp = none) {t : State} (hr : s.reach (th.id + 1) e.dp true = .ok t) :
    s.drainTo th e = t.drained th e := by
  unfold drainTo
  split
  · exact absurd ‹_› h
  · simp only [ho, hr]
    rfl

end DrainTo

/-- A version that M holds is taken, and with a committed one the rest of its commit (R74). -/
theorem refresh_held {s : State} {id line v : Nat} (hv : v ≤ s.verOf line) : s.refresh id line v =
    if s.commitOf line v = 0 then s.advanceView id line v
    else (s.commitLines (s.commitOf line v)).foldl (fun s p => s.advanceView id p.1 p.2) (s.advanceView id line v) := by
  exact if_neg (by omega)

/-- The entry at the head of an outside queue takes its move at a boundary of its row (R76, R97). -/
theorem applyHead_cons {s : State} {id : Nat} {th : Thread} (hth : s.thread? id = some th) {e : OQEntry} {rest : List OQEntry}
    (hq : th.oq = e :: rest) : s.applyHead id =
      (({ (s.showClose th).doomGroups with touched := [] } : State).updThread id fun t =>
        { t with oq := rest, oqAt := t.oqAt.drop 1, appliedSince := true }).applyEntry th rest e := by
  simp only [applyHead, hth, hq]

section Apply
variable {s : State} {id : Nat} {th : Thread} (hth : s.thread? id = some th)
include hth

theorem matrixComplete_clocked {m : MatrixOp} {rest : List MatrixOp} (hm : th.matrix = m :: rest)
    (hc : s.clocked (2 * th.die + 1) = true) :
    s.matrixComplete id =
      ((s.updThread id fun t => m.results.foldl (fun t r => t.setAcc r.1 r.2) { t with matrix := rest }).progressClose id false) := by
  simp only [matrixComplete, hth, hm]
  exact if_neg (by simp [hc])

variable (hopen : th.slot ≠ none)
include hopen

theorem apply_ship (hs : shipFirst th = true) (ht : takesOutside th = true ∨ th.closing.isSome = true ∧ th.matrix = []) :
    s.apply id = (s.applyFirst th).progressClose id false := by
  have hq : th.oq.isEmpty = false := by
    cases hq : th.oq with
    | nil => simp [shipFirst, hq] at hs
    | cons => rfl
  simp only [apply, hth]
  rw [if_neg (by simp [hopen, hq]), if_pos hs, if_pos (by simpa using ht)]

theorem apply_head {e : OQEntry} {rest : List OQEntry} (ht : takesOutside th = true) (hq : th.oq = e :: rest) (hs : shipFirst th = false) :
    s.apply id = ((({ (s.showClose th).doomGroups with touched := [] } : State).updThread id fun t =>
      { t with oq := rest, oqAt := t.oqAt.drop 1, appliedSince := true }).applyEntry th rest e).progressClose id false := by
  simp only [apply, hth]
  rw [← applyHead_cons hth hq, if_neg (by simp [hopen, hq]), if_neg (by simp [hs]), if_neg (by simp [ht])]

/-- The fetch buffer of an open row that does not close is filled with the line of its next issue, or the next one (R57, R143). -/
theorem fetchFill_due {va : Nat} (hc : th.closing = none) (hpc : pcWellFormed th.ip = true)
    (hdue : va = lineOf th.ip.toNat ∨
      va = lineOf th.ip.toNat + lineBytes ∧ (∃ g ∈ th.fbuf, g.va = lineOf th.ip.toNat ∧ g.issued = true) ∧ s.pastLoop th = false)
    (hnew : (th.fbuf.any fun f => f.va == va) = false) {t : State} {f : FetchLine} (hf : s.fillLine th va true = .line t f) :
    s.fetchFill id va = t := by
  have hd : (va == lineOf th.ip.toNat ||
      (va == lineOf th.ip.toNat + lineBytes && (th.fbuf.any fun f => f.va == lineOf th.ip.toNat && f.issued) && ! s.pastLoop th)) = true := by
    simpa [and_assoc] using hdue
  simp only [fetchFill, hth, hd, hnew, hpc, hc, hf]
  exact if_neg (by simp [hopen])

/-- A vector within the depth of a slot that is not done is read ahead, from a row that is closed (R181). -/
theorem streamPrefetch_closedRow {slot ahead : Nat} (hdepth : ahead ≤ s.slotDepth th.row slot) (hdone : s.slotDone th.row slot = false)
    {dp : Nat} (hdp : s.check th (s.slotAhead th.row slot ahead) .read = .ok dp) (ho : s.openAt? dp = none) (hr : s.region dp ≠ .control)
    {t : State} (ht : s.reach (th.id + 1) dp false = .ok t) :
    s.streamPrefetch id slot ahead =
      (t.noteBankWindow th (s.slotAhead th.row slot ahead).toNat dp).refresh id (lineOf dp) (t.verOf (lineOf dp)) := by
  simp only [streamPrefetch, hth, hdp, ho, ht]
  rw [if_neg (by simpa [hopen, hdone] using hdepth), if_neg (by simp [hr])]

end Apply

end Machine.State

section Events
variable {s t : State} {n : Nat}

theorem does_drain (h : s.inp = .unit n) (ht : s.drain n = t) : Does .drain s t := by
  show execDrain s = _
  simp only [execDrain, h, ht]

theorem does_refresh {line v : Nat} (h : s.inp = .triple n line v) (ht : s.refresh n (lineOf line) v = t) : Does .refresh s t := by
  show execRefresh s = _
  simp only [execRefresh, h, ht]

theorem does_apply (h : s.inp = .unit n) (ht : s.apply n = t) : Does .apply s t := by
  show execApply s = _
  simp only [execApply, h, ht]

theorem does_matrixArithComplete (h : s.inp = .unit n) (ht : s.matrixComplete n = t) : Does .matrixArithComplete s t := by
  show execMatrixArithComplete s = _
  simp only [execMatrixArithComplete, h, ht]

theorem does_fetchFill {va : Nat} (h : s.inp = .pair n va) (ht : s.fetchFill n va = t) : Does .fetchFill s t := by
  show execFetchFill s = _
  simp only [execFetchFill, h, ht]

theorem does_streamPrefetch {slot : Fin 4} {ahead : Nat} (h : s.inp = .prefetch n slot ahead) (ht : s.streamPrefetch n slot.val ahead = t) :
    Does .streamPrefetch s t := by
  show execStreamPrefetch s = _
  simp only [execStreamPrefetch, h, ht]

theorem does_walkBegin (h : s.inp = .unit n) (ht : s.walkBegin n = t) : Does .walkBegin s t := by
  show execWalkBegin s = _
  simp only [execWalkBegin, h, ht]

theorem does_walkerWatchdog (h : s.inp = .unit n) (ht : s.walkerWatchdog n = t) : Does .walkerWatchdog s t := by
  show execWalkerWatchdog s = _
  simp only [execWalkerWatchdog, h, ht]

theorem does_counterMove (h : s.inp = .unit n) (ht : s.counterStep n = t) : Does .counterMove s t := by
  show execCounterMove s = _
  simp only [execCounterMove, h, ht]

theorem does_happly (h : s.inp = .unit n) (ht : s.happly (fun s => s.parts[n]?) none = t) : Does .happly s t := by
  show execHapply s = _
  simp only [execHapply, h, ht]

theorem does_engaccMove {a : AccessId} (h : s.inp = .access a) (ht : s.engAccess a (.move none) = t) : Does .engacc s t := by
  show execEngacc s = _
  simp only [execEngacc, h, ht]

theorem does_engaccTranslate {a : AccessId} (h : s.inp = .translate a) (ht : s.engAccess a .translate = t) : Does .engacc s t := by
  show execEngacc s = _
  simp only [execEngacc, h, ht]

end Events

end Sys2Proof
end

section
/-!
PROOFS. The moves of engines, one-sided operations, table updates and walks, and that moves take effect (R84 to R86, R99, R186, R251, R253, R302).
-/
namespace Sys2Proof
open Sys2Proof.Machine

namespace Machine.State

section Engines
variable {s : State} {k : Nat} {c : EngCmd} {rest : List EngCmd} (hq : (s.ctx k).cq = c :: rest) (hrun : (s.ctx k).halt = false)
  {i : Nat} (hleft : i ∉ c.taken) (hi : i < c.accesses) (htakes : s.engineTakes k i = true) (hgate : s.receiverGated c.unit = false)
include hq hrun hleft hi htakes hgate

/-- A command after its access i has taken its move (R84, R325). -/
def accessTaken (c : EngCmd) (i : Nat) (lines : List (Nat × Nat)) (read : List Byte) : EngCmd :=
  { c with
    taken := i :: c.taken, lines := c.lines ++ lines
    loaded := if c.kind = .decLoad then c.loaded ++ [(i, leLine read)] else c.loaded }

theorem engCommand_done {t : State} {lines : List (Nat × Nat)} {read : List Byte}
    (ht : s.transfer c.owner (c.xfer (s.ctx k) i) (.command k i) c.num [] none 4 = .done t lines read) :
    s.engCommand k i (.move none) = t.setCtx k { s.ctx k with
      cq := accessTaken c i lines read :: rest, wrote := (s.ctx k).wrote ++ lines.map fun l => (c.num, l.1, l.2) } := by
  simp only [engCommand, hq, attempt, ht]
  exact if_neg (by simp [hrun, hleft, hi, htakes, hgate])

theorem engCommand_translated {f : Flight} (hf : s.flightOf c.owner (c.xfer (s.ctx k) i) (.command k i) c.num 4 = .ok f) :
    s.engCommand k i .translate = s.addFlight f := by
  simp only [engCommand, hq, attempt, translateOnly, hf]
  exact if_neg (by simp [hrun, hleft, hi, htakes, hgate])

end Engines

/-- The counter move of an operation whose elements are all taken, its rows reached (R85, R186). -/
theorem counterStep_reached {s : State} {id : Nat} {o : OneSided} (ho : (s.oneSided.find? (·.id == id)) = some o)
    (hall : ∀ i < o.n, i ∈ o.taken) (hfree : s.outsideHeld o.counter = false) {w t : State}
    (hw : s.reachAll (opParty o.id) false ((o.failed.filter (·.2 == 0x40)).flatMap fun f => s.poisonReads o f.1) = .ok w)
    (ht : w.reach (opParty o.id) o.counter true = .ok t) : s.counterStep id = t.endOneSided o := by
  have hany : ((List.range o.n).any fun i => ! o.taken.contains i) = false := by simpa using hall
  simp only [counterStep, ho, hany, hfree, hw, ht]
  rfl

section Parts
variable {s : State} {n : Nat} {p : HashPart} (hp : s.partsNow.parts[n]? = some p) (hnext : s.partsNow.partNext p = true)
include hp hnext

theorem happly_joins {th : Thread} (hj : s.partsNow.joins? (s.partsNow.partRows p).2 (s.partsNow.partRows p).1 none = some th) :
    s.happly (fun s => s.parts[n]?) none = s.partsNow.joinOnce th (.part p.hash.desc p.usn p.table) := by
  simp only [happly, hp, hj]
  exact if_neg (by simp [hnext])

theorem happly_applies (hj : s.partsNow.joins? (s.partsNow.partRows p).2 (s.partsNow.partRows p).1 none = none) (hsplit : p.split = none)
    {t u : State} (ht : s.partsNow.partsReach (hashParty p.hash.desc) false (s.partsNow.partRows p).1 = .ok t)
    (hu : t.partsReach (hashParty p.hash.desc) true (s.partsNow.partRows p).2 = .ok u) :
    s.happly (fun s => s.parts[n]?) none =
      ((u.withdraw (.part p.hash.desc p.usn p.table)).applyPart p).noteApplied p := by
  simp only [happly, hp, hj, hsplit, ht, hu]
  exact if_neg (by simp [hnext])

end Parts

/-- A part that meets no uncorrectable error in the descriptor writes what it has to (R302). -/
theorem applyPart_correctable {s : State} {p : HashPart} (h : s.descMeets p ((s.applyUpdate p).finishPart p) = false) :
    s.applyPart p = (s.applyUpdate p).finishPart p := if_neg (by simp [h])

section Walks
variable {s : State} {c : Nat} {q : WalkReq} {rest : List WalkReq} {u : Thread} (hcur : (s.skink c).cur = none)
  (hq : (s.skink c).queue = q :: rest) (hon : s.islandOn (2 * (c / 80) + 1) = true) (hu : s.threadAt? q.wrow = some u)
include hcur hq hon hu

theorem walkBegin_noRequester (hr : s.thread? q.thread = none) : s.walkBegin c = s.endWalk (s.skink c) q rest .protect := by
  simp only [walkBegin, hcur, hq, hu, hr]
  exact if_neg (by simp [hon])

theorem walkBegin_stopped {r : Thread} (hr : s.thread? q.thread = some r) (hc : u.closing = none) (hcode : s.code u.row = 1)
    (htag : s.tagOf u.row = .fixed) (hhalt : s.clhalt.contains c = false) : s.walkBegin c = s.beginWalk c (s.skink c) q rest u r := by
  simp only [walkBegin, hcur, hq, hu, hr, hc, hcode, htag, hhalt, hon]
  rfl

end Walks

theorem walkerWatchdog_over {s : State} {c : Nat} {q : WalkReq} {u : Thread} (hcur : (s.skink c).cur = some q) (hi : 1536 ≤ (s.skink c).issues)
    (hu : s.threadAt? q.wrow = some u) (hc : u.closing = none) :
    s.walkerWatchdog c = (s.takeFault u.id .watchdog 0).progressClose u.id false := by
  simp only [walkerWatchdog, hcur, hu, hc]
  exact if_neg (by omega)

end Machine.State

/-- COMPLETE of a head command whose accesses are all taken (R84, R325). -/
theorem does_complete {s : State} {k : Nat} {c : EngCmd} {rest : List EngCmd} (h : s.inp = .unit k) (hq : (s.ctx k).cq = c :: rest)
    (hrun : (s.ctx k).halt = false) (heng : s.engineRuns k = true) (hall : ∀ i < c.accesses, i ∈ c.taken) :
    Does .complete s (s.setCtx k (if c.kind = .decLoad then
      { s.ctx k with tl := (s.ctx k).tl + 1, cq := rest, table := c.decoded, k := c.k, w := c.w }
      else { s.ctx k with tl := (s.ctx k).tl + 1, cq := rest })) := by
  show execComplete s = _
  simp only [execComplete, h, hq]
  rw [if_neg (by simpa [hrun, heng] using hall)]

open State in
/-- Settles O57: the moves one after another, each by the lemma of its case. -/
theorem movesTakeEffect : Obligations.MovesTakeEffect := by
  intro s
  refine ⟨fun id th e rest h hth hsb => ?drain, fun id line v h hv => ?refresh, fun id th h hth => ⟨fun hs hopen ht => ?ship,
    fun e rest hopen ht hq hs => ?head, fun m rest hm hc => ?matrix⟩, fun id va th t f h hth hopen hc hpc hdue hnew hf => ?fill,
    fun id slot ahead th dp t h hth hopen hdepth hdone hdp ho hr ht => ?prefetch,
    fun k c rest h hq hrun heng hall => does_complete h hq hrun heng hall,
    fun k i c rest t lines read h hq hrun hleft hi htakes hgate ht => does_engaccMove h (engCommand_done hq hrun hleft hi htakes hgate ht),
    fun k i c rest f h hq hrun hleft hi htakes hgate hf => does_engaccTranslate h (engCommand_translated hq hrun hleft hi htakes hgate hf),
    fun id o w t h ho hall hfree hw ht => does_counterMove h (counterStep_reached ho hall hfree hw ht), fun n p h hp hnext => ?part,
    fun c q rest u h hq hcur hon hu hr => does_walkBegin h (walkBegin_noRequester hcur hq hon hu hr),
    fun c q rest u r h hq hcur hon hu hr hc hcode htag hhalt => does_walkBegin h (walkBegin_stopped hcur hq hon hu hr hc hcode htag hhalt),
    fun c q u h hcur hi hu hc => does_walkerWatchdog h (walkerWatchdog_over hcur hi hu hc)⟩
  case drain =>
    intro out landed
    refine ⟨fun m hr => does_drain h (drain_remote hth hsb hr),
      fun row t hr hm hc => does_drain h (drain_group hth hsb hr hm hc), fun hr hm => ?_⟩
    have hd {t : State} (ht : s.drainTo th e = t) : Does .drain s (out t) :=
      does_drain h ((drain_plain hth hsb hr hm).trans (congrArg (progressClose · id false) ht))
    exact ⟨fun hc => hd (drainTo_control hc), fun u hc ho hne => hd ((drainTo_openRow hc ho).trans (if_pos hne)),
      fun u hc ho heq => hd ((drainTo_openRow hc ho).trans (if_neg (not_not.2 heq))), fun t hc ho ht => hd (drainTo_reached hc ho ht)⟩
  case refresh =>
    have hd {t : State} := does_refresh (t := t) h
    exact ⟨fun hz => hd ((refresh_held hv).trans (if_pos hz)), fun hz => hd ((refresh_held hv).trans (if_neg hz))⟩
  case ship => exact does_apply h (apply_ship hth (Option.isSome_iff_ne_none.1 hopen) hs ht)
  case head => exact does_apply h (apply_head hth (Option.isSome_iff_ne_none.1 hopen) ht hq hs)
  case matrix => exact does_matrixArithComplete h (matrixComplete_clocked hth hm hc)
  case fill => exact does_fetchFill h (fetchFill_due hth (Option.isSome_iff_ne_none.1 hopen) hc hpc hdue hnew hf)
  case prefetch => exact does_streamPrefetch h (streamPrefetch_closedRow hth (Option.isSome_iff_ne_none.1 hopen) hdepth hdone hdp ho hr ht)
  case part =>
    refine ⟨fun th hj => does_happly h (happly_joins hp hnext hj), fun t u hj hsplit ht hu hd => ?_⟩
    exact does_happly h ((happly_applies hp hnext hj hsplit ht hu).trans (congrArg (noteApplied · p) (applyPart_correctable hd)))

end Sys2Proof
end

section
/-!
PROOFS. That a step keeps the memory in its canonical form (R67, R68): what it means for the results of the model's functions, and the rules by
which their proofs go along their bodies.
-/
namespace Sys2Proof
open Sys2Proof.Machine

/-- A reached or a waiting row leaves a safe state. -/
def SafeReach : Reach → Prop
  | .ok s | .wait s _ => SafeState s

/-- A transfer leaves a safe state, whatever it comes to. -/
def SafeXfer : State.XferResult → Prop
  | .wait s | .fail s _ _ | .done s _ _ | .remote s _ _ _ _ => SafeState s

/-- A plan that stops a transfer leaves a safe state. -/
def SafePlan : State.Plan → Prop
  | .stop r => SafeXfer r
  | _ => True

/-- A flight that is not made leaves a safe state. -/
def SafeFlight : Except State.XferResult Flight → Prop
  | .error r => SafeXfer r
  | .ok _ => True

/-- A fill of a fetch line leaves a safe state. -/
def SafeFilled : Filled → Prop
  | .line s _ | .wait s _ _ _ | .none s => SafeState s

/-- An issue is prepared in a safe state. -/
def SafeIssued : Issued → Prop
  | .done s | .run _ s => SafeState s

/-- A step that goes on leaves a safe state. -/
def SafeOutcome : Host.Outcome State Fault Refusal → Prop
  | .next s => SafeState s
  | _ => True

def SafeOption : Option State → Prop
  | some s => SafeState s
  | none => True

def SafePair {β : Type} (p : State × β) : Prop := SafeState p.1

def SafeFirst {β : Type} : Option (State × β) → Prop
  | some p => SafeState p.1
  | none => True

def SafeSecond {β : Type} : Option (β × State) → Prop
  | some p => SafeState p.2
  | none => True

/-- What a stall has asked for is done in a safe state. -/
def SafeStop : Stop → Prop
  | .hold _ _ _ asks _ => ∀ s, SafeState s → SafeState (asks s)
  | _ => True

def SafeResult {α : Type} : Except Stop (α × State) → Prop
  | .ok r => SafeState r.2
  | .error e => SafeStop e

/-- A part of an instruction keeps a safe state safe. -/
def SafeExec {α : Type} (m : Exec α) : Prop := ∀ s, SafeState s → SafeResult (m.run s)

section Results
variable {s t : State}

theorem SafeReach.ok {r : Reach} (h : SafeReach r) (e : r = .ok t) : SafeState t := by subst e; exact h
theorem SafeReach.wait {r : Reach} {n : Nat} (h : SafeReach r) (e : r = .wait t n) : SafeState t := by subst e; exact h
theorem SafeXfer.wait {r : State.XferResult} (h : SafeXfer r) (e : r = .wait t) : SafeState t := by subst e; exact h
theorem SafeXfer.fail {r : State.XferResult} {c va} (h : SafeXfer r) (e : r = .fail t c va) : SafeState t := by subst e; exact h
theorem SafeXfer.done {r : State.XferResult} {ls bs} (h : SafeXfer r) (e : r = .done t ls bs) : SafeState t := by subst e; exact h
theorem SafeXfer.remote {r : State.XferResult} {m w va bs} (h : SafeXfer r) (e : r = .remote t m w va bs) : SafeState t := by subst e; exact h
theorem SafePlan.stop {p : State.Plan} {r} (h : SafePlan p) (e : p = .stop r) : SafeXfer r := by subst e; exact h
theorem SafeFlight.error {f : Except State.XferResult Flight} {r} (h : SafeFlight f) (e : f = .error r) : SafeXfer r := by subst e; exact h
theorem SafeFilled.line {f : Filled} {l} (h : SafeFilled f) (e : f = .line t l) : SafeState t := by subst e; exact h
theorem SafeFilled.wait {f : Filled} {wk wa c} (h : SafeFilled f) (e : f = .wait t wk wa c) : SafeState t := by subst e; exact h
theorem SafeFilled.none {f : Filled} (h : SafeFilled f) (e : f = .none t) : SafeState t := by subst e; exact h
theorem SafeIssued.done {i : Issued} (h : SafeIssued i) (e : i = .done t) : SafeState t := by subst e; exact h
theorem SafeIssued.run {i : Issued} {j} (h : SafeIssued i) (e : i = .run j t) : SafeState t := by subst e; exact h
theorem SafeOutcome.next {o : Host.Outcome State Fault Refusal} (h : SafeOutcome o) (e : o = .next t) : SafeState t := by subst e; exact h
theorem SafeOption.some {o : Option State} (h : SafeOption o) (e : o = some t) : SafeState t := by subst e; exact h
theorem SafePair.fst {β : Type} {p : State × β} {b : β} (h : SafePair p) (e : p = (t, b)) : SafeState t := by subst e; exact h
theorem SafePair.of_eq {β : Type} {p : State × β} {b : β} (e : p = (t, b)) (h : SafePair p) : SafeState t := h.fst e
theorem SafePair.state {β : Type} {p : State × β} (h : SafePair p) : SafeState p.1 := h
theorem SafeFirst.some {β : Type} {o : Option (State × β)} {b : β} (h : SafeFirst o) (e : o = some (t, b)) : SafeState t := by
  subst e; exact h
theorem SafeSecond.some {β : Type} {o : Option (β × State)} {b : β} (h : SafeSecond o) (e : o = some (b, t)) : SafeState t := by
  subst e; exact h

theorem SafeOption.getD {o : Option State} (h : SafeOption o) (hs : SafeState s) : SafeState (o.getD s) := by
  cases o with
  | none => exact hs
  | some t => exact h

theorem SafeOption.map {β : Type} {f : β → State} (h : ∀ b, SafeState (f b)) (o : Option β) : SafeOption (o.map f) := by
  cases o with
  | none => trivial
  | some b => exact h b

theorem SafeOption.mapState {o : Option State} {f : State → State} (h : SafeOption o) (hf : ∀ s, SafeState s → SafeState (f s)) :
    SafeOption (o.map f) := by
  cases o with
  | none => trivial
  | some t => exact hf t h

section Branch
variable {c : Prop} [Decidable c]

theorem SafeState.ite (ht : SafeState t) (hs : SafeState s) : SafeState (if c then t else s) := by split <;> assumption
theorem SafeReach.ite {r q : Reach} (hr : SafeReach r) (hq : SafeReach q) : SafeReach (if c then r else q) := by split <;> assumption
theorem SafeXfer.ite {r q : State.XferResult} (hr : SafeXfer r) (hq : SafeXfer q) : SafeXfer (if c then r else q) := by split <;> assumption
theorem SafeFlight.ite {r q : Except State.XferResult Flight} (hr : SafeFlight r) (hq : SafeFlight q) : SafeFlight (if c then r else q) := by
  split <;> assumption
theorem SafeFilled.ite {r q : Filled} (hr : SafeFilled r) (hq : SafeFilled q) : SafeFilled (if c then r else q) := by split <;> assumption
theorem SafeIssued.ite {r q : Issued} (hr : SafeIssued r) (hq : SafeIssued q) : SafeIssued (if c then r else q) := by split <;> assumption
theorem SafeOutcome.ite {r q : Host.Outcome State Fault Refusal} (hr : SafeOutcome r) (hq : SafeOutcome q) :
    SafeOutcome (if c then r else q) := by
  split <;> assumption
theorem SafeOption.ite {r q : Option State} (hr : SafeOption r) (hq : SafeOption q) : SafeOption (if c then r else q) := by
  split <;> assumption
theorem SafePair.ite {β : Type} {r q : State × β} (hr : SafePair r) (hq : SafePair q) : SafePair (if c then r else q) := by
  split <;> assumption
theorem SafeFirst.ite {β : Type} {r q : Option (State × β)} (hr : SafeFirst r) (hq : SafeFirst q) : SafeFirst (if c then r else q) := by
  split <;> assumption
theorem SafeSecond.ite {β : Type} {r q : Option (β × State)} (hr : SafeSecond r) (hq : SafeSecond q) : SafeSecond (if c then r else q) := by
  split <;> assumption
theorem SafeExec.ite {α : Type} {m k : Exec α} (hm : SafeExec m) (hk : SafeExec k) : SafeExec (if c then m else k) := by split <;> assumption

end Branch

theorem SafeState.foldl {β : Type} {f : State → β → State} (hs : SafeState s) (hf : ∀ s x, SafeState s → SafeState (f s x)) {l : List β} :
    SafeState (l.foldl f s) := by
  induction l generalizing s with
  | nil => exact hs
  | cons x l ih => exact ih (hf s x hs)

theorem SafePair.foldl {β γ : Type} {f : State × γ → β → State × γ} {p : State × γ} (hp : SafePair p)
    (hf : ∀ p x, SafePair p → SafePair (f p x)) {l : List β} : SafePair (l.foldl f p) := by
  induction l generalizing p with
  | nil => exact hp
  | cons x l ih => exact ih (hf p x hp)

theorem SafeState.setBytes (hs : SafeState s) {a : Nat} {bs : List Byte} (h : t.mem = s.mem.setBytes a bs) : SafeState t := by
  rw [SafeState, h]
  exact Memory.setBytes_wf _ _ _ hs

/-- Cells left out leave the canonical form. -/
theorem SafeState.filter (hs : SafeState s) {p : Host.Cell → Bool} (h : t.mem = s.mem.filter p) : SafeState t := by
  rw [SafeState, Memory.wf_iff] at hs ⊢
  rw [h]
  exact ⟨hs.1.filter _, fun c hc => hs.2 c (List.mem_of_mem_filter hc)⟩

end Results

namespace SafeExec
variable {α β : Type}

theorem bind {m : Exec α} {k : α → Exec β} (hm : SafeExec m) (hk : ∀ a, SafeExec (k a)) : SafeExec (m >>= k) := by
  intro s hs
  have h := hm s hs
  rw [StateT.run_bind]
  cases hr : m.run s with
  | error e => rw [hr] at h; exact h
  | ok r => rw [hr] at h; exact hk r.1 r.2 h

theorem pure {a : α} : SafeExec (Pure.pure a : Exec α) := fun _ hs => hs

/-- What follows a reading of the state is looked at in that state. -/
theorem get {k : State → Exec β} (hk : ∀ s, SafeState s → SafeExec (k s)) : SafeExec (MonadState.get >>= k) := fun s hs => hk s hs s hs

theorem set {t : State} (ht : SafeState t) : SafeExec (MonadStateOf.set t : Exec PUnit) := fun _ _ => ht

theorem modify {f : State → State} (hf : ∀ s, SafeState s → SafeState (f s)) : SafeExec (modify f : Exec PUnit) := fun s hs => hf s hs

theorem throw {e : Stop} (he : SafeStop e) : SafeExec (MonadExcept.throw e : Exec α) := fun _ _ => he

theorem guard {c : Prop} [Decidable c] {m : Exec PUnit} {k : PUnit → Exec β} (hm : SafeExec m) (hk : ∀ u, SafeExec (k u)) :
    SafeExec (if c then m >>= k else k ⟨⟩) := .ite (hm.bind hk) (hk _)

theorem mapM {f : α → Exec β} (hf : ∀ a, SafeExec (f a)) {l : List α} : SafeExec (l.mapM f) := by
  induction l with
  | nil => exact pure
  | cons a l ih =>
    rw [List.mapM_cons]
    exact (hf a).bind fun _ => ih.bind fun _ => pure

theorem forIn {f : α → β → Exec (ForInStep β)} (hf : ∀ a b, SafeExec (f a b)) {l : List α} {b : β} : SafeExec (ForIn.forIn l b f) := by
  induction l generalizing b with
  | nil => exact pure
  | cons a l ih =>
    rw [List.forIn_cons]
    refine (hf a b).bind fun r => ?_
    cases r with
    | done b => exact pure
    | yield b => exact ih

theorem filterMapM {f : α → Exec (Option β)} (hf : ∀ a, SafeExec (f a)) {l : List α} : SafeExec (l.filterMapM f) := by
  induction l with
  | nil => exact pure
  | cons a l ih =>
    rw [List.filterMapM_cons]
    refine (hf a).bind fun r => ?_
    cases r with
    | none => exact ih
    | some b => exact ih.bind fun _ => pure

theorem caught {m : Exec α} (hm : SafeExec m) : SafeExec (Exec.caught m) := by
  intro s hs
  have h := hm s hs
  show SafeResult (Exec.caught m s)
  unfold Exec.caught
  split
  · exact hs
  · next e he => rw [StateT.run, he] at h; exact h
  · next he => rw [StateT.run, he] at h; exact h

theorem mapFault {m : Exec α} {g : Cause → Word → List Note → Stop} (hm : SafeExec m) (hg : ∀ c d n, SafeStop (g c d n)) :
    SafeExec (Exec.mapFault m g) := by
  intro s hs
  have h := hm s hs
  show SafeResult (Exec.mapFault m g s)
  unfold Exec.mapFault
  split
  · exact hg _ _ _
  · exact h

theorem hold {wk wa : Nat} {c : WaitCond} {f : State → State} (hf : ∀ s, SafeState s → SafeState (f s)) :
    SafeExec (Exec.hold wk wa c f : Exec α) := fun _ _ => hf

end SafeExec

end Sys2Proof
end

section
/-!
PROOFS. That a step keeps the memory in its canonical form (R67, R68): a lemma for each function of the model that a step calls and that gives a
state, in the order of the model's files, and the statement about the step. A lemma's proof goes along the function's body.
-/
namespace Sys2Proof
open Sys2Proof.Machine
variable {s t : State}

/-! ### The functions of Machine/Rows.lean -/

namespace SafeState

theorem updThread (hs : SafeState s) {id f} : SafeState (s.updThread id f) := hs
theorem logRec (hs : SafeState s) {k body} : SafeState (s.logRec k body) := hs
theorem setTenant (hs : SafeState s) {t} : SafeState (s.setTenant t) := hs

theorem raise (hs : SafeState s) {tenant v} : SafeState (s.raise tenant v) := by
  unfold State.raise
  split <;> exact hs

theorem newVersion (hs : SafeState s) {line commit} : SafeState (s.newVersion line commit) := .ite hs hs
theorem pokeAll (hs : SafeState s) {a bs} : SafeState (s.pokeAll a bs) := hs.foldl fun _ _ hs => hs.poke _ _
theorem setTag (hs : SafeState s) {row t} : SafeState (s.setTag row t) := hs
theorem advanceView (hs : SafeState s) {id line v} : SafeState (s.advanceView id line v) := hs.updThread
theorem viewNewest (hs : SafeState s) {id line} : SafeState (s.viewNewest id line) := hs.advanceView

theorem refresh (hs : SafeState s) {id line v} : SafeState (s.refresh id line v) :=
  .ite hs (.ite hs.advanceView (hs.advanceView.foldl fun _ _ hs => hs.advanceView))

theorem noteWrote (hs : SafeState s) {id line} : SafeState (s.noteWrote id line) := hs.updThread
theorem listGran (hs : SafeState s) {k g} : SafeState (s.listGran k g) := hs
theorem setOneGran (hs : SafeState s) {k g} : SafeState (s.setOneGran k g) := .ite hs.listGran hs
theorem setGran (hs : SafeState s) {a n g} : SafeState (s.setGran a n g) := hs.foldl fun _ _ hs => hs.setOneGran

theorem strike (hs : SafeState s) {a} : SafeState (s.strike a) := by
  unfold State.strike
  refine .ite hs.listGran ?_
  split <;> exact hs

theorem setCtrl (hs : SafeState s) {row k lo n v} : SafeState (s.setCtrl row k lo n v) := hs.pokeWord _ _
theorem setX (hs : SafeState s) {row n w} : SafeState (s.setX row n w) := .ite hs (hs.pokeWord _ _)
theorem setV (hs : SafeState s) {row n v} : SafeState (s.setV row n v) := hs.poke _ _
theorem setP (hs : SafeState s) {row n b} : SafeState (s.setP row n b) := .ite hs hs.setCtrl
theorem enqueue (hs : SafeState s) {id e} : SafeState (s.enqueue id e) := hs.updThread
theorem boundView (hs : SafeState s) {th line} : SafeState (s.boundView th line) := .ite hs.refresh hs

end SafeState

/-! ### The functions of Machine/Access.lean -/

namespace SafeState

theorem countWindow (hs : SafeState s) {tenant dp write} : SafeState (s.countWindow tenant dp write) := by
  unfold State.countWindow
  split
  · exact hs
  · split
    · exact hs
    · exact .ite hs hs.setTenant

theorem useBankWindow (hs : SafeState s) {b} : SafeState (s.useBankWindow b) := hs

theorem noteBankWindow (hs : SafeState s) {th va dp} : SafeState (s.noteBankWindow th va dp) := by
  unfold State.noteBankWindow
  refine .ite hs ?_
  dsimp only
  split
  · exact hs.useBankWindow
  · split
    · exact hs
    · split
      · exact hs
      · split
        · exact .ite hs.useBankWindow hs
        · exact hs

theorem postMiss (hs : SafeState s) {th va k prefetch} : SafeState (s.postMiss th va k prefetch) := by
  unfold State.postMiss
  split
  · exact hs
  · exact .ite hs hs

theorem dropAnswers (hs : SafeState s) {id} : SafeState (s.dropAnswers id) := hs

end SafeState

/-! ### The functions of Machine/Banks.lean -/

namespace SafeState

theorem setSub (hs : SafeState s) {b} : SafeState (s.setSub b) := hs
theorem setBuf (hs : SafeState s) {sub b} : SafeState (s.setBuf sub b) := hs.setSub

theorem updStack (hs : SafeState s) {stack f} : SafeState (s.updStack stack f) := by
  unfold State.updStack
  split <;> exact hs

theorem charge (hs : SafeState s) {stack pch} : SafeState (s.charge stack pch) := hs.updStack
theorem claim (hs : SafeState s) {sub who} : SafeState (s.claim sub who) := .ite hs hs.setSub
theorem dropClaims (hs : SafeState s) {who} : SafeState (s.dropClaims who) := hs
theorem unclaim (hs : SafeState s) {sub who} : SafeState (s.unclaim sub who) := hs.setSub
theorem chargeGrant (hs : SafeState s) {l} : SafeState (s.chargeGrant l) := hs.charge.updStack
theorem awaitGrant (hs : SafeState s) {l} : SafeState (s.awaitGrant l) := hs.updStack
theorem activate (hs : SafeState s) {l dest who} : SafeReach (s.activate l dest who) := .ite hs.chargeGrant.setSub hs.awaitGrant
theorem swap (hs : SafeState s) {l who} : SafeReach (s.swap l who) := .ite (.ite hs.chargeGrant.charge.unclaim hs.awaitGrant) hs.awaitGrant
theorem extraActivate (hs : SafeState s) {l} : SafeReach (s.extraActivate l) := .ite hs.chargeGrant hs.awaitGrant
theorem activateInTurn (hs : SafeState s) {l dest who} : SafeReach (s.activateInTurn l dest who) := .ite hs.activate hs.claim
theorem setDpit (hs : SafeState s) {d} : SafeState (s.setDpit d) := hs
theorem awaitDpit (hs : SafeState s) {d who} : SafeState (s.awaitDpit d who) := .ite hs.setDpit hs.setDpit
theorem leaveDpit (hs : SafeState s) {page who} : SafeState (s.leaveDpit page who) := .ite hs.setDpit hs

theorem dpitWrite (hs : SafeState s) {who page} : SafePair (s.dpitWrite who page) := by
  unfold State.dpitWrite
  dsimp only
  split
  · exact .ite hs hs.awaitDpit
  · exact .ite hs hs.awaitDpit
  · exact hs.setDpit
  · exact hs.awaitDpit
  · exact hs.awaitDpit

theorem notePage (hs : SafeState s) {page stack write} : SafeState (s.notePage page stack write) := .ite hs hs

theorem reachRow (hs : SafeState s) {l who} : SafeReach (s.reachRow l who) := by
  unfold State.reachRow
  refine .ite (.ite hs hs.setSub) ?_
  split
  · exact hs.activateInTurn
  · exact hs.activateInTurn
  · exact .ite hs.swap hs.claim
  · exact .ite hs.swap hs.claim

theorem reach (hs : SafeState s) {who a write} : SafeReach (s.reach who a write) := by
  unfold State.reach
  split
  · extract_lets stack page s₁
    have h₁ : SafeState s₁ := hs.notePage
    clear_value s₁
    split
    next s₂ go e =>
      have h₂ : SafeState s₂ := SafePair.of_eq e (.ite h₁.dpitWrite h₁)
      split
      · exact .ite h₂.leaveDpit h₂
      · refine .ite h₂ ?_
        split
        · exact h₂.reachRow.wait ‹_›
        · exact SafeState.ite (h₂.reachRow.ok ‹_›).leaveDpit (h₂.reachRow.ok ‹_›)
  · exact hs

theorem reachAll (hs : SafeState s) {who write as} : SafeReach (s.reachAll who write as) := by
  induction as generalizing s with
  | nil => exact hs
  | cons a as ih =>
    unfold State.reachAll
    split
    · exact hs.reach.wait ‹_›
    · exact ih (hs.reach.ok ‹_›)

theorem reachWalk (hs : SafeState s) {who tenant asid va} : SafeReach (s.reachWalk who tenant asid va) := hs.reachAll
theorem reachPosting (hs : SafeState s) {t va} : SafeReach (s.reachPosting t va) := hs.reachWalk
theorem setHold (hs : SafeState s) {row k st rown} : SafeState (s.setHold row k st rown) := .ite (hs.pokeWord _ _) ((hs.pokeWord _ _).pokeWord _ _)

theorem releaseHolds (hs : SafeState s) {th kill} : SafeState (s.releaseHolds th kill) :=
  .ite hs (hs.foldl fun _ _ hs => .ite hs (.ite (SafeState.ite hs.setBuf hs).setHold (.ite (SafeState.ite hs.setBuf hs).setHold
      (.ite hs.setBuf hs))))

theorem clearGroup (hs : SafeState s) {th} : SafeState (s.clearGroup th) := SafeState.pokeWord (by exact hs) _ _
theorem abortGroup (hs : SafeState s) {th} : SafeState (s.abortGroup th) := .ite hs.clearGroup hs

theorem reserveShadow (hs : SafeState s) {th row} : SafeOption (s.reserveShadow th row) := by
  unfold State.reserveShadow
  refine .ite hs ?_
  split
  · trivial
  · exact .ite (SafeState.pokeWord (by exact hs) _ _) trivial

theorem shadowWrite (hs : SafeState s) {id dp bs} : SafeState (s.shadowWrite id dp bs) := hs

theorem commitGroup (hs : SafeState s) {th} : SafeState (s.commitGroup th) := by
  refine SafeState.foldl (by exact hs) fun _ _ hs => hs.foldl fun _ _ hs => SafeState.noteWrote (SafeState.viewNewest ?_)
  exact hs.newVersion.setBytes rfl

theorem doomGroups (hs : SafeState s) : SafeState s.doomGroups := by
  unfold State.doomGroups
  refine hs.foldl fun _ _ hs => ?_
  refine .ite ?_ hs
  split
  · exact hs
  · exact hs.pokeWord _ _

end SafeState

/-! ### The functions of Machine/Accs.lean -/

namespace SafeState

theorem setAccStatus (hs : SafeState s) {row k st inc} : SafeState (s.setAccStatus row k st inc) := hs.pokeWord _ _
theorem dropAccs (hs : SafeState s) {th} : SafeState (s.dropAccs th) := (hs.pokeWord _ _).updThread
theorem markSaved (hs : SafeState s) {th} : SafeState (s.markSaved th) := (hs.pokeWord _ _).updThread

end SafeState

/-! ### The functions of Machine/Ops.lean -/

namespace SafeState

theorem landHub (hs : SafeState s) {a bs fill} : SafeState (s.landHub a bs fill) := .ite (hs.poke _ _).setGran (hs.poke _ _)

theorem hubPart (hs : SafeState s) {a bs fill} : SafeState (s.hubPart a bs fill) := by
  unfold State.hubPart
  refine .ite hs ?_
  split
  · exact hs.enqueue
  · split
    · exact (hs.reach.ok ‹_›).landHub
    · next h => exact (hs.reach.wait h).of_mem rfl

theorem hubPoke (hs : SafeState s) {a bs fill} : SafeState (s.hubPoke a bs fill) := hs.foldl fun _ _ hs => hs.hubPart

theorem ringWrite (hs : SafeState s) {tenant va bs} : SafeState (s.ringWrite tenant va bs) := by
  unfold State.ringWrite
  refine .ite hs ?_
  split
  · exact hs
  · split
    · next h => exact (hs.reachPosting.wait h).of_mem rfl
    · split
      · exact (hs.reachPosting.ok ‹_›).hubPoke
      · exact hs.reachPosting.ok ‹_›

theorem flushRings (hs : SafeState s) : SafeState s.flushRings := SafeState.foldl (by exact hs) fun _ _ hs => hs.ringWrite
theorem newViolation (hs : SafeState s) {t key body} : SafeState (s.newViolation t key body) := hs.setTenant.logRec.ringWrite

theorem violate (hs : SafeState s) {logTenant kind addr row srcTenant smod host} :
    SafeState (s.violate logTenant kind addr row srcTenant smod host) := by
  unfold State.violate
  dsimp only
  split
  · exact hs.logRec
  · split
    · exact .ite hs.newViolation (SafeState.ringWrite (by exact hs))
    · exact hs.newViolation

theorem violateBy (hs : SafeState s) {th kind addr} : SafeState (s.violateBy th kind addr) := hs.violate
theorem setWord0 (hs : SafeState s) {row bits} : SafeState (s.setWord0 row bits) := hs.pokeWord _ _
theorem beginClose (hs : SafeState s) {id bits} : SafeState (s.beginClose id bits) := hs.updThread

theorem setLogical (hs : SafeState s) {id bits} : SafeState (s.setLogical id bits) := by
  unfold State.setLogical
  split
  · exact hs
  · exact .ite hs.updThread.beginClose hs.updThread.setWord0

theorem clearProgress (hs : SafeState s) {row} : SafeState (s.clearProgress row) := hs.setCtrl.setCtrl
theorem cancelSpawn (hs : SafeState s) {id} : SafeState (s.cancelSpawn id) := hs.updThread
theorem dropWalk (hs : SafeState s) {id} : SafeState (s.dropWalk id) := hs

theorem takePc (hs : SafeState s) {id checked} : SafeState (s.takePc id checked) := by
  unfold State.takePc
  split
  · exact hs
  · exact hs.dropWalk.updThread

theorem endWait (hs : SafeState s) {id} : SafeState (s.endWait id) := hs.updThread.dropClaims
theorem killState (hs : SafeState s) {th} : SafeState (s.killState th) := hs.dropWalk.abortGroup.releaseHolds.dropAccs
theorem rowToData (hs : SafeState s) {th} : SafeState (s.rowToData th) := (hs.setTag (row := th.row) (t := .data)).of_mem rfl

theorem cmdStart (hs : SafeState s) {th} : SafeState (s.cmdStart th) := by
  unfold State.cmdStart
  split
  · exact (hs.abortGroup.clearProgress.pokeWord _ _).cancelSpawn.takePc.endWait.setLogical
  · exact (hs.abortGroup.clearProgress.pokeWord _ _).cancelSpawn.takePc.endWait.setLogical
  · exact hs.cancelSpawn

theorem cmdStop (hs : SafeState s) {th} : SafeState (s.cmdStop th) := by
  unfold State.cmdStop
  split
  · exact hs.dropClaims.setLogical
  · exact hs.dropClaims.setLogical
  · exact hs.clearProgress.endWait.setLogical
  · exact hs.setWord0.endWait
  · exact hs

theorem cmdRedirect (hs : SafeState s) {th} : SafeState (s.cmdRedirect th) := by
  unfold State.cmdRedirect
  split
  · exact (SafeState.ite hs.abortGroup.clearProgress.setCtrl hs.abortGroup.clearProgress).cancelSpawn.takePc.endWait.setLogical
  · exact (SafeState.ite hs.abortGroup.clearProgress.setCtrl hs.abortGroup.clearProgress).cancelSpawn.takePc.endWait.setLogical
  · exact (SafeState.ite hs.abortGroup.clearProgress.setCtrl hs.abortGroup.clearProgress).cancelSpawn.takePc.endWait.setLogical
  · exact (SafeState.ite hs.abortGroup.clearProgress.setCtrl hs.abortGroup.clearProgress).cancelSpawn.takePc.endWait.setLogical
  · exact hs.abortGroup.clearProgress.cancelSpawn.takePc.endWait
  · exact hs

theorem cmdResume (hs : SafeState s) {th} : SafeState (s.cmdResume th) := by
  unfold State.cmdResume
  split
  · exact .ite hs.setLogical (SafeState.ite hs.dropWalk hs).updThread.setLogical
  · exact hs.updThread.setLogical
  · exact hs

theorem cmdKill (hs : SafeState s) {th} : SafeState (s.cmdKill th) := by
  unfold State.cmdKill
  split
  · exact .ite (.ite hs.setTag.updThread hs.rowToData) hs
  · exact hs.cancelSpawn.killState.updThread.endWait.setLogical

theorem cmdStep (hs : SafeState s) {th} : SafeState (s.cmdStep th) := by
  unfold State.cmdStep
  split
  · exact .ite hs.setLogical (SafeState.ite hs.takePc hs.updThread).setCtrl.setLogical
  · exact hs

theorem takeCommand (hs : SafeState s) {id cmd} : SafeState (s.takeCommand id cmd) := by
  unfold State.takeCommand
  split
  · exact hs
  · dsimp only
    split
    · exact (SafeState.ite hs.setCtrl hs).cmdStart
    · exact (SafeState.ite hs.setCtrl hs).cmdStop
    · exact (SafeState.ite hs.setCtrl hs).cmdRedirect
    · exact (SafeState.ite hs.setCtrl hs).cmdResume
    · exact (SafeState.ite hs.setCtrl hs).cmdKill
    · exact (SafeState.ite hs.setCtrl hs).cmdStep
    · exact .ite hs.setCtrl hs

theorem command (hs : SafeState s) {th src cmd mark} : SafeState (s.command th src cmd mark) := by
  unfold State.command
  refine .ite hs ?_
  refine .ite ?_ (.ite hs (.ite hs.updThread (.ite (.ite hs.setCtrl.takeCommand hs.setCtrl) hs.takeCommand)))
  dsimp only
  split <;> exact hs.violate

theorem storeRow (hs : SafeState s) {th src a bs mark} : SafeState (s.storeRow th src a bs mark) :=
  .ite (.ite (SafeState.ite (SafeState.ite (hs.poke _ _).setCtrl (hs.poke _ _)).setCtrl (.ite (hs.poke _ _).setCtrl (hs.poke _ _))).updThread
      (SafeState.ite (SafeState.ite (hs.poke _ _).setCtrl (hs.poke _ _)).setCtrl (.ite (hs.poke _ _).setCtrl (hs.poke _ _))).command) (.ite
      (SafeState.ite (hs.poke _ _).setCtrl (hs.poke _ _)).logRec (.ite (hs.poke _ _).setCtrl (hs.poke _ _)))

theorem startWords (hs : SafeState s) {src prio row} : SafeState (s.startWords src prio row) :=
  ((((hs.setTag.pokeWord _ _).pokeWord _ _).pokeWord _ _).setCtrl.pokeWord _ _).poke _ _

theorem startData (hs : SafeState s) {src prio row va} : SafeState (s.startData src prio row va) := by
  have h : SafeState (s.startWords src prio row) := hs.startWords
  exact h.of_mem rfl

theorem restartData (hs : SafeState s) {src prio th va} : SafeState (s.restartData src prio th va) := hs.startWords.updThread

theorem landStore (hs : SafeState s) {src a bs mark} : SafeState (s.landStore src a bs mark) := by
  unfold State.landStore
  split
  · split
    · exact hs.landHub
    · exact .ite hs.storeRow (.ite (hs.poke _ _).restartData (hs.poke _ _))
    · exact .ite hs.storeRow (hs.poke _ _)
  · split
    · exact hs.landHub
    · exact .ite (hs.poke _ _).startData (hs.poke _ _)
    · exact hs.poke _ _

theorem outsidePart (hs : SafeState s) {a bs mark} : SafeState (s.outsidePart a bs mark) := by
  unfold State.outsidePart
  refine .ite hs ?_
  split
  · exact hs.enqueue
  · split
    · exact (hs.reach.ok ‹_›).landStore
    · next h => exact (hs.reach.wait h).of_mem rfl

theorem flushHub (hs : SafeState s) : SafeState s.flushHub := by
  unfold State.flushHub
  refine SafeState.foldl (by exact hs) fun _ _ hs => ?_
  split
  · exact hs.hubPart
  · exact hs.outsidePart

theorem sendFault (hs : SafeState s) {th c data} : SafeState (s.sendFault th c data) := by
  unfold State.sendFault
  dsimp only
  split
  · exact hs.logRec
  · exact .ite hs.setTenant.logRec.raise hs.setTenant.setTenant

theorem failWalk (hs : SafeState s) {th c} : SafeState (s.failWalk th c) := .ite hs hs

theorem takeFault (hs : SafeState s) {id c data} : SafeState (s.takeFault id c data) := by
  unfold State.takeFault
  split
  · exact hs
  · exact (SafeState.ite ((hs.pokeWord _ _).pokeWord _ _).setCtrl
        ((hs.pokeWord _ _).pokeWord _ _)).updThread.dropWalk.dropClaims.beginClose.sendFault.failWalk

end SafeState

/-! ### The functions of Machine/Hash.lean -/

namespace SafeState

theorem partsNow (hs : SafeState s) : SafeState s.partsNow := hs
theorem bumpCounter (hs : SafeState s) {h k} : SafeState (s.bumpCounter h k) := hs.pokeWord _ _
theorem fillBucket (hs : SafeState s) {a es} : SafeState (s.fillBucket a es) := hs.pokeAll
theorem setShape (hs : SafeState s) {h t i w} : SafeState (s.setShape h t i w) := hs.pokeWord _ _
theorem setBusn (hs : SafeState s) {h t i u} : SafeState (s.setBusn h t i u) := hs.pokeWord _ _
theorem takePool (hs : SafeState s) {h} : SafeSecond (s.takePool h) := .ite trivial (hs.pokeWord _ _)
theorem givePool (hs : SafeState s) {h p} : SafeState (s.givePool h p) := (hs.pokeWord _ _).pokeWord _ _
theorem setChain (hs : SafeState s) {h t i ps} : SafeState (s.setChain h t i ps) := hs.setShape.foldl fun _ _ hs => hs.pokeWord _ _
theorem pruneChain (hs : SafeState s) {h t i} : SafeState (s.pruneChain h t i) := .ite hs (hs.setChain.foldl fun _ _ hs => hs.givePool)

theorem insertEntry (hs : SafeState s) {h t i entry} : SafeState (s.insertEntry h t i entry) := by
  unfold State.insertEntry
  split
  · exact hs.poke _ _
  · split
    · exact hs.poke _ _
    · refine .ite ?_ (.ite (.ite (hs.poke _ _).bumpCounter hs.bumpCounter) hs.bumpCounter)
      refine .ite ?_ hs.bumpCounter
      split
      · exact (hs.takePool.some ‹_›).fillBucket.setChain.bumpCounter
      · exact hs.bumpCounter

theorem deleteEntry (hs : SafeState s) {h t i entry} : SafeState (s.deleteEntry h t i entry) := hs.foldl fun _ _ hs => .ite (hs.poke _ _) hs

theorem applyUpdate (hs : SafeState s) {p} : SafeState (s.applyUpdate p) := by
  unfold State.applyUpdate
  dsimp only
  split
  · exact hs.bumpCounter
  · exact .ite hs.bumpCounter (SafeState.ite hs (.ite hs.deleteEntry hs.insertEntry)).pruneChain.setBusn

theorem layEntries (hs : SafeState s) {as es} : SafeState (s.layEntries as es) := hs.foldl fun _ _ hs => hs.fillBucket

theorem takePools (hs : SafeState s) {h n} : SafeSecond (s.takePools h n) := by
  induction n generalizing s with
  | zero => exact hs
  | succ n ih =>
    unfold State.takePools
    split
    · trivial
    · split
      · trivial
      · exact (ih (hs.takePool.some ‹_›)).some ‹_›

theorem splitA (hs : SafeState s) {p i} : SafePair (s.splitA p i) := .ite hs.bumpCounter (.ite hs.setBusn hs.setBusn.setShape)

theorem splitB (hs : SafeState s) {p i moved} : SafePair (s.splitB p i moved) := by
  unfold State.splitB
  refine .ite hs ?_
  split
  · exact hs
  · exact (hs.takePools.some ‹_›).layEntries.setShape.setChain.setBusn

theorem splitC (hs : SafeState s) {p i moved whole} : SafeState (s.splitC p i moved whole) :=
  .ite hs.setBusn.setShape (hs.setBusn.layEntries.setShape.setChain.foldl fun _ _ hs => hs.givePool)

theorem finishPart (hs : SafeState s) {p} : SafeState (s.finishPart p) := .ite hs (SafeState.pokeWord (by exact hs) _ _)
theorem noteApplied (hs : SafeState s) {p} : SafeState (s.noteApplied p) := hs

end SafeState

/-! ### The functions of Machine/Ports.lean -/

namespace SafeState

theorem updPort (hs : SafeState s) {n f} : SafeState (s.updPort n f) := by
  unfold State.updPort
  split <;> exact hs

theorem sendFlits (hs : SafeState s) {port fs} : SafeState (s.sendFlits port fs) := hs.updPort

theorem sendMessage (hs : SafeState s) {port kind dst tenant tag va bytes} : SafeState (s.sendMessage port kind dst tenant tag va bytes) :=
  hs.sendFlits

theorem sendRemote (hs : SafeState s) {m va kind bytes} : SafeState (s.sendRemote m va kind bytes) := .ite hs (SafeState.sendMessage (by exact hs))

end SafeState

/-! ### The functions of Machine/Elements.lean -/

namespace SafeState

theorem postOwnerMiss (hs : SafeState s) {o va k} : SafeState (s.postOwnerMiss o va k) := .ite hs hs
theorem dropNoMapping (hs : SafeState s) {o} : SafeState (s.dropNoMapping o) := hs

theorem partsWrite (hs : SafeState s) {mark ps bs} : SafeState (s.partsWrite mark ps bs) := by
  induction ps generalizing s bs with
  | nil => exact hs
  | cons p ps ih => exact ih hs.landStore.setGran

theorem partsReach (hs : SafeState s) {who write ps} : SafeReach (s.partsReach who write ps) := by
  induction ps generalizing s with
  | nil => exact hs
  | cons p ps ih =>
    unfold State.partsReach
    split
    · exact hs.reach.wait ‹_›
    · exact ih (hs.reach.ok ‹_›)

theorem addFlight (hs : SafeState s) {f} : SafeState (s.addFlight f) := hs
theorem dropFlights (hs : SafeState s) {p} : SafeState (s.dropFlights p) := hs

theorem dropAccesses (hs : SafeState s) {p who} : SafeState (s.dropAccesses p who) := by
  have h : SafeState (s.dropFlights p) := hs.dropFlights
  exact SafeState.dropClaims (by exact h)

theorem withdraw (hs : SafeState s) {e} : SafeState (s.withdraw e) := hs
theorem joinOnce (hs : SafeState s) {th e} : SafeState (s.joinOnce th e) := .ite hs hs.withdraw.enqueue
theorem leaveQueues (hs : SafeState s) {a} : SafeState (s.leaveQueues a) := hs.withdraw
theorem joinQueue (hs : SafeState s) {th a} : SafeState (s.joinQueue th a) := hs.joinOnce
theorem endAccess (hs : SafeState s) {a} : SafeState (s.endAccess a) := hs.dropFlights.leaveQueues
theorem counterMove (hs : SafeState s) {dp add failed} : SafeState (s.counterMove dp add failed) := hs.landStore.setGran

theorem plan (hs : SafeState s) {o x kind} : SafePlan (s.plan o x kind) := by
  unfold State.plan
  dsimp only
  split
  · split
    · exact hs.postOwnerMiss
    · exact hs.violate
    · exact hs.dropNoMapping
    · exact hs
  · split
    · trivial
    · split
      · trivial
      · trivial
      · split
        · exact hs.postOwnerMiss
        · exact hs.violate
        · exact hs.dropNoMapping
        · exact hs

theorem perform (hs : SafeState s) {o x f index applying} : SafeXfer (s.perform o x f index applying) := by
  unfold State.perform
  extract_lets va
  split
  · exact hs.addFlight.joinQueue
  · split
    · exact (hs.partsReach.wait ‹_›).addFlight
    next s₁ e₁ =>
      have h₁ : SafeState s₁ := hs.partsReach.ok e₁
      refine .ite h₁ ?_
      split
      · exact (h₁.partsReach.wait ‹_›).addFlight
      next s₂ e₂ =>
        extract_lets s₃ s₄ read s₅
        have h₄ : SafeState s₄ := ((h₁.partsReach.ok e₂).foldl fun _ _ hs => hs.countWindow).foldl fun _ _ hs => hs.countWindow
        split
        · exact h₄
        · exact SafeState.ite h₄ h₄.partsWrite

theorem flightOf (hs : SafeState s) {o x a num kind} : SafeFlight (s.flightOf o x a num kind) := by
  unfold State.flightOf
  refine .ite hs ?_
  split
  · trivial
  · split
    · trivial
    · trivial
    · exact hs.plan.stop ‹_›

theorem transfer (hs : SafeState s) {o x a num index applying kind} : SafeXfer (s.transfer o x a num index applying kind) := by
  unfold State.transfer
  split
  · split
    · exact ((hs.flightOf.error ‹_›).remote rfl).joinQueue
    · exact ((hs.flightOf.error ‹_›).remote rfl).endAccess
  · exact hs.flightOf.error ‹_›
  · split
    · exact hs.perform.wait ‹_›
    · exact (hs.perform.fail ‹_›).endAccess
    · exact (hs.perform.done ‹_›).endAccess
    · exact (hs.perform.remote ‹_›).endAccess

theorem translateOnly (hs : SafeState s) {o x a num kind} : SafeXfer (s.translateOnly o x a num kind) := by
  unfold State.translateOnly
  split
  · exact hs.flightOf.error ‹_›
  · exact hs.addFlight

theorem setCtx (hs : SafeState s) {k c} : SafeState (s.setCtx k c) := hs
theorem handBack (hs : SafeState s) {k c ecode va} : SafeState (s.handBack k c ecode va) := hs.dropAccesses.dropNoMapping.setCtx

theorem attempt (hs : SafeState s) {o x a num index how kind} : SafeXfer (s.attempt o x a num index how kind) := by
  unfold State.attempt
  split
  · exact hs.transfer
  · split
    · exact hs
    · exact hs.translateOnly

theorem engCommand (hs : SafeState s) {k i how} : SafeState (s.engCommand k i how) := by
  unfold State.engCommand
  dsimp only
  split
  · exact hs
  · refine .ite hs ?_
    split
    · exact hs.attempt.wait ‹_›
    · exact (hs.attempt.fail ‹_›).handBack
    · exact (hs.attempt.remote ‹_›).sendRemote
    · exact (hs.attempt.done ‹_›).setCtx

theorem setOneSided (hs : SafeState s) {o} : SafeState (s.setOneSided o) := hs
theorem poisonElement (hs : SafeState s) {o i} : SafeState (s.poisonElement o i) := hs.foldl fun _ _ hs => hs.setGran

theorem endFailed (hs : SafeState s) {o i applying} : SafeState (s.endFailed o i applying) := by
  unfold State.endFailed
  split
  · exact hs.reachAll.wait ‹_›
  · split
    · exact (hs.reachAll.ok ‹_›).joinQueue
    · exact (hs.reachAll.ok ‹_›).poisonElement.endAccess.setOneSided

theorem failElement (hs : SafeState s) {o i ecode applying} : SafeState (s.failElement o i ecode applying) :=
  .ite hs.dropAccesses.setOneSided hs.dropAccesses.setOneSided.endFailed

theorem finishProbe (hs : SafeState s) {o i p applying} : SafeState (s.finishProbe o i p applying) := by
  unfold State.finishProbe
  dsimp only
  split
  · exact hs.joinQueue
  · split
    · exact hs.partsReach.wait ‹_›
    · exact (hs.partsReach.ok ‹_›).partsWrite.leaveQueues.setOneSided

theorem probeElement (hs : SafeState s) {o h tbl sigs i applying} : SafeState (s.probeElement o h tbl sigs i applying) := by
  unfold State.probeElement
  dsimp only
  split
  · exact hs.joinQueue
  · split
    · exact hs.partsReach.wait ‹_›
    · refine .ite (hs.partsReach.ok ‹_›).leaveQueues.failElement (.ite (hs.partsReach.ok ‹_›).leaveQueues.finishProbe ?_)
      split
      · exact (hs.partsReach.ok ‹_›).leaveQueues.failElement
      · exact .ite (hs.partsReach.ok ‹_›).leaveQueues.setOneSided (.ite (hs.partsReach.ok ‹_›).leaveQueues.setOneSided
            (hs.partsReach.ok ‹_›).leaveQueues.finishProbe)

theorem engElement (hs : SafeState s) {id i how} : SafeState (s.engElement id i how) := by
  unfold State.engElement
  split
  · exact hs
  · refine .ite hs (.ite (.ite hs hs.endFailed) ?_)
    split
    · split
      · exact hs
      · exact hs.probeElement
    · extract_lets own
      split
      · exact hs.postOwnerMiss
      · exact hs.dropNoMapping.failElement
      · exact hs.violate.failElement
      · exact .ite hs hs.sendRemote
      · split
        · exact hs.partsReach.wait ‹_›
        next s₁ e =>
          have h₁ : SafeState s₁ := hs.partsReach.ok e
          extract_lets fails
          have hf {t : State} (ht : SafeState t) (k : Nat) : SafeState (fails t k) := by
            unfold fails
            split
            · exact .ite h₁ h₁.joinQueue
            · exact ht.failElement
          split
          · exact hf h₁ _
          · split
            · exact h₁.attempt.wait ‹_›
            · exact hf (h₁.attempt.fail ‹_›) _
            · exact (h₁.attempt.remote ‹_›).sendRemote
            · exact (h₁.attempt.done ‹_›).setOneSided

theorem engAccess (hs : SafeState s) {a how} : SafeState (s.engAccess a how) := by
  unfold State.engAccess
  split
  · exact hs.engCommand
  · exact hs.engElement

end SafeState

/-! ### The functions of Machine/Close.lean -/

namespace SafeState

theorem showClose (hs : SafeState s) {th} : SafeState (s.showClose th) := by
  unfold State.showClose
  split
  · exact hs
  · exact .ite hs (.ite hs.setWord0.setCtrl hs.setWord0)

theorem viewAll (hs : SafeState s) {id a n} : SafeState (s.viewAll id a n) := hs.foldl fun _ _ hs => hs.viewNewest

theorem countFor (hs : SafeState s) {id a write} : SafeState (s.countFor id a write) := by
  unfold State.countFor
  split
  · exact hs
  · exact hs.countWindow

theorem consumePost (hs : SafeState s) {id a n} : SafeState (s.consumePost id a n) := by
  unfold State.consumePost
  refine hs.foldl fun _ _ hs => ?_
  split
  · exact hs
  · exact SafeState.foldl (by exact hs) fun _ _ hs => hs.advanceView

theorem outsideTaken (hs : SafeState s) {a} : SafeState (s.outsideTaken a) := by
  unfold State.outsideTaken
  split
  · exact hs.updThread
  · exact hs

theorem answer (hs : SafeState s) {a key r} : SafeState (s.answer a key r) := hs.updThread

theorem doAtomic (hs : SafeState s) {src op a n v w mark} : SafeFirst (s.doAtomic src op a n v w mark) := by
  unfold State.doAtomic
  refine .ite trivial ?_
  dsimp only
  split
  · refine SafeState.viewNewest ?_
    split
    · exact hs.landStore
    · exact hs
  · split
    · exact hs.landStore
    · exact hs

theorem importCounted (hs : SafeState s) {id counter} : SafeState (s.importCounted id counter) := hs.foldl fun _ _ hs => .ite hs.advanceView hs
theorem addParts (hs : SafeState s) {usn parts} : SafeState (s.addParts usn parts) := hs
theorem beginSplit (hs : SafeState s) {id usn i} : SafeState (s.beginSplit id usn i) := hs.updThread

theorem applyIssue (hs : SafeState s) {src a parts} : SafeState (s.applyIssue src a parts) := by
  unfold State.applyIssue
  split
  · exact hs.answer
  · dsimp only
    split
    · exact (hs.doAtomic.some ‹_›).countFor.noteWrote.answer.addParts
    · exact .ite (hs.doAtomic.some ‹_›).countFor.noteWrote.answer.addParts.beginSplit
        (hs.doAtomic.some ‹_›).countFor.noteWrote.answer.addParts

theorem applyEntry (hs : SafeState s) {th rest e} : SafeState (s.applyEntry th rest e) := by
  unfold State.applyEntry
  split
  · dsimp only
    split
    · exact hs.landStore.viewNewest
    · exact hs.landStore
  · split
    · exact hs
    · exact .ite hs.answer hs.countFor.viewAll.answer
  · split
    · exact hs.answer
    · exact (hs.doAtomic.some ‹_›).countFor.noteWrote.answer
  · exact .ite (.ite hs.answer (.ite hs.countFor.viewNewest.answer.setGran.consumePost hs.countFor.viewNewest.answer)) hs.answer
  · exact .ite hs.countFor.landStore.setGran.viewNewest.noteWrote.answer (.ite hs.answer hs.answer)
  · exact hs.countFor.setGran.answer
  · exact .ite hs.answer (.ite hs.answer hs.countFor.importCounted.answer)
  · exact hs.counterMove
  · exact hs.applyIssue
  · exact hs
  · exact hs
  · exact hs
  · exact hs.engAccess

theorem applyHead (hs : SafeState s) {id} : SafeState (s.applyHead id) := by
  unfold State.applyHead
  split
  · exact hs
  · split
    · exact hs
    · exact (SafeState.updThread (by exact hs.showClose.doomGroups.of_mem rfl)).applyEntry

theorem applyAll (hs : SafeState s) {id n} : SafeState (s.applyAll id n) := by
  induction n generalizing s with
  | zero => exact hs
  | succ n ih => exact .ite hs (ih hs.applyHead)

theorem pushSB (hs : SafeState s) {id e} : SafeState (s.pushSB id e) := hs.updThread

theorem writeBackParts (hs : SafeState s) {th drop stores} : SafeOption (s.writeBackParts th drop stores) := by
  induction stores generalizing s with
  | nil => exact hs
  | cons p stores ih =>
    unfold State.writeBackParts
    refine .ite trivial (ih (hs.foldl fun _ _ hs => ?_))
    dsimp only
    split
    · exact hs.storeRow
    · exact hs.noteBankWindow.countWindow.pushSB.noteWrote
    · exact hs.pushSB
    · exact hs.violateBy
    · exact hs

theorem postWriteBackMisses (hs : SafeState s) {th} : SafeState (s.postWriteBackMisses th) :=
  hs.foldl fun _ _ hs => hs.foldl fun _ _ hs => .ite hs.postMiss hs

theorem writeBack (hs : SafeState s) {th drop} : SafeOption (s.writeBack th drop) :=
  .ite hs (hs.writeBackParts.mapState fun _ hs => hs.markSaved.dropAnswers)

theorem precharge (hs : SafeState s) {th} : SafeState (s.precharge th) := by
  unfold State.precharge
  refine .ite hs ?_
  split
  · exact .ite hs.setBuf hs
  · exact hs

theorem releaseCommands (hs : SafeState s) {th bits} : SafeState (s.releaseCommands th bits) :=
  .ite hs (SafeState.foldl (by exact hs) fun _ _ hs => hs.takeCommand)

theorem finishClose (hs : SafeState s) {th bits} : SafeState (s.finishClose th bits) :=
  .ite hs.precharge.rowToData (SafeState.ite hs.releaseHolds.precharge.setWord0.setCtrl
      hs.releaseHolds.precharge.setWord0).updThread.releaseCommands

theorem progressClose (hs : SafeState s) {id drop} : SafeState (s.progressClose id drop) := by
  unfold State.progressClose
  split
  · exact hs
  · split
    · exact hs
    · refine .ite hs ?_
      dsimp only
      split
      · exact hs.applyAll
      · refine .ite hs.applyAll ?_
        split
        · exact hs.applyAll.postWriteBackMisses
        · split
          · exact hs.applyAll.writeBack.some ‹_›
          · split
            · exact hs.applyAll.writeBack.some ‹_›
            · exact .ite (hs.applyAll.writeBack.some ‹_›) (hs.applyAll.writeBack.some ‹_›).finishClose

theorem preempt (hs : SafeState s) {th} : SafeState (s.preempt th) := .ite hs (.ite hs.updThread (.ite hs.updThread hs.setLogical.progressClose))

end SafeState

/-! ### The functions of Machine/Exec.lean -/

namespace SafeState

theorem applyNote (hs : SafeState s) {th x} : SafeState (s.applyNote th x) := by
  unfold State.applyNote
  split
  · exact hs.violateBy
  · exact hs.setHold
  · exact hs.setAccStatus
  · exact hs
  · exact hs.updThread

theorem loopAfterJump (hs : SafeState s) {row pc target} : SafeState (s.loopAfterJump row pc target) :=
  .ite hs (.ite (hs.pokeWord _ _) (hs.pokeWord _ _))

theorem loopAfterNext (hs : SafeState s) {row pc} : SafePair (s.loopAfterNext row pc) :=
  .ite hs (.ite (.ite (hs.pokeWord _ _) (hs.pokeWord _ _)) (hs.pokeWord _ _))

theorem writePc (hs : SafeState s) {row pc} : SafeState (s.writePc row pc) := .ite (hs.pokeWord _ _).setCtrl (hs.pokeWord _ _)
theorem setNext (hs : SafeState s) {id row pc check discard} : SafeState (s.setNext id row pc check discard) := hs.writePc.updThread

theorem takeOwnCommand (hs : SafeState s) {id} : SafeState (s.takeOwnCommand id) := by
  unfold State.takeOwnCommand
  split
  · exact hs
  · exact .ite hs hs.updThread.command

theorem endStep (hs : SafeState s) {id row} : SafeState (s.endStep id row) := .ite hs.beginClose hs
theorem countWalk (hs : SafeState s) {th} : SafeState (s.countWalk th) := .ite hs hs
theorem useUnit (hs : SafeState s) {th kind cycles} : SafeState (s.useUnit th kind cycles) := hs

theorem noteIssue (hs : SafeState s) {th} : SafeState (s.noteIssue th) := by
  unfold State.noteIssue
  refine SafeState.updThread ?_
  split
  · exact hs.useUnit
  · exact hs

theorem finishIssue (hs : SafeState s) {th flow} : SafeState (s.finishIssue th flow) := by
  unfold State.finishIssue
  extract_lets s₁ id row pc
  have h₁ : SafeState s₁ := hs.countWalk.dropWalk.noteIssue
  clear_value s₁
  split
  · split
    next e => exact (h₁.loopAfterNext.fst e).setNext.endStep.takeOwnCommand
  · exact h₁.loopAfterJump.setNext.endStep.takeOwnCommand
  · exact h₁.setNext.endStep.takeOwnCommand
  · exact h₁.setNext.endStep.takeOwnCommand
  · split
    next s₂ _ _ e =>
      have h₂ : SafeState s₂ := h₁.loopAfterNext.fst e
      exact .ite (SafeState.ite h₂.setNext.updThread.setCtrl h₂.setNext.updThread).endStep h₂.setNext.updThread.beginClose
  · split
    next s₂ _ _ e =>
      have h₂ : SafeState s₂ := h₁.loopAfterNext.fst e
      exact .ite h₂.writePc.updThread.endStep h₂.writePc.updThread.updThread

theorem blockIssue (hs : SafeState s) {th wk wa c} : SafeState (s.blockIssue th wk wa c) := .ite hs.beginClose hs.updThread
theorem keepReached (hs : SafeState s) {u} : SafeState (s.keepReached u) := hs

theorem runIssue (hs : SafeState s) {th r} (hr : SafeResult r) : SafeState (runIssue s th r) := by
  unfold Machine.runIssue
  split
  · exact (SafeState.finishIssue hr).progressClose
  · exact (hs.foldl fun _ _ hs => hs.applyNote).takeFault.takeOwnCommand.progressClose
  · exact hs.blockIssue.progressClose
  · exact (SafeState.blockIssue (hr _ hs.keepReached)).progressClose

theorem asInstr (hs : SafeState s) {body : Exec Flow} (hb : SafeExec body) : SafeOutcome (asInstr body s) := by
  unfold Machine.asInstr
  split
  · trivial
  · exact hs.runIssue (hb s hs)

end SafeState

namespace SafeExec

theorem fault {α : Type} {c data} : SafeExec (Exec.fault c data : Exec α) := .throw trivial
theorem faultLogged {α : Type} {c data kind addr} : SafeExec (Exec.faultLogged c data kind addr : Exec α) := .throw trivial
theorem stall {α : Type} {wk wa c} : SafeExec (Exec.stall wk wa c : Exec α) := .throw trivial
theorem require {b c data} : SafeExec (Exec.require b c data) := .ite .pure .fault

theorem me : SafeExec Exec.me := by
  unfold Exec.me
  refine .get fun _ _ => ?_
  split <;> exact .pure

theorem myRow : SafeExec Exec.myRow := .bind .me fun _ => .pure
theorem sbEmpty : SafeExec Exec.sbEmpty := .bind .me fun _ => .ite .pure .stall

theorem missAt {α : Type} {va k} : SafeExec (Exec.missAt va k : Exec α) :=
  .get fun _ _ => .bind .me fun _ => .hold fun _ hs => hs.postMiss

theorem reachRow {dp write} : SafeExec (Exec.reachRow dp write) := by
  unfold Exec.reachRow
  refine .get fun _ hs => .bind .me fun _ => ?_
  split
  · exact .set (hs.reach.ok ‹_›)
  · exact .throw fun _ hs => hs

theorem reply? {key} : SafeExec (Exec.reply? key) := .bind .me fun _ => .pure

theorem answered {key} : SafeExec (Exec.answered key) := by
  unfold Exec.answered
  refine .bind .reply? fun _ => ?_
  split
  · exact .pure
  · exact .bind .me fun _ => .ite .stall .pure

theorem ask {α : Type} {key} {f : State → State} (hf : ∀ s, SafeState s → SafeState (f s)) : SafeExec (Exec.ask key f : Exec α) :=
  .bind .me fun _ => .ite .stall (.hold fun s hs => (hf s hs).updThread)

end SafeExec

namespace SafeState

theorem forget (hs : SafeState s) {th} : SafeState (Exec.forget th s) := hs.updThread

theorem queueOn (hs : SafeState s) {row e} : SafeState (Exec.queueOn row e s) := by
  unfold Exec.queueOn
  split
  · exact hs.enqueue
  · exact hs

end SafeState

namespace SafeExec

theorem checkHold {dp va} : SafeExec (Exec.checkHold dp va) := by
  unfold Exec.checkHold
  refine .get fun _ _ => .bind .me fun _ => ?_
  split
  · exact .throw trivial
  · exact .pure

theorem readHere {dp n va nw} : SafeExec (Exec.readHere dp n va nw) :=
  .bind .me fun _ => .bind (.modify fun _ hs => hs.countWindow) fun _ => .bind (.modify fun _ hs => .ite hs.viewNewest hs.boundView) fun _ =>
      .get fun _ _ => .bind .me fun _ => .guard .fault fun _ => .pure

theorem readMemory {dp n va nw} : SafeExec (Exec.readMemory dp n va nw) :=
  .bind .checkHold fun _ => .bind .reachRow fun _ => .bind .me fun _ => .bind (.modify fun _ hs => hs.noteBankWindow) fun _ => .readHere

theorem queuedLoad {va n} : SafeExec (Exec.queuedLoad va n) := by
  unfold Exec.queuedLoad
  refine .get fun _ hs => .bind .me fun _ => ?_
  split
  · refine .ite .pure (.bind .answered fun _ => ?_)
    split
    · exact .pure
    · exact .fault
    · exact .ite (.bind .checkHold fun _ => .ite .stall (.ask fun _ hs => hs.noteBankWindow.queueOn)) .pure
  · exact .pure

theorem loadLine {va n nw} : SafeExec (Exec.loadLine va n nw) := by
  unfold Exec.loadLine
  refine .get fun _ hs => .bind .me fun _ => ?_
  split
  · exact .ite .fault .pure
  · exact .fault
  · exact .missAt
  · exact .faultLogged
  · refine .bind .reply? fun _ => ?_
    split
    · exact .pure
    · exact .fault
    · exact .ask (fun _ hs => hs.sendRemote)
  · split
    · split
      · exact .pure
      · exact .faultLogged
    · exact .readMemory

theorem inBlock {va n} : SafeExec (Exec.inBlock va n) := .require

theorem precheck {va n k} : SafeExec (Exec.precheck va n k) := by
  unfold Exec.precheck
  refine .get fun _ _ => .bind .me fun _ => ?_
  refine .bind (.forIn fun _ _ => ?_) fun _ => .pure
  dsimp only
  split
  · exact .bind .fault fun _ => .pure
  · exact .bind .missAt fun _ => .pure
  · exact .ite (.bind .faultLogged fun _ => .pure) .pure
  · exact .pure

theorem load {va n nw} : SafeExec (Exec.load va n nw) := by
  unfold Exec.load
  refine .bind .inBlock fun _ => .bind .precheck fun _ => .bind .queuedLoad fun _ => ?_
  split
  · exact .pure
  · exact .bind (.mapM fun _ => .loadLine) fun _ => .pure

theorem loadLines {va n} : SafeExec (Exec.loadLines va n) := .bind (.mapM fun _ => .load) fun _ => .pure

theorem storeLine {va bs mark group} : SafeExec (Exec.storeLine va bs mark group) := by
  unfold Exec.storeLine
  refine .get fun _ hs => .bind .me fun _ => ?_
  dsimp only
  split
  · exact .modify (fun _ hs => hs.storeRow)
  · exact .fault
  · exact .missAt
  · exact .modify (fun _ hs => hs.violateBy)
  · exact .modify (fun _ hs => hs.pushSB)
  · refine .bind .checkHold fun _ => .bind (.modify fun _ hs => hs.noteBankWindow.countWindow) fun _ => .get fun _ hs => ?_
    refine .bind ?_ fun _ => .modify (fun _ hs => hs.pushSB.noteWrote)
    refine .ite ?_ .pure
    split
    · exact .bind (.set (hs.reserveShadow.some ‹_›)) fun _ => .pure
    · exact .fault

theorem store {va bs mark group} : SafeExec (Exec.store va bs mark group) :=
  .bind .inBlock fun _ => .bind .precheck fun _ => .bind (.forIn fun _ _ => .bind .storeLine fun _ => .pure) fun _ => .pure

theorem plainAddr {va k kind} : SafeExec (Exec.plainAddr va k kind) := by
  unfold Exec.plainAddr
  refine .get fun _ _ => .bind .me fun _ => ?_
  split
  · exact .pure
  · split
    · exact .fault
    · exact .pure
  · exact .fault
  · exact .missAt
  · exact .faultLogged
  · exact .fault

theorem atomicAs {entry op va n v w} : SafeExec (Exec.atomicAs entry op va n v w) := by
  unfold Exec.atomicAs
  refine .bind .require fun _ => .bind .sbEmpty fun _ => .get fun _ hs => .bind .me fun _ => ?_
  split
  · refine .bind .reply? fun _ => ?_
    split
    · exact .pure
    · exact .fault
    · exact .ask (fun _ hs => hs.sendRemote)
  · refine .bind .plainAddr fun _ => ?_
    split
    · refine .bind .answered fun _ => ?_
      split
      · exact .pure
      · exact .fault
      · refine .guard .checkHold fun _ => .ite (.ask fun _ hs => hs.noteBankWindow.queueOn) ?_
        dsimp only
        split
        · refine .bind .reachRow fun _ => .bind (.modify fun _ hs => hs.noteBankWindow.countWindow) fun _ => .get fun _ hs => ?_
          split
          · exact .fault
          · exact .bind (.set (hs.doAtomic.some ‹_›).noteWrote) fun _ => .pure
        · refine .get fun _ hs => ?_
          split
          · exact .fault
          · exact .bind (.set (hs.doAtomic.some ‹_›).noteWrote) fun _ => .pure

theorem atomic {op va n v w} : SafeExec (Exec.atomic op va n v w) := .bind .atomicAs fun _ => .pure

end SafeExec

namespace SafeState

theorem countFE (hs : SafeState s) {th va dp write} : SafeState (Exec.countFE th va dp write s) := hs.noteBankWindow.countWindow

end SafeState

namespace SafeExec

theorem granAddr {va k isLoad} : SafeExec (Exec.granAddr va k isLoad) := by
  unfold Exec.granAddr
  refine .get fun _ hs => .bind .me fun _ => ?_
  split
  · exact .ite .faultLogged (.bind (.modify fun _ hs => hs.violateBy) fun _ => .pure)
  · refine .bind .plainAddr fun _ => ?_
    split
    exact .guard .fault fun _ => .pure

theorem loadFE {va n clear} : SafeExec (Exec.loadFE va n clear) := by
  unfold Exec.loadFE
  refine .bind .me fun _ => .bind .granAddr fun _ => ?_
  split
  · exact .pure
  · refine .get fun _ hs => .bind .answered fun _ => ?_
    split
    · exact .pure
    · exact .fault
    · exact .hold (fun _ hs => hs.forget)
    · exact .ite (.ask fun _ hs => hs.noteBankWindow.queueOn) (.guard .stall fun _ => .guard .fault fun _ => .guard (.modify fun _ hs =>
          hs.countFE.viewNewest) fun _ => .guard (.modify fun _ hs => hs.setGran.consumePost) fun _ => .pure)

theorem storeFE {va bs} : SafeExec (Exec.storeFE va bs) := by
  unfold Exec.storeFE
  refine .bind .sbEmpty fun _ => .bind .me fun _ => .bind .granAddr fun _ => ?_
  split
  · exact .pure
  · refine .get fun _ hs => .bind .answered fun _ => ?_
    split
    · exact .fault
    · exact .hold (fun _ hs => hs.forget)
    · exact .pure
    · exact .ite (.ask fun _ hs => hs.noteBankWindow.queueOn) (.guard .fault fun _ => .guard .stall fun _ => .guard (.modify fun _ hs =>
          hs.countFE) fun _ => .modify fun _ hs => hs.landStore.setGran.viewNewest.noteWrote)

theorem setFE {va n full} : SafeExec (Exec.setFE va n full) := by
  unfold Exec.setFE
  refine .bind .sbEmpty fun _ => .bind .me fun _ => .bind .granAddr fun _ => ?_
  split
  · exact .pure
  · refine .get fun _ hs => .bind .answered fun _ => ?_
    split
    · exact .pure
    · exact .ite (.ask fun _ hs => hs.noteBankWindow.queueOn) (.guard (.modify fun _ hs => hs.countFE) fun _ => .modify fun _ hs => hs.setGran)

theorem counterAddr {va} : SafeExec (Exec.counterAddr va) := by
  unfold Exec.counterAddr
  refine .bind .require fun _ => .bind .plainAddr fun _ => ?_
  split
  exact .bind .me fun _ => .guard (.modify fun _ hs => hs.noteBankWindow) fun _ => .pure

end SafeExec

/-! ### The functions of Machine/Operands.lean -/

namespace SafeState

theorem setQueue (hs : SafeState s) {q items} : SafeState (s.setQueue q items) := hs
theorem setCounts (hs : SafeState s) {row n cs} : SafeState (s.setCounts row n cs) := hs.poke _ _
theorem setDone (hs : SafeState s) {row n b} : SafeState (s.setDone row n b) := hs.pokeWord _ _
theorem setPos (hs : SafeState s) {row n p} : SafeState (s.setPos row n p) := hs.pokeWord _ _

theorem slotAdvance (hs : SafeState s) {row n} : SafeState (s.slotAdvance row n) := by
  unfold State.slotAdvance
  extract_lets pos
  split
  extract_lets s₁
  have h₁ : SafeState s₁ := hs.setPos.setCounts
  exact .ite h₁.setDone h₁

end SafeState

namespace SafeExec

theorem port {q} : SafeExec (Exec.port q) := by
  unfold Exec.port
  refine .get fun _ _ => .bind .me fun _ => .guard .fault fun _ => ?_
  split
  · exact .fault
  · exact .ite .pure .fault

theorem queuesReady {srcs dst} : SafeExec (Exec.queuesReady srcs dst) := by
  unfold Exec.queuesReady
  refine .bind (.filterMapM fun r => ?_) fun _ => .bind ?_ fun _ => .bind (.forIn fun _ _ => ?_) fun _ => ?_
  · split
    · exact .bind .port fun _ => .pure
    · exact .pure
  · split
    · exact .bind .port fun _ => .pure
    · exact .pure
  · exact .guard .stall fun _ => .pure
  · split
    · exact .ite .stall .pure
    · exact .pure

theorem pop {q} : SafeExec (Exec.pop q) := by
  unfold Exec.pop
  refine .bind .port fun _ => ?_
  split
  · exact .bind (.modify fun _ hs => hs.setQueue) fun _ => .pure
  · exact .pure

theorem push {q w} : SafeExec (Exec.push q w) := .bind .port fun _ => .modify fun _ hs => hs.setQueue
theorem readX {n} : SafeExec (Exec.readX n) := .get fun _ _ => .bind .myRow fun _ => .pure
theorem writeX {n w} : SafeExec (Exec.writeX n w) := .bind .myRow fun _ => .modify fun _ hs => hs.setX

theorem src {x} : SafeExec (Exec.src x) := by
  unfold Exec.src
  split
  · exact .readX
  · exact .pop
  · exact .pure

theorem dst {q w} : SafeExec (Exec.dst q w) := by
  unfold Exec.dst
  split
  · exact .writeX
  · exact .push
  · exact .pure

theorem readP {n} : SafeExec (Exec.readP n) := .get fun _ _ => .bind .myRow fun _ => .pure
theorem writeP {n b} : SafeExec (Exec.writeP n b) := .bind .myRow fun _ => .modify fun _ hs => hs.setP
theorem readV {n} : SafeExec (Exec.readV n) := .get fun _ _ => .bind .myRow fun _ => .pure
theorem writeV {n v} : SafeExec (Exec.writeV n v) := .bind .myRow fun _ => .modify fun _ hs => hs.setV

theorem slotRead {n} : SafeExec (Exec.slotRead n) :=
  .bind .myRow fun _ => .get fun _ _ => .ite .pure (.bind .load fun _ => .bind (.modify fun _ hs => hs.slotAdvance) fun _ => .pure)

theorem vsrc {r w} : SafeExec (Exec.vsrc r w) := by
  unfold Exec.vsrc
  split
  · exact .readV
  · exact .slotRead
  · exact .bind .readX fun _ => .pure
  · exact .pure

theorem ea {f} : SafeExec (Exec.ea f) := .get fun _ _ => .bind .myRow fun _ => .pure

end SafeExec

/-! ### The functions of Machine/Bank.lean -/

namespace SafeExec

theorem nearPlace {dp va rowOnly readable} : SafeExec (nearPlace dp va rowOnly readable) := by
  unfold Machine.nearPlace
  refine .get fun _ _ => .bind .me fun _ => ?_
  dsimp only
  split
  · refine .bind .faultLogged fun _ => ?_
    split
    · exact .fault
    · exact .guard .fault fun _ => .pure
  · refine .guard .fault fun _ => ?_
    split
    · refine .bind .faultLogged fun _ => ?_
      split
      · exact .fault
      · exact .guard .fault fun _ => .pure
    · split
      · exact .fault
      · exact .guard .fault fun _ => .pure

theorem nearAddr {va rowOnly} : SafeExec (nearAddr va rowOnly) := by
  unfold Machine.nearAddr
  refine .bind .require fun _ => .get fun _ hs => .bind .me fun _ => ?_
  dsimp only
  split
  · exact .bind .nearPlace fun _ => .bind (.modify fun _ hs => hs.noteBankWindow) fun _ => .pure
  · split
    · exact .missAt
    · exact .bind (.ite .fault .nearPlace) fun _ => .bind (.modify fun _ hs => hs.noteBankWindow) fun _ => .pure

theorem namedRow {f} : SafeExec (namedRow f) := by
  unfold Machine.namedRow
  refine .bind .ea fun _ => .bind .require fun _ => .bind .nearAddr fun _ => ?_
  split
  exact .pure

theorem activateRow {dp l dest} : SafeExec (activateRow dp l dest) := by
  unfold Machine.activateRow
  refine .get fun _ hs => .bind .me fun _ => ?_
  split
  · exact .set (hs.activateInTurn.ok ‹_›)
  · exact .throw fun _ hs => hs

theorem holdPage {dp l} : SafeExec (holdPage dp l) := by
  unfold Machine.holdPage
  refine .get fun _ hs => .bind .me fun _ => ?_
  split
  · exact .set (hs.dpitWrite.fst ‹_›).leaveDpit
  · exact .throw fun _ hs => hs

end SafeExec

namespace SafeState

theorem execRowOpen (hs : SafeState s) {f} : SafeOutcome (execRowOpen f s) := by
  unfold Machine.execRowOpen
  refine hs.asInstr (.bind .namedRow fun _ => ?_)
  split
  · refine .bind .checkHold fun _ => .get fun _ _ => .ite (.bind .writeX fun _ => .pure) ?_
    split
    · exact .bind .writeX fun _ => .pure
    · exact .bind .writeX fun _ => .pure
    · exact .bind .activateRow fun _ => .bind .writeX fun _ => .pure

theorem execRowHold (hs : SafeState s) {f} : SafeOutcome (execRowHold f s) := by
  unfold Machine.execRowHold
  refine hs.asInstr (.bind .namedRow fun _ => ?_)
  split
  exact .get fun _ hs => .bind .me fun _ => .guard (.hold fun _ hs => hs.claim) fun _ => .ite (.bind (.set hs.setHold) fun _ =>
      .bind .writeX fun _ => .pure) (.bind .holdPage fun _ => .get fun _ hs => .ite (.bind (.set hs.setBuf.unclaim) fun _ => .bind .writeX fun _ =>
      .bind (.modify fun _ hs => hs.setHold) fun _ => .pure) (.bind .activateRow fun _ => .bind .writeX fun _ => .bind (.modify fun _ hs =>
      hs.setHold) fun _ => .pure))

theorem execRowRel (hs : SafeState s) {f} : SafeOutcome (execRowRel f s) := by
  unfold Machine.execRowRel
  refine hs.asInstr (.bind .namedRow fun _ => ?_)
  split
  exact .get fun _ hs => .bind .me fun _ => .ite (.bind (.set (SafeState.ite hs hs.setBuf).setHold) fun _ => .bind .writeX fun _ =>
      .pure) (.bind .writeX fun _ => .pure)

theorem execTxBegin (hs : SafeState s) {f} : SafeOutcome (execTxBegin f s) :=
  hs.asInstr (.get fun _ hs => .bind .me fun _ => .ite (.bind .writeX fun _ => .pure) (.ite (.bind .writeX fun _ =>
      .pure) (.bind (.set (hs.pokeWord _ _)) fun _ => .bind .writeX fun _ => .pure)))

theorem reopenCommitted (hs : SafeState s) {th} : SafeState (reopenCommitted s th) := by
  unfold Machine.reopenCommitted
  refine hs.foldl fun _ _ hs => ?_
  split
  · split
    · exact .ite hs.setSub hs
    · exact hs
  · exact hs

theorem execTxCommit (hs : SafeState s) {f} : SafeOutcome (execTxCommit f s) :=
  hs.asInstr (.bind .sbEmpty fun _ => .get fun _ hs => .bind .me fun _ => .ite (.bind .writeX fun _ =>
      .pure) (.ite (.bind (.set hs.clearGroup) fun _ => .bind .writeX fun _ => .pure) (.bind
      (.set hs.reopenCommitted.commitGroup.clearGroup) fun _ => .bind .writeX fun _ => .pure)))

theorem execTxAbort (hs : SafeState s) {f} : SafeOutcome (execTxAbort f s) :=
  hs.asInstr (.bind .me fun _ => .bind (.modify fun _ hs => hs.abortGroup) fun _ => .pure)

theorem attnWrite (hs : SafeState s) {a st} : SafeState (s.attnWrite a st) := (hs.poke _ _).pokeAll

end SafeState

namespace SafeExec

theorem attnBytes {dp n va} : SafeExec (attnBytes dp n va) := by
  unfold Machine.attnBytes
  refine .get fun _ hs => .bind .me fun _ => .ite (.ite .fault .pure) (.bind .answered fun _ => ?_)
  split
  · exact .pure
  · exact .fault
  · exact .ite (.ite .stall (.ask fun _ hs => hs.queueOn)) (.bind (.mapM fun _ => .readHere) fun _ => .pure)

theorem attnReach {dp va} : SafeExec (attnReach dp va) :=
  .get fun _ _ => .bind .me fun _ => .ite .pure (.bind .checkHold fun _ => .ite .pure .reachRow)

theorem attnPage {bt g} : SafeExec (attnPage bt g) := by
  unfold Machine.attnPage
  refine .bind .require fun _ => .bind .nearAddr fun _ => .bind .load fun _ => .bind .require fun _ => .get fun _ _ => .bind .me fun _ => ?_
  dsimp only
  split
  · exact .fault
  · exact .bind .nearPlace fun _ => .bind .attnReach fun _ => .pure

theorem attnOwn {va n} : SafeExec (attnOwn va n) := .get fun _ _ => .bind .me fun _ => .bind .require fun _ => .pure

end SafeExec

namespace SafeState

theorem execAttn (hs : SafeState s) {f} : SafeOutcome (execAttn f s) := by
  unfold Machine.execAttn
  refine hs.asInstr (.bind .readV fun _ => .bind .readX fun _ => .bind .readX fun _ => .bind .require fun _ => .bind .require fun _ =>
      .bind .require fun _ => .bind .attnOwn fun _ => .bind .attnOwn fun _ => .bind .myRow fun _ => .get fun _ hs =>
      .ite (.guard (.modify fun _ hs => hs.attnWrite) fun _ => .bind .writeX fun _ => .bind (.modify fun _ hs => hs.setCtrl) fun _ =>
      .pure) (.bind .attnPage fun _ => ?_))
  split
  exact .bind .attnBytes fun _ => .bind .attnBytes fun _ => .get fun _ hs => .bind (.modify fun _ hs => hs.attnWrite) fun _ =>
      .ite (.bind (.modify fun _ hs => hs.setCtrl) fun _ => .pure) (.bind .writeX fun _ => .bind (.modify fun _ hs => hs.setCtrl) fun _ => .pure)

theorem setInMem (hs : SafeState s) {row b} : SafeState (setInMem s row b) := hs.pokeWord _ _

end SafeState

namespace SafeExec

theorem safePoint : SafeExec (safePoint) := .get fun _ _ => .bind .me fun _ => .ite .pure .pure

end SafeExec

namespace SafeState

theorem execSafeptPoint (hs : SafeState s) {f} : SafeOutcome (execSafeptPoint f s) := hs.asInstr .safePoint

theorem execSafeptBegin (hs : SafeState s) {f} : SafeOutcome (execSafeptBegin f s) :=
  hs.asInstr (.bind .myRow fun _ => .bind (.modify fun _ hs => hs.setInMem) fun _ => .pure)

theorem execSafeptEnd (hs : SafeState s) {f} : SafeOutcome (execSafeptEnd f s) :=
  hs.asInstr (.bind .me fun _ => .bind (.modify fun _ hs => hs.setInMem) fun _ => .bind .safePoint fun _ => .bind (.modify fun _ hs =>
      hs.updThread) fun _ => .pure)

end SafeState

/-! ### The functions of Machine/Issue.lean -/

namespace SafeState

theorem bufferLine (hs : SafeState s) {id f} : SafeState (s.bufferLine id f) := hs.updThread

theorem acceptLine (hs : SafeState s) {th va l poison} : SafeFilled (s.acceptLine th va l poison) :=
  .ite hs.bufferLine (.ite (SafeState.ite hs.logRec hs).bufferLine (.ite hs.bufferLine hs.updThread))

theorem fillLine (hs : SafeState s) {th va ahead} : SafeFilled (s.fillLine th va ahead) := by
  unfold State.fillLine
  dsimp only
  split
  · exact hs.acceptLine
  · split
    · split
      · exact hs.acceptLine
      · exact hs.violateBy.bufferLine
    · split
      · exact .ite (hs.reach.wait ‹_›) (hs.reach.wait ‹_›)
      · exact (hs.reach.ok ‹_›).noteBankWindow.countWindow.acceptLine
  · exact .ite hs.postMiss hs.postMiss
  · exact hs.violateBy.bufferLine
  · exact hs.bufferLine
  · exact hs.bufferLine

theorem issueFault (hs : SafeState s) {th c data} : SafeIssued (s.issueFault th c data) := hs.takeFault.progressClose

theorem issueWord (hs : SafeState s) {th f} : SafeIssued (s.issueWord th f) := by
  unfold State.issueWord
  dsimp only
  split
  · exact hs.issueFault
  · refine .ite hs.issueFault ?_
    refine .ite hs.issueFault (.ite hs.issueFault (.ite hs.issueFault ?_))
    split
    · exact hs.issueFault
    · exact .ite hs.updThread.blockIssue.progressClose (.ite hs.updThread hs.updThread.finishIssue.progressClose)

theorem prepareIssue (hs : SafeState s) {id} : SafeIssued (s.prepareIssue id) := by
  unfold State.prepareIssue
  split
  · exact hs
  · refine .ite hs ?_
    extract_lets s₁
    have h₁ : SafeState s₁ := hs
    clear_value s₁
    refine .ite h₁.issueFault ?_
    split
    · exact h₁.issueWord
    · split
      · exact (h₁.fillLine.line ‹_›).issueWord
      · exact h₁.fillLine.none ‹_›
      · exact (h₁.fillLine.wait ‹_›).blockIssue.progressClose

theorem endWatch (hs : SafeState s) {th dest value} : SafeState (s.endWatch th dest value) := hs.setX.setCtrl.updThread.setLogical

theorem wakeWatchers (hs : SafeState s) : SafeState s.wakeWatchers := by
  unfold State.wakeWatchers
  refine hs.foldl fun _ _ hs => ?_
  split
  · exact hs
  · split
    · exact .ite hs.endWatch hs
    · exact hs

theorem retryHub (hs : SafeState s) : SafeState s.retryHub := .ite hs (SafeState.flushHub (by exact hs)).flushRings.doomGroups
theorem settle (hs : SafeState s) : SafeState s.settle := hs.doomGroups.retryHub.wakeWatchers

theorem takeMove (hs : SafeState s) : SafeState s.takeMove.2 := by
  unfold State.takeMove
  split <;> exact hs

end SafeState

namespace SafeOutcome

theorem settleOutcome {o : Host.Outcome State Fault Refusal} (ho : SafeOutcome o) : SafeOutcome (settleOutcome o) := by
  cases o with
  | next s => exact SafeState.settle ho
  | fault _ => trivial
  | refused _ => trivial

end SafeOutcome

/-! ### The functions of Machine/Links.lean -/

namespace SafeState

theorem endOneSided (hs : SafeState s) {o} : SafeState (s.endOneSided o) :=
  (hs.foldl fun _ _ hs => .ite hs.poisonElement hs).counterMove.outsideTaken.of_mem rfl

theorem counterStep (hs : SafeState s) {op} : SafeState (s.counterStep op) := by
  unfold State.counterStep
  split
  · exact hs
  · refine .ite hs (.ite hs ?_)
    split
    · exact hs.reachAll.wait ‹_›
    · split
      · exact (hs.reachAll.ok ‹_›).reach.wait ‹_›
      · exact ((hs.reachAll.ok ‹_›).reach.ok ‹_›).endOneSided

theorem dropRemote (hs : SafeState s) {tag} : SafeState (s.dropRemote tag) := hs

theorem dropStore (hs : SafeState s) {id va} : SafeState (s.dropStore id va) := by
  unfold State.dropStore
  split
  · exact hs
  · exact hs.updThread.violate.raise.progressClose

theorem failRest (hs : SafeState s) {op ecode} : SafeState (s.failRest op ecode) := by
  unfold State.failRest
  split
  · exact hs
  · refine hs.foldl fun _ _ hs => ?_
    split
    · exact hs
    · exact .ite hs hs.failElement

theorem loseMessage (hs : SafeState s) {r} : SafeState (s.loseMessage r) := by
  unfold State.loseMessage
  dsimp only
  split
  · exact hs.dropRemote.answer
  · exact hs.dropRemote.answer
  · exact hs.dropRemote.dropStore
  · split
    · exact hs.dropRemote
    · exact .ite hs.dropRemote hs.dropRemote.handBack
  · exact hs.dropRemote.failRest
  · exact hs.dropRemote.failRest

theorem linkRows (hs : SafeState s) : SafeReach s.linkRows := hs.reachAll

theorem linkLost (hs : SafeState s) {port} : SafeState (s.linkLost port) := by
  unfold State.linkLost
  split
  · exact hs
  · extract_lets s₁ lost src s₂ s₃
    have h₁ : SafeState s₁ := by
      unfold s₁
      split
      · exact hs.linkRows.ok ‹_›
      · exact hs.linkRows.wait ‹_›
    have h₂ : SafeState s₂ := h₁
    have h₃ : SafeState s₃ := h₂.foldl fun _ _ hs => .ite hs.loseMessage hs
    exact h₃.foldl fun _ _ hs => hs.failRest

theorem execCounterMove (hs : SafeState s) : SafeOutcome (execCounterMove s) := by
  unfold Machine.execCounterMove
  show SafeState _
  split
  · exact hs.counterStep
  · exact hs

end SafeState

/-! ### The functions of Machine/Control.lean -/

namespace SafeState

theorem updIsland (hs : SafeState s) {n f} : SafeState (s.updIsland n f) := by
  unfold State.updIsland
  split <;> exact hs

theorem reclock (hs : SafeState s) : SafeState s.reclock := hs.foldl fun _ _ hs => hs.updIsland

theorem drainIsland (hs : SafeState s) {n} : SafeState (s.drainIsland n) := by
  unfold State.drainIsland
  refine .ite hs (hs.foldl fun _ _ hs => ?_)
  split
  · exact hs.preempt
  · exact hs

theorem islandRequest (hs : SafeState s) {n req} : SafeState (s.islandRequest n req) := by
  unfold State.islandRequest
  split
  · exact hs
  · exact .ite hs.updIsland (.ite hs.updIsland (.ite hs.updIsland (.ite hs (.ite (.ite hs.updIsland.updIsland hs.updIsland) (.ite
        ((SafeState.ite hs.updIsland.updIsland hs.updIsland).foldl fun _ _ hs => hs.linkLost)
        (SafeState.ite hs.updIsland.updIsland hs.updIsland).drainIsland)))))

theorem islandWrite (hs : SafeState s) {n req fcap clearDone} : SafeState (s.islandWrite n req fcap clearDone) := by
  unfold State.islandWrite
  refine .ite hs (.ite hs.updIsland ?_)
  dsimp only
  split
  · exact hs.updIsland.islandRequest
  · exact hs.updIsland

theorem writePlim (hs : SafeState s) {w} : SafeState (s.writePlim w) := hs
theorem writeFar (hs : SafeState s) {size v} : SafeState (s.writeFar size v) := .ite hs.logRec (.ite hs hs)

theorem hashApply (hs : SafeState s) {stack} : SafeState (s.hashApply stack) := by
  unfold State.hashApply
  split
  · exact hs
  · exact .ite hs.updStack (.ite hs.updStack (hs.updStack.of_mem rfl))

theorem noteReserved (hs : SafeState s) {v mask reserved} : SafeState (s.noteReserved v mask reserved) := .ite hs hs.logRec

theorem writeControl (hs : SafeState s) {a v mask} : SafeOption (s.writeControl a v mask) := by
  unfold State.writeControl
  refine .ite hs.noteReserved (.ite (SafeState.ite hs.noteReserved.writePlim hs.noteReserved) (.ite hs.writeFar (.ite hs.writeFar ?_)))
  split
  · exact .map (fun _ => hs.noteReserved.islandWrite) _
  · trivial
  · split
    · exact hs.noteReserved
    · trivial
    · split
      · exact hs.noteReserved
      · trivial
      · split
        · exact .map (fun _ => hs.updStack) _
        · trivial
        · split
          · split
            · trivial
            · refine .ite hs.noteReserved.updStack (.ite hs.noteReserved (.ite ?_ trivial))
              exact SafeState.ite (SafeState.ite hs.noteReserved.updStack hs.noteReserved).hashApply (.ite hs.noteReserved.updStack hs.noteReserved)
          · trivial

theorem storeControl (hs : SafeState s) {th a bs} : SafeState (s.storeControl th a bs) := by
  unfold State.storeControl
  refine hs.foldl fun _ _ hs => ?_
  dsimp only
  split
  · exact hs.writeControl.some ‹_›
  · exact hs.violateBy

theorem releaseTiles (hs : SafeState s) {th} : SafeOption (s.releaseTiles th) := hs.writeBack.mapState fun _ hs => hs.updThread

theorem gateMatrix (hs : SafeState s) {d req} : SafePair (s.gateMatrix d req) := by
  unfold State.gateMatrix
  refine .ite (r := (s, true)) hs (.ite (r := (s, false)) hs (SafePair.foldl (p := (s, true)) hs fun p _ hp => ?_))
  split
  · exact hp
  · split
    · exact hp.state.releaseTiles.some ‹_›
    · exact hp.state.postWriteBackMisses

theorem gateTiles (hs : SafeState s) {d req} : SafePair (s.gateTiles d req) :=
  .ite hs.drainIsland (.ite hs.drainIsland (.ite hs.drainIsland (hs.drainIsland.of_mem rfl)))

theorem endTransition (hs : SafeState s) {n} : SafeState (s.endTransition n) := hs.updIsland

theorem transitionDone (hs : SafeState s) {n} : SafeState (s.transitionDone n) := by
  unfold State.transitionDone
  split
  · exact hs
  · refine .ite hs ?_
    split
    · extract_lets s₁
      have h₁ : SafeState s₁ := hs.endTransition
      exact .ite h₁ h₁
    split
    · split
      next e₁ =>
      split
      next e₂ =>
      have h₂ := (hs.gateTiles.fst e₁).gateMatrix.fst e₂
      exact .ite h₂.endTransition.endTransition h₂
    · refine .ite ?_ (.ite (.ite hs.drainIsland.endTransition hs.drainIsland) hs.endTransition)
      split
      · refine .ite hs ?_
        split
        next e =>
        have h₁ := hs.gateMatrix.fst e
        exact .ite h₁.endTransition h₁
      · exact hs

theorem moveLimits (hs : SafeState s) {ns f} : SafeState (s.moveLimits ns f) := hs.foldl fun _ _ hs => hs.updIsland
theorem throttleDown (hs : SafeState s) : SafeState s.throttleDown := .ite hs.moveLimits (.ite hs.moveLimits (.ite hs hs.moveLimits))
theorem throttleUp (hs : SafeState s) : SafeState s.throttleUp := .ite hs.moveLimits (.ite hs (.ite hs.moveLimits hs.moveLimits))

theorem powerInterval (hs : SafeState s) {r} : SafeState (s.powerInterval r) := by
  unfold State.powerInterval
  extract_lets p low n s₁ s₂ s₃ tel
  have h₁ : SafeState s₁ := hs
  have h₂ : SafeState s₂ := .ite h₁.throttleDown (.ite h₁.throttleUp h₁)
  exact h₂

theorem fastGuard (hs : SafeState s) : SafeState s.fastGuard := by
  unfold State.fastGuard
  extract_lets s₁
  have h₁ : SafeState s₁ := hs.moveLimits
  clear_value s₁
  exact h₁

theorem setHot (hs : SafeState s) {d hot} : SafeState (s.setHot d hot) := SafeState.reclock (by exact hs)

theorem thermalTrip (hs : SafeState s) : SafeState s.thermalTrip := by
  unfold State.thermalTrip
  extract_lets s₁
  have h₁ : SafeState s₁ := hs.foldl fun _ _ hs => hs.linkLost
  clear_value s₁
  exact h₁

theorem islandEvent (hs : SafeState s) {req} : SafeState (islandEvent s req) := by
  unfold Machine.islandEvent
  split
  · exact hs.islandWrite
  · exact hs

theorem execIslctlReqOn (hs : SafeState s) : SafeOutcome (execIslctlReqOn s) := hs.islandEvent
theorem execIslctlReqCgated (hs : SafeState s) : SafeOutcome (execIslctlReqCgated s) := hs.islandEvent
theorem execIslctlReqPgated (hs : SafeState s) : SafeOutcome (execIslctlReqPgated s) := hs.islandEvent
theorem execIslctlReqReserved (hs : SafeState s) : SafeOutcome (execIslctlReqReserved s) := hs.islandEvent

theorem execIslandTransitionDone (hs : SafeState s) : SafeOutcome (execIslandTransitionDone s) := by
  unfold Machine.execIslandTransitionDone
  show SafeState _
  split
  · exact hs.transitionDone
  · exact hs

theorem sidebandRead (hs : SafeState s) {a} : SafeState (sidebandRead s a) := by
  unfold Machine.sidebandRead
  dsimp only
  split <;> exact hs

theorem execPlimWrite (hs : SafeState s) : SafeOutcome (execPlimWrite s) := by
  unfold Machine.execPlimWrite
  show SafeState _
  split
  · exact .ite hs.writePlim hs
  · exact .ite hs.sidebandRead hs
  · exact hs

theorem hostStore (hs : SafeState s) {a v mask} : SafeState (hostStore s a v mask) := by
  unfold Machine.hostStore
  refine .ite hs ?_
  split
  · exact hs.foldl fun _ _ hs => hs.outsidePart
  · exact hs.writeControl.getD hs

theorem execControlRegisterWrite (hs : SafeState s) : SafeOutcome (execControlRegisterWrite s) := by
  unfold Machine.execControlRegisterWrite
  show SafeState _
  split
  · exact hs.hostStore
  · exact hs

theorem execFarTierRegisterWrite (hs : SafeState s) : SafeOutcome (execFarTierRegisterWrite s) := by
  unfold Machine.execFarTierRegisterWrite
  show SafeState _
  split
  · exact .ite hs.writeFar hs
  · exact hs

theorem execRowhctlApply (hs : SafeState s) : SafeOutcome (execRowhctlApply s) := by
  unfold Machine.execRowhctlApply
  show SafeState _
  split
  · exact .ite hs.hashApply hs
  · exact hs

theorem execRowhashApplyDone (hs : SafeState s) : SafeOutcome (execRowhashApplyDone s) := by
  unfold Machine.execRowhashApplyDone
  show SafeState _
  split
  · exact hs.updStack
  · exact hs

theorem execPowerInterval (hs : SafeState s) : SafeOutcome (execPowerInterval s) := by
  unfold Machine.execPowerInterval
  show SafeState _
  split
  · exact hs.powerInterval
  · exact hs

theorem execFastGuard (hs : SafeState s) : SafeOutcome (execFastGuard s) := hs.fastGuard

theorem execThermalLimit (hs : SafeState s) : SafeOutcome (execThermalLimit s) := by
  unfold Machine.execThermalLimit
  show SafeState _
  split
  · exact hs.setHot
  · exact hs

theorem execThermalRelease (hs : SafeState s) : SafeOutcome (execThermalRelease s) := by
  unfold Machine.execThermalRelease
  show SafeState _
  split
  · exact hs.setHot
  · exact hs

theorem execThermalTrip (hs : SafeState s) : SafeOutcome (execThermalTrip s) := hs.thermalTrip

end SafeState

/-! ### The functions of Machine/ControlFlow.lean -/

namespace SafeExec

theorem transferTo {t lpad} : SafeExec (transferTo t lpad) := .bind .me fun _ => .pure

theorem branchBy {disp} : SafeExec (branchBy disp) := by
  unfold Machine.branchBy
  refine .bind .me fun _ => ?_
  split
  · exact .transferTo
  · exact .fault

theorem branchIndirect {x tag} : SafeExec (branchIndirect x tag) := .bind .require fun _ => .transferTo

end SafeExec

namespace SafeState

theorem execNop (hs : SafeState s) {f} : SafeOutcome (execNop f s) := hs.asInstr .pure
theorem execBr (hs : SafeState s) {f} : SafeOutcome (execBr f s) := hs.asInstr .branchBy

theorem execBcmp (hs : SafeState s) {f} : SafeOutcome (execBcmp f s) :=
  hs.asInstr (.bind .readX fun _ => .bind .readX fun _ => .ite .branchBy .pure)

theorem execBri (hs : SafeState s) {f} : SafeOutcome (execBri f s) := hs.asInstr (.bind .readX fun _ => .branchIndirect)

theorem execJt (hs : SafeState s) {f} : SafeOutcome (execJt f s) :=
  hs.asInstr (.bind .readX fun _ => .bind .require fun _ => .bind .load fun _ => .bind .readX fun _ => .bind .require fun _ => .bind .load fun _ =>
      .bind .require fun _ => .transferTo)

theorem execLpad (hs : SafeState s) {f} : SafeOutcome (execLpad f s) := hs.asInstr .pure
theorem setReturns (hs : SafeState s) {row rsp spill} : SafeState (s.setReturns row rsp spill) := hs.pokeWord _ _

end SafeState

namespace SafeExec

theorem pushReturn {v} : SafeExec (pushReturn v) :=
  .bind .myRow fun _ => .get fun _ _ => .bind .require fun _ => .ite (.bind .require fun _ => .bind .store fun _ => .modify fun _ hs =>
      (hs.pokeWord _ _).setReturns) (.modify fun _ hs => (hs.pokeWord _ _).setReturns)

theorem popReturn : SafeExec (popReturn) :=
  .bind .myRow fun _ => .get fun _ _ => .bind .require fun _ => .ite (.bind .require fun _ => .bind .load fun _ => .bind (.modify fun _ hs =>
      (hs.poke _ _).setReturns) fun _ => .pure) (.bind (.modify fun _ hs => hs.setReturns) fun _ => .pure)

theorem returnAddress : SafeExec (returnAddress) := .bind .me fun _ => .pure

end SafeExec

namespace SafeState

theorem execCall (hs : SafeState s) {f} : SafeOutcome (execCall f s) :=
  hs.asInstr (.bind .returnAddress fun _ => .bind .pushReturn fun _ => .branchBy)

theorem execCalli (hs : SafeState s) {f} : SafeOutcome (execCalli f s) :=
  hs.asInstr (.bind .readX fun _ => .bind .returnAddress fun _ => .bind .pushReturn fun _ => .branchIndirect)

theorem execRet (hs : SafeState s) {f} : SafeOutcome (execRet f s) :=
  hs.asInstr (.bind .popReturn fun _ => .bind .require fun _ => .bind .me fun _ => .pure)

theorem execLoop (hs : SafeState s) {f} : SafeOutcome (execLoop f s) :=
  hs.asInstr (.bind .me fun _ => .get fun _ _ => .guard .fault fun _ => .bind .require fun _ => .guard (.modify fun _ hs =>
      (hs.pokeWord _ _).pokeWord _ _) fun _ => .ite (.bind (.modify fun _ hs => hs.pokeWord _ _) fun _ => .pure) (.bind (.modify fun _ hs =>
      hs.pokeWord _ _) fun _ => .ite .pure .pure))

theorem execFsync (hs : SafeState s) {f} : SafeOutcome (execFsync f s) :=
  hs.asInstr (.bind .sbEmpty fun _ => .bind .me fun _ => .bind (.modify fun _ hs => hs.updThread) fun _ => .pure)

end SafeState

namespace SafeExec

theorem predOp {f op} : SafeExec (predOp f op) := .bind .readP fun _ => .bind .readP fun _ => .bind .writeP fun _ => .pure

end SafeExec

namespace SafeState

theorem execPand (hs : SafeState s) {f} : SafeOutcome (execPand f s) := hs.asInstr .predOp
theorem execPor (hs : SafeState s) {f} : SafeOutcome (execPor f s) := hs.asInstr .predOp
theorem execPxor (hs : SafeState s) {f} : SafeOutcome (execPxor f s) := hs.asInstr .predOp
theorem execPnot (hs : SafeState s) {f} : SafeOutcome (execPnot f s) := hs.asInstr (.bind .readP fun _ => .bind .writeP fun _ => .pure)

end SafeState

/-! ### The functions of Machine/Sync.lean -/

namespace SafeState

theorem setSync (hs : SafeState s) {tenant o x} : SafeState (s.setSync tenant o x) := hs

end SafeState

namespace SafeExec

theorem syncName {a} : SafeExec (syncName a) := .get fun _ _ => .bind .myRow fun _ => .bind .require fun _ => .pure
theorem bindRange {va} : SafeExec (bindRange va) := .bind .load fun _ => .bind .require fun _ => .bind .require fun _ => .pure

theorem bindLine {va} : SafeExec (bindLine va) := by
  unfold Machine.bindLine
  refine .bind .plainAddr fun _ => ?_
  split
  exact .pure

end SafeExec

namespace SafeState

theorem execSynBind (hs : SafeState s) {f} : SafeOutcome (execSynBind f s) :=
  hs.asInstr (.bind .readX fun _ => .bind .readX fun _ => .bind .require fun _ => .bind .syncName fun _ => .bind .me fun _ =>
      .bind .require fun _ => .bind (.mapM fun _ => .bindRange) fun _ => .bind (.mapM fun _ => .bindLine) fun _ => .get fun _ hs =>
      .bind (.set hs.setSync) fun _ => .pure)

theorem execSynAcq (hs : SafeState s) {f} : SafeOutcome (execSynAcq f s) :=
  hs.asInstr (.bind .readX fun _ => .bind .readX fun _ => .bind .syncName fun _ => .get fun _ hs => .bind .me fun _ => .bind .require fun _ =>
      .guard .stall fun _ => .bind (.set (hs.foldl fun _ _ hs => hs.advanceView)) fun _ => .bind .writeX fun _ => .pure)

theorem execSynRel (hs : SafeState s) {f} : SafeOutcome (execSynRel f s) :=
  hs.asInstr (.bind .readX fun _ => .bind .syncName fun _ => .get fun _ hs => .bind .me fun _ => .bind .require fun _ => .guard .stall fun _ =>
      .bind (.set hs.setSync) fun _ => .bind .writeX fun _ => .pure)

theorem setDomain (hs : SafeState s) {d} : SafeState (s.setDomain d) := hs

end SafeState

namespace SafeExec

theorem domName {a} : SafeExec (domName a) := .get fun _ _ => .bind .myRow fun _ => .bind .require fun _ => .pure

theorem boundDomain {a} : SafeExec (boundDomain a) := by
  unfold Machine.boundDomain
  refine .bind .domName fun _ => .get fun _ _ => ?_
  split
  · exact .fault
  · exact .pure

theorem memberOf {d} : SafeExec (memberOf d) := by
  unfold Machine.memberOf
  refine .get fun _ _ => .bind .me fun _ => ?_
  split
  · exact .fault
  · exact .ite .pure .fault

theorem domMember {name va} : SafeExec (domMember name va) := by
  unfold Machine.domMember
  refine .get fun _ hs => .bind .me fun _ => .ite .pure ?_
  split
  · exact .pure
  · exact .pure
  · exact .bind (.set hs.violateBy) fun _ => .pure
  · exact .pure

theorem awaitMembers {rows} : SafeExec (awaitMembers rows) := by
  unfold Machine.awaitMembers
  refine .get fun _ hs => .bind .me fun _ => ?_
  split
  · exact .hold (fun _ hs => hs.postMiss)
  · exact .pure

theorem wordTable {base n} : SafeExec (wordTable base n) := .mapM fun _ => .bind .load fun _ => .pure

end SafeExec

namespace SafeState

theorem dropExchanges (hs : SafeState s) {name} : SafeState (dropExchanges s name) := hs

theorem execSynDomBind (hs : SafeState s) {f} : SafeOutcome (execSynDomBind f s) := by
  unfold Machine.execSynDomBind
  refine hs.asInstr (.bind .readX fun _ => .bind .readX fun _ => .bind .domName fun _ => .get fun _ hs => .bind .me fun _ =>
      .bind .require fun _ => .bind .require fun _ => .bind .load fun _ => .ite (.bind (.modify fun _ hs => hs.dropAnswers) fun _ =>
      .bind .writeX fun _ => .pure) ?_)
  refine .ite (.bind (.modify fun _ hs => hs.dropAnswers) fun _ => .bind .writeX fun _ => .pure) (.bind .wordTable fun _ =>
      .bind .wordTable fun _ => .bind .awaitMembers fun _ => .bind (.mapM fun _ => .domMember) fun _ => .ite (.bind (.modify fun _ hs =>
      hs.dropAnswers) fun _ => .bind .writeX fun _ => .pure) (.get fun _ hs => ?_))
  split
  · exact .bind (.modify fun _ hs => hs.dropAnswers) fun _ => .bind .writeX fun _ => .pure
  · exact .bind (.modify fun _ hs => SafeState.dropExchanges (by exact hs)) fun _ => .bind (.modify fun _ hs => hs.dropAnswers) fun _ =>
        .bind .writeX fun _ => .pure

theorem execSynDomUnbind (hs : SafeState s) {f} : SafeOutcome (execSynDomUnbind f s) :=
  hs.asInstr (.bind .readX fun _ => .bind .boundDomain fun _ => .get fun _ hs => .bind .me fun _ => .bind .require fun _ =>
      .bind (.set (SafeState.dropExchanges (by exact hs))) fun _ => .bind .writeX fun _ => .pure)

theorem execSynStep (hs : SafeState s) {f} : SafeOutcome (execSynStep f s) :=
  hs.asInstr (.bind .readX fun _ => .bind .boundDomain fun _ => .bind .memberOf fun _ => .get fun _ hs => .bind .me fun _ => .guard .stall fun _ =>
      .bind .require fun _ => .guard (.hold fun _ hs => hs.setDomain) fun _ => .bind (.set (hs.foldl fun _ _ hs =>
      .ite hs.viewNewest hs).setDomain.updThread) fun _ => .bind .writeX fun _ => .pure)

end SafeState

namespace SafeExec

theorem slotEntry {i} : SafeExec (slotEntry i) := by
  unfold Machine.slotEntry
  refine .get fun _ _ => .bind .me fun _ => ?_
  split
  · exact .fault
  · split
    · exact .fault
    · split
      · exact .fault
      · refine .guard .fault fun _ => ?_
        split
        exact .pure

end SafeExec

namespace SafeState

theorem execSynSend (hs : SafeState s) {f} : SafeOutcome (execSynSend f s) := by
  unfold Machine.execSynSend
  refine hs.asInstr (.bind .readV fun _ => .bind .slotEntry fun _ => ?_)
  split
  exact .get fun _ hs => .bind .require fun _ => .bind .require fun _ => .guard .stall fun _ => .bind (.modify fun _ hs =>
      hs.setDomain) fun _ => .pure

theorem execSynRecv (hs : SafeState s) {f} : SafeOutcome (execSynRecv f s) := by
  unfold Machine.execSynRecv
  refine hs.asInstr (.bind .slotEntry fun _ => ?_)
  split
  · refine .get fun _ hs => .bind .require fun _ => .guard .stall fun _ => ?_
    split
    · exact .fault
    · exact .bind (.modify fun _ hs => hs.setDomain) fun _ => .bind .writeV fun _ => .pure

theorem execSynVote (hs : SafeState s) {f} : SafeOutcome (execSynVote f s) :=
  hs.asInstr (.bind .readX fun _ => .bind .readX fun _ => .bind .boundDomain fun _ => .bind .memberOf fun _ => .bind (.modify fun _ hs =>
      hs.setDomain) fun _ => .pure)

theorem execSynPollab (hs : SafeState s) {f} : SafeOutcome (execSynPollab f s) :=
  hs.asInstr (.bind .readX fun _ => .bind .boundDomain fun _ => .bind .require fun _ => .pure)

theorem execSynAbort (hs : SafeState s) {f} : SafeOutcome (execSynAbort f s) :=
  hs.asInstr (.bind .readX fun _ => .bind .boundDomain fun _ => .bind (.modify fun _ hs => hs.setDomain) fun _ => .pure)

end SafeState

namespace SafeExec

theorem queueName {a} : SafeExec (queueName a) := .bind .require fun _ => .pure

end SafeExec

namespace SafeState

theorem execSynQcfgCreate (hs : SafeState s) {f} : SafeOutcome (execSynQcfgCreate f s) := by
  unfold Machine.execSynQcfgCreate
  refine hs.asInstr (.bind .readX fun _ => .bind .readX fun _ => .bind .queueName fun _ => ?_)
  split
  exact .get fun _ hs => .bind .myRow fun _ => .ite (.bind .writeX fun _ => .pure) (.ite (.bind .writeX fun _ =>
      .pure) (.ite (.bind .writeX fun _ => .pure) (.bind (.set hs) fun _ => .bind .writeX fun _ => .pure)))

theorem execSynQcfgDel (hs : SafeState s) {f} : SafeOutcome (execSynQcfgDel f s) := by
  unfold Machine.execSynQcfgDel
  refine hs.asInstr (.bind .readX fun _ => .bind .queueName fun _ => ?_)
  split
  · refine .get fun _ hs => .bind .myRow fun _ => ?_
    dsimp only
    split
    · exact .bind .writeX fun _ => .pure
    · exact .ite (.bind .writeX fun _ => .pure) (.bind (.set hs) fun _ => .bind .writeX fun _ => .pure)

end SafeState

/-! ### The functions of Machine/Engines.lean -/

namespace SafeExec

theorem context {w} : SafeExec (context w) := .get fun _ _ => .bind .myRow fun _ => .bind .require fun _ => .pure
theorem contextUp {k} : SafeExec (contextUp k) := .get fun _ _ => .ite .stall .pure
theorem contextRoom {k} : SafeExec (contextRoom k) := .bind .contextUp fun _ => .get fun _ _ => .bind .me fun _ => .ite .stall .pure

theorem appendCommand {k c wrote} : SafeExec (appendCommand k c wrote) :=
  .get fun _ hs => .bind .me fun _ => .bind (.set hs.setCtx.dropNoMapping) fun _ => .pure

theorem submitLines {f kind alignSrc} : SafeExec (submitLines f kind alignSrc) :=
  .bind .readX fun _ => .bind .readX fun _ => .bind .readX fun _ => .bind .require fun _ => .bind .require fun _ => .bind .context fun _ =>
      .bind .sbEmpty fun _ => .bind .contextRoom fun _ => .bind .appendCommand fun _ => .bind .writeX fun _ => .pure

end SafeExec

namespace SafeState

theorem execCeCopy (hs : SafeState s) {f} : SafeOutcome (execCeCopy f s) := hs.asInstr .submitLines
theorem execCeFill (hs : SafeState s) {f} : SafeOutcome (execCeFill f s) := hs.asInstr .submitLines
theorem execDecStrm (hs : SafeState s) {f} : SafeOutcome (execDecStrm f s) := hs.asInstr .submitLines

end SafeState

namespace SafeExec

theorem gatherChecks {d} : SafeExec (gatherChecks d) := .bind .require fun _ => .bind .require fun _ => .bind .require fun _ => .require

theorem gatherUnit {f kind k ls} : SafeExec (gatherUnit f kind k ls) :=
  .bind .load fun _ => .bind .me fun _ => .ite (.bind (.modify fun _ hs => hs.updThread.setCtrl) fun _ => .pure) (.bind .appendCommand fun _ =>
      .bind (.modify fun _ hs => hs.updThread.setCtrl) fun _ => .bind .writeX fun _ => .pure)

theorem submitGather {f kind} : SafeExec (submitGather f kind) := by
  unfold Machine.submitGather
  refine .bind .readX fun _ => .bind .readX fun _ => .bind .require fun _ => .bind .context fun _ => .bind .sbEmpty fun _ => .bind .me fun _ =>
      .get fun _ _ => ?_
  split
  · exact .bind .gatherChecks fun _ => .bind .contextUp fun _ => .gatherUnit
  · exact .bind .load fun _ => .bind .gatherChecks fun _ => .bind .contextRoom fun _ => .gatherUnit

end SafeExec

namespace SafeState

theorem execCeGath (hs : SafeState s) {f} : SafeOutcome (execCeGath f s) := hs.asInstr .submitGather
theorem execCeScat (hs : SafeState s) {f} : SafeOutcome (execCeScat f s) := hs.asInstr .submitGather

theorem execCeCtxRead (hs : SafeState s) {f} : SafeOutcome (execCeCtxRead f s) :=
  hs.asInstr (.bind .readX fun _ => .bind .context fun _ => .get fun _ _ => .bind .writeX fun _ => .pure)

theorem execCeCtxRing (hs : SafeState s) {f} : SafeOutcome (execCeCtxRing f s) := by
  unfold Machine.execCeCtxRing
  refine hs.asInstr (.bind .readX fun _ => .bind .readX fun _ => .bind .context fun _ => .bind .require fun _ => .bind .plainAddr fun _ => ?_)
  split
  exact .get fun _ hs => .bind .require fun _ => .bind (.set hs.setCtx) fun _ => .bind .writeX fun _ => .pure

theorem execCeCtxRetry (hs : SafeState s) {f} : SafeOutcome (execCeCtxRetry f s) := by
  unfold Machine.execCeCtxRetry
  refine hs.asInstr (.bind .readX fun _ => .bind .context fun _ => .get fun _ hs => ?_)
  refine .bind (.set ?_) fun _ => .bind .writeX fun _ => .pure
  split
  · exact hs.setCtx.dropNoMapping
  · exact hs.setCtx

theorem execCeCtxClr (hs : SafeState s) {f} : SafeOutcome (execCeCtxClr f s) :=
  hs.asInstr (.bind .readX fun _ => .bind .context fun _ => .get fun _ hs => .bind (.set hs.setCtx) fun _ => .bind .writeX fun _ => .pure)

theorem execCeCancel (hs : SafeState s) {f} : SafeOutcome (execCeCancel f s) := by
  unfold Machine.execCeCancel
  refine hs.asInstr (.bind .readX fun _ => .bind .readX fun _ => .bind .context fun _ => .get fun _ hs => ?_)
  refine .bind (.set ?_) fun _ => .bind .writeX fun _ => .pure
  split
  · exact .ite hs.setCtx hs.setCtx.dropAccesses.dropNoMapping
  · exact hs.setCtx

theorem execDecLoad (hs : SafeState s) {f} : SafeOutcome (execDecLoad f s) :=
  hs.asInstr (.bind .readX fun _ => .bind .readX fun _ => .bind .require fun _ => .bind .context fun _ => .bind .sbEmpty fun _ =>
      .bind .contextRoom fun _ => .bind .appendCommand fun _ => .bind .writeX fun _ => .pure)

theorem execSynTlTl (hs : SafeState s) {f} : SafeOutcome (execSynTlTl f s) :=
  hs.asInstr (.bind .readX fun _ => .bind .context fun _ => .get fun _ _ => .bind .writeX fun _ => .pure)

theorem execSynTlSub (hs : SafeState s) {f} : SafeOutcome (execSynTlSub f s) :=
  hs.asInstr (.bind .readX fun _ => .bind .context fun _ => .get fun _ _ => .bind .writeX fun _ => .pure)

theorem execSynTlFl (hs : SafeState s) {f} : SafeOutcome (execSynTlFl f s) :=
  hs.asInstr (.bind .readX fun _ => .bind .context fun _ => .get fun _ _ => .bind .writeX fun _ => .pure)

theorem execSynTlMark (hs : SafeState s) {f} : SafeOutcome (execSynTlMark f s) :=
  hs.asInstr (.bind .readX fun _ => .bind .context fun _ => .get fun _ _ => .bind .me fun _ => .guard .stall fun _ => .bind .contextRoom fun _ =>
      .bind .appendCommand fun _ => .bind .writeX fun _ => .pure)

theorem importWrote (hs : SafeState s) {id x n} : SafeState (importWrote s id x n) := hs.foldl fun _ _ hs => .ite hs.advanceView hs

theorem execSynWtl (hs : SafeState s) {f} : SafeOutcome (execSynWtl f s) :=
  hs.asInstr (.bind .readX fun _ => .bind .readX fun _ => .bind .context fun _ => .get fun _ hs => .bind .me fun _ =>
      .ite (.bind (.set hs.importWrote) fun _ => .bind .writeX fun _ => .pure) (.ite (.bind .writeX fun _ => .pure) .stall))

theorem execComplete (hs : SafeState s) : SafeOutcome (execComplete s) := by
  unfold Machine.execComplete
  show SafeState _
  split
  · dsimp only
    split
    · exact hs
    · exact .ite hs hs.setCtx
  · exact hs

theorem execEngacc (hs : SafeState s) : SafeOutcome (execEngacc s) := by
  unfold Machine.execEngacc
  show SafeState _
  split
  · exact hs.engAccess
  · exact hs.engAccess
  · exact hs

end SafeState

/-! ### The functions of Machine/Integer.lean -/

namespace SafeExec

theorem aluFA {f op} : SafeExec (aluFA f op) := .bind .queuesReady fun _ => .bind .src fun _ => .bind .src fun _ => .bind .dst fun _ => .pure
theorem aluUnary {f op} : SafeExec (aluUnary f op) := .bind .queuesReady fun _ => .bind .src fun _ => .bind .dst fun _ => .pure
theorem aluFI {f operand op} : SafeExec (aluFI f operand op) := .bind .queuesReady fun _ => .bind .src fun _ => .bind .dst fun _ => .pure

end SafeExec

namespace SafeState

theorem execAddFa (hs : SafeState s) {f} : SafeOutcome (execAddFa f s) := hs.asInstr .aluFA
theorem execAddFi (hs : SafeState s) {f} : SafeOutcome (execAddFi f s) := hs.asInstr .aluFI
theorem execSub (hs : SafeState s) {f} : SafeOutcome (execSub f s) := hs.asInstr .aluFA
theorem execAndFa (hs : SafeState s) {f} : SafeOutcome (execAndFa f s) := hs.asInstr .aluFA
theorem execAndFi (hs : SafeState s) {f} : SafeOutcome (execAndFi f s) := hs.asInstr .aluFI
theorem execOrFa (hs : SafeState s) {f} : SafeOutcome (execOrFa f s) := hs.asInstr .aluFA
theorem execOrFi (hs : SafeState s) {f} : SafeOutcome (execOrFi f s) := hs.asInstr .aluFI
theorem execXorFa (hs : SafeState s) {f} : SafeOutcome (execXorFa f s) := hs.asInstr .aluFA
theorem execXorFi (hs : SafeState s) {f} : SafeOutcome (execXorFi f s) := hs.asInstr .aluFI
theorem execAndn (hs : SafeState s) {f} : SafeOutcome (execAndn f s) := hs.asInstr .aluFA
theorem execMinFa (hs : SafeState s) {f} : SafeOutcome (execMinFa f s) := hs.asInstr .aluFA
theorem execMinFi (hs : SafeState s) {f} : SafeOutcome (execMinFi f s) := hs.asInstr .aluFI
theorem execMaxFa (hs : SafeState s) {f} : SafeOutcome (execMaxFa f s) := hs.asInstr .aluFA
theorem execMaxFi (hs : SafeState s) {f} : SafeOutcome (execMaxFi f s) := hs.asInstr .aluFI
theorem execMinuFa (hs : SafeState s) {f} : SafeOutcome (execMinuFa f s) := hs.asInstr .aluFA
theorem execMinuFi (hs : SafeState s) {f} : SafeOutcome (execMinuFi f s) := hs.asInstr .aluFI
theorem execMaxuFa (hs : SafeState s) {f} : SafeOutcome (execMaxuFa f s) := hs.asInstr .aluFA
theorem execMaxuFi (hs : SafeState s) {f} : SafeOutcome (execMaxuFi f s) := hs.asInstr .aluFI
theorem execAdds (hs : SafeState s) {f} : SafeOutcome (execAdds f s) := hs.asInstr .aluFA
theorem execSubs (hs : SafeState s) {f} : SafeOutcome (execSubs f s) := hs.asInstr .aluFA

end SafeState

namespace SafeExec

theorem cmpWith {d w cc a b} : SafeExec (cmpWith d w cc a b) := .bind .writeP fun _ => .pure

end SafeExec

namespace SafeState

theorem execCmpFa (hs : SafeState s) {f} : SafeOutcome (execCmpFa f s) :=
  hs.asInstr (.bind .queuesReady fun _ => .bind .src fun _ => .bind .src fun _ => .cmpWith)

theorem execCmpFi (hs : SafeState s) {f} : SafeOutcome (execCmpFi f s) := hs.asInstr (.bind .queuesReady fun _ => .bind .src fun _ => .cmpWith)

theorem execSel (hs : SafeState s) {f} : SafeOutcome (execSel f s) :=
  hs.asInstr (.bind .queuesReady fun _ => .bind .src fun _ => .bind .src fun _ => .bind .readP fun _ => .bind .dst fun _ => .pure)

theorem execMovFa (hs : SafeState s) {f} : SafeOutcome (execMovFa f s) := hs.asInstr .aluUnary
theorem execMovFi (hs : SafeState s) {f} : SafeOutcome (execMovFi f s) := hs.asInstr (.bind .queuesReady fun _ => .bind .dst fun _ => .pure)
theorem execMovhi (hs : SafeState s) {f} : SafeOutcome (execMovhi f s) := hs.asInstr (.bind .readX fun _ => .bind .writeX fun _ => .pure)

theorem execLea (hs : SafeState s) {f} : SafeOutcome (execLea f s) :=
  hs.asInstr (.bind .readX fun _ => .bind .readX fun _ => .bind .readX fun _ => .bind .writeX fun _ => .pure)

theorem execRowa (hs : SafeState s) {f} : SafeOutcome (execRowa f s) := by
  unfold Machine.execRowa
  refine hs.asInstr (.bind .readX fun _ => .bind .readX fun _ => ?_)
  split
  exact .bind .writeX fun _ => .pure

theorem execMulFa (hs : SafeState s) {f} : SafeOutcome (execMulFa f s) := hs.asInstr .aluFA
theorem execMulFi (hs : SafeState s) {f} : SafeOutcome (execMulFi f s) := hs.asInstr .aluFI
theorem execMulh (hs : SafeState s) {f} : SafeOutcome (execMulh f s) := hs.asInstr .aluFA
theorem execMulhu (hs : SafeState s) {f} : SafeOutcome (execMulhu f s) := hs.asInstr .aluFA
theorem execDiv (hs : SafeState s) {f} : SafeOutcome (execDiv f s) := hs.asInstr .aluFA
theorem execDivu (hs : SafeState s) {f} : SafeOutcome (execDivu f s) := hs.asInstr .aluFA
theorem execRem (hs : SafeState s) {f} : SafeOutcome (execRem f s) := hs.asInstr .aluFA
theorem execRemu (hs : SafeState s) {f} : SafeOutcome (execRemu f s) := hs.asInstr .aluFA
theorem execMuls (hs : SafeState s) {f} : SafeOutcome (execMuls f s) := hs.asInstr .aluFA
theorem execShlFa (hs : SafeState s) {f} : SafeOutcome (execShlFa f s) := hs.asInstr .aluFA
theorem execShlFi (hs : SafeState s) {f} : SafeOutcome (execShlFi f s) := hs.asInstr .aluFI
theorem execShrFa (hs : SafeState s) {f} : SafeOutcome (execShrFa f s) := hs.asInstr .aluFA
theorem execShrFi (hs : SafeState s) {f} : SafeOutcome (execShrFi f s) := hs.asInstr .aluFI
theorem execSraFa (hs : SafeState s) {f} : SafeOutcome (execSraFa f s) := hs.asInstr .aluFA
theorem execSraFi (hs : SafeState s) {f} : SafeOutcome (execSraFi f s) := hs.asInstr .aluFI
theorem execRolFa (hs : SafeState s) {f} : SafeOutcome (execRolFa f s) := hs.asInstr .aluFA
theorem execRolFi (hs : SafeState s) {f} : SafeOutcome (execRolFi f s) := hs.asInstr .aluFI
theorem execRorFa (hs : SafeState s) {f} : SafeOutcome (execRorFa f s) := hs.asInstr .aluFA
theorem execRorFi (hs : SafeState s) {f} : SafeOutcome (execRorFi f s) := hs.asInstr .aluFI

end SafeState

namespace SafeExec

theorem aluField {f} : SafeExec (aluField f) := .bind .queuesReady fun _ => .bind .src fun _ => .bind .src fun _ => .bind .dst fun _ => .pure

end SafeExec

namespace SafeState

theorem execBextFa (hs : SafeState s) {f} : SafeOutcome (execBextFa f s) := hs.asInstr .aluField
theorem execBextFi (hs : SafeState s) {f} : SafeOutcome (execBextFi f s) := hs.asInstr .aluFI

theorem execBinsFa (hs : SafeState s) {f} : SafeOutcome (execBinsFa f s) :=
  hs.asInstr (.bind .queuesReady fun _ => .bind .src fun _ => .bind .src fun _ => .bind .readX fun _ => .bind .dst fun _ => .pure)

theorem execBinsFi (hs : SafeState s) {f} : SafeOutcome (execBinsFi f s) :=
  hs.asInstr (.bind .queuesReady fun _ => .bind .src fun _ => .bind .readX fun _ => .bind .dst fun _ => .pure)

theorem execPopc (hs : SafeState s) {f} : SafeOutcome (execPopc f s) := hs.asInstr .aluUnary
theorem execClz (hs : SafeState s) {f} : SafeOutcome (execClz f s) := hs.asInstr .aluUnary
theorem execCtz (hs : SafeState s) {f} : SafeOutcome (execCtz f s) := hs.asInstr .aluUnary

end SafeState

/-! ### The functions of Machine/Vector.lean -/

namespace SafeExec

theorem vop2 {f g} : SafeExec (vop2 f g) := .bind .vsrc fun _ => .bind .vsrc fun _ => .bind .writeV fun _ => .pure
theorem vop1 {f g} : SafeExec (vop1 f g) := .bind .vsrc fun _ => .bind .writeV fun _ => .pure
theorem vop3 {f g} : SafeExec (vop3 f g) := .bind .vsrc fun _ => .bind .vsrc fun _ => .bind .vsrc fun _ => .bind .writeV fun _ => .pure

end SafeExec

namespace SafeState

theorem execVadd (hs : SafeState s) {f} : SafeOutcome (execVadd f s) := hs.asInstr .vop2
theorem execVsub (hs : SafeState s) {f} : SafeOutcome (execVsub f s) := hs.asInstr .vop2
theorem execVmul (hs : SafeState s) {f} : SafeOutcome (execVmul f s) := hs.asInstr .vop2
theorem execVfma (hs : SafeState s) {f} : SafeOutcome (execVfma f s) := hs.asInstr .vop3
theorem execVmin (hs : SafeState s) {f} : SafeOutcome (execVmin f s) := hs.asInstr .vop2
theorem execVmax (hs : SafeState s) {f} : SafeOutcome (execVmax f s) := hs.asInstr .vop2
theorem execVabs (hs : SafeState s) {f} : SafeOutcome (execVabs f s) := hs.asInstr .vop1
theorem execVneg (hs : SafeState s) {f} : SafeOutcome (execVneg f s) := hs.asInstr .vop1
theorem execVrcp (hs : SafeState s) {f} : SafeOutcome (execVrcp f s) := hs.asInstr .vop1
theorem execVrsq (hs : SafeState s) {f} : SafeOutcome (execVrsq f s) := hs.asInstr .vop1
theorem execVexp (hs : SafeState s) {f} : SafeOutcome (execVexp f s) := hs.asInstr .vop1
theorem execVlog (hs : SafeState s) {f} : SafeOutcome (execVlog f s) := hs.asInstr .vop1
theorem execVand (hs : SafeState s) {f} : SafeOutcome (execVand f s) := hs.asInstr .vop2
theorem execVor (hs : SafeState s) {f} : SafeOutcome (execVor f s) := hs.asInstr .vop2
theorem execVxor (hs : SafeState s) {f} : SafeOutcome (execVxor f s) := hs.asInstr .vop2
theorem execVshl (hs : SafeState s) {f} : SafeOutcome (execVshl f s) := hs.asInstr .vop2
theorem execVshr (hs : SafeState s) {f} : SafeOutcome (execVshr f s) := hs.asInstr .vop2
theorem execVsra (hs : SafeState s) {f} : SafeOutcome (execVsra f s) := hs.asInstr .vop2

theorem execVcmp (hs : SafeState s) {f} : SafeOutcome (execVcmp f s) :=
  hs.asInstr (.bind .vsrc fun _ => .bind .vsrc fun _ => .bind .writeV fun _ => .guard .writeP fun _ => .pure)

theorem execVsel (hs : SafeState s) {f} : SafeOutcome (execVsel f s) := hs.asInstr .vop3
theorem execVadds (hs : SafeState s) {f} : SafeOutcome (execVadds f s) := hs.asInstr .vop2
theorem execVsubs (hs : SafeState s) {f} : SafeOutcome (execVsubs f s) := hs.asInstr .vop2
theorem execVmulh (hs : SafeState s) {f} : SafeOutcome (execVmulh f s) := hs.asInstr .vop2

theorem execVcvt (hs : SafeState s) {f} : SafeOutcome (execVcvt f s) :=
  hs.asInstr (.bind .vsrc fun _ => .bind .readV fun _ => .bind .writeV fun _ => .pure)

theorem execVpack (hs : SafeState s) {f} : SafeOutcome (execVpack f s) :=
  hs.asInstr (.bind .vsrc fun _ => .bind .vsrc fun _ => .bind .writeV fun _ => .pure)

theorem execVbcast (hs : SafeState s) {f} : SafeOutcome (execVbcast f s) := hs.asInstr (.bind .vsrc fun _ => .bind .writeV fun _ => .pure)

theorem execVperm (hs : SafeState s) {f} : SafeOutcome (execVperm f s) :=
  hs.asInstr (.bind .vsrc fun _ => .bind .vsrc fun _ => .bind .writeV fun _ => .pure)

theorem execVrot (hs : SafeState s) {f} : SafeOutcome (execVrot f s) :=
  hs.asInstr (.bind .vsrc fun _ => .bind .readX fun _ => .bind .writeV fun _ => .pure)

theorem execVzip (hs : SafeState s) {f} : SafeOutcome (execVzip f s) :=
  hs.asInstr (.bind .vsrc fun _ => .bind .vsrc fun _ => .bind .writeV fun _ => .pure)

theorem execVunzip (hs : SafeState s) {f} : SafeOutcome (execVunzip f s) :=
  hs.asInstr (.bind .vsrc fun _ => .bind .vsrc fun _ => .bind .writeV fun _ => .pure)

theorem execVins (hs : SafeState s) {f} : SafeOutcome (execVins f s) :=
  hs.asInstr (.bind .readX fun _ => .bind .readV fun _ => .bind .writeV fun _ => .pure)

theorem execVmovx (hs : SafeState s) {f} : SafeOutcome (execVmovx f s) := hs.asInstr (.bind .vsrc fun _ => .bind .writeX fun _ => .pure)

end SafeState

namespace SafeExec

theorem reduction {f k} : SafeExec (reduction f k) :=
  .bind .myRow fun _ => .get fun _ _ => .ite (.bind .vsrc fun _ => .bind .readV fun _ => .bind .writeV fun _ => .ite (.bind (.modify fun _ hs =>
      hs.setCtrl) fun _ => .pure) (.ite (.bind .readV fun _ => .bind .writeV fun _ => .bind (.modify fun _ hs => .ite hs hs.setCtrl) fun _ =>
      .pure) (.bind (.modify fun _ hs => .ite hs hs.setCtrl) fun _ => .pure))) (.ite (.bind (.modify fun _ hs => hs.setCtrl) fun _ =>
      .pure) (.ite (.bind .readV fun _ => .bind .writeV fun _ => .bind (.modify fun _ hs => .ite hs hs.setCtrl) fun _ =>
      .pure) (.bind (.modify fun _ hs => .ite hs hs.setCtrl) fun _ => .pure)))

end SafeExec

namespace SafeState

theorem execVrsum (hs : SafeState s) {f} : SafeOutcome (execVrsum f s) := hs.asInstr .reduction
theorem execVrmax (hs : SafeState s) {f} : SafeOutcome (execVrmax f s) := hs.asInstr .reduction
theorem execVrmin (hs : SafeState s) {f} : SafeOutcome (execVrmin f s) := hs.asInstr .reduction
theorem execVscan (hs : SafeState s) {f} : SafeOutcome (execVscan f s) := hs.asInstr (.bind .vsrc fun _ => .bind .writeV fun _ => .pure)

theorem execVqnt (hs : SafeState s) {f} : SafeOutcome (execVqnt f s) :=
  hs.asInstr (.bind .vsrc fun _ => .bind .readX fun _ => .bind .readV fun _ => .bind .writeV fun _ => .pure)

theorem execVdqnt (hs : SafeState s) {f} : SafeOutcome (execVdqnt f s) :=
  hs.asInstr (.bind .vsrc fun _ => .bind .readX fun _ => .bind .writeV fun _ => .pure)

theorem execVbscale (hs : SafeState s) {f} : SafeOutcome (execVbscale f s) :=
  hs.asInstr (.bind .vsrc fun _ => .bind .vsrc fun _ => .bind .writeV fun _ => .pure)

end SafeState

/-! ### The functions of Machine/Fship.lean -/

namespace SafeState

theorem doShip (hs : SafeState s) {id a b c bound body} : SafeFirst (s.doShip id a b c bound body) := by
  unfold State.doShip
  refine .ite trivial ?_
  split
  · split
    · exact hs.landStore.viewNewest.noteWrote
    · exact hs.viewNewest

theorem applyShip (hs : SafeState s) {id} : SafeState (s.applyShip id) := by
  unfold State.applyShip
  split
  · exact hs
  · split
    · extract_lets s₁ s₂ s₃
      have h₁ : SafeState s₁ := hs.showClose.doomGroups
      have h₃ : SafeState s₃ := SafeState.updThread (by exact h₁)
      split
      · exact h₃.answer
      · exact (h₃.doShip.some ‹_›).countFor.answer
    · exact hs

theorem execFship (hs : SafeState s) {f} : SafeOutcome (execFship f s) := by
  unfold Machine.execFship
  refine hs.asInstr (.bind .readX fun _ => .bind .readX fun _ => .bind .readX fun _ => .bind .require fun _ => .bind .sbEmpty fun _ =>
      .bind .plainAddr fun _ => ?_)
  split
  · refine .get fun _ hs => .bind .me fun _ => .bind .require fun _ => ?_
    refine .bind (.bind .answered fun _ => ?_) fun _ => .bind .writeX fun _ => .pure
    split
    · exact .pure
    · exact .fault
    · refine .bind .require fun _ => .guard .checkHold fun _ => .ite (.ask fun _ hs => hs.noteBankWindow.queueOn) ?_
      dsimp only
      split
      · refine .bind .reachRow fun _ => .bind (.modify fun _ hs => hs.noteBankWindow.countWindow) fun _ => .get fun _ hs => ?_
        split
        · exact .fault
        · exact .bind (.set (hs.doShip.some ‹_›)) fun _ => .pure
      · refine .get fun _ hs => ?_
        split
        · exact .fault
        · exact .bind (.set (hs.doShip.some ‹_›)) fun _ => .pure

end SafeState

/-! ### The functions of Machine/Matrix.lean -/

namespace SafeExec

theorem matrixReady {ks} : SafeExec (matrixReady ks) :=
  .get fun _ _ => .bind .me fun _ => .guard .stall fun _ => .guard .stall fun _ => .ite .stall .pure

theorem accDefined {k} : SafeExec (accDefined k) := .get fun _ _ => .bind .myRow fun _ => .require

end SafeExec

namespace SafeState

theorem takeTile (hs : SafeState s) {cluster} : SafeOption (takeTile s cluster) := by
  unfold Machine.takeTile
  split
  · exact hs
  · exact hs.writeBack.mapState fun _ hs => hs.updThread

end SafeState

namespace SafeExec

theorem bindTile {k} : SafeExec (bindTile k) := by
  unfold Machine.bindTile
  refine .get fun _ hs => .bind .me fun _ => .ite .pure ?_
  split
  · exact .set (hs.takeTile.some ‹_›)
  · split
    · exact .hold (fun _ hs => hs.postWriteBackMisses)
    · exact .pure

theorem restoreLine {base k j code} : SafeExec (restoreLine base k j code) := by
  unfold Machine.restoreLine
  split
  · exact .pure
  · exact .bind .load fun _ => .pure
  · exact .bind .load fun _ => .pure
  · exact .fault

theorem restoring {α : Type} {k} {m : Exec α} (hm : SafeExec m) : SafeExec (restoring k m) := by
  intro s hs
  have h := hm s hs
  show SafeResult (Machine.restoring k m s)
  unfold Machine.restoring
  split
  · next e => rw [StateT.run, e] at h; exact h
  · exact h

theorem restoreAcc {k} : SafeExec (restoreAcc k) := by
  refine .restoring (.get fun _ _ => .bind .myRow fun _ => ?_)
  extract_lets base
  clear_value base
  refine .mapFault (.bind .load fun _ => ?_) fun _ _ _ => trivial
  extract_lets w
  clear_value w
  refine .bind .require fun _ => .bind .load fun _ => ?_
  extract_lets cw codes
  clear_value cw
  clear_value codes
  exact .bind (.mapM fun _ => .restoreLine) fun _ => .pure

theorem readAcc {k} : SafeExec (readAcc k) :=
  .bind .bindTile fun _ => .bind .me fun _ => .ite (.bind .pure fun _ => .get fun _ hs => .bind (.set (SafeState.updThread (by exact hs))) fun _ =>
      .pure) (.bind .restoreAcc fun _ => .get fun _ hs => .bind (.set (SafeState.updThread (by exact hs))) fun _ => .pure)

theorem inArithmetic {rs} : SafeExec (inArithmetic rs) := .bind .me fun _ => .modify fun _ hs => hs.updThread

theorem mmaBlocks {f k a b} : SafeExec (mmaBlocks f k a b) :=
  .bind .readAcc fun _ => .ite (.bind (.mapM fun _ => .loadLines) fun _ => .bind (.mapM fun _ => .loadLines) fun _ => .bind .inArithmetic fun _ =>
      .pure) (.bind .loadLines fun _ => .bind .loadLines fun _ => .bind .inArithmetic fun _ => .pure)

end SafeExec

namespace SafeState

theorem execMMma (hs : SafeState s) {f} : SafeOutcome (execMMma f s) :=
  hs.asInstr (.bind .matrixReady fun _ => .bind .readX fun _ => .bind .readX fun _ => .bind .require fun _ => .bind .require fun _ =>
      .bind .accDefined fun _ => .ite .mmaBlocks (.bind .readAcc fun _ => .bind (.mapM fun _ => .loadLines) fun _ => .bind (.mapM fun _ =>
      .loadLines) fun _ => .bind .inArithmetic fun _ => .pure))

end SafeState

namespace SafeExec

theorem gatherRows {f a len} : SafeExec (gatherRows f a len) :=
  .bind .readV fun _ => .bind .readV fun _ => .mapM fun _ => .ite .pure (.bind .loadLines fun _ => .pure)

end SafeExec

namespace SafeState

theorem execMMmag (hs : SafeState s) {f} : SafeOutcome (execMMmag f s) :=
  hs.asInstr (.bind .matrixReady fun _ => .bind .readX fun _ => .bind .readX fun _ => .bind .require fun _ => .bind .require fun _ =>
      .bind .accDefined fun _ => .bind .readAcc fun _ => .bind .gatherRows fun _ => .bind (.mapM fun _ => .loadLines) fun _ =>
      .bind .inArithmetic fun _ => .pure)

end SafeState

namespace SafeExec

theorem rowsInBlock {d len} : SafeExec (rowsInBlock d len) := .bind (.forIn fun _ _ => .bind .inBlock fun _ => .pure) fun _ => .pure
theorem storeRows {d len rows} : SafeExec (storeRows d len rows) := .bind (.forIn fun _ _ => .bind .store fun _ => .pure) fun _ => .pure

end SafeExec

namespace SafeState

theorem execMGath (hs : SafeState s) {f} : SafeOutcome (execMGath f s) :=
  hs.asInstr (.bind .matrixReady fun _ => .bind .readX fun _ => .bind .readX fun _ => .bind .require fun _ => .bind .rowsInBlock fun _ =>
      .bind .gatherRows fun _ => .bind .storeRows fun _ => .pure)

end SafeState

namespace SafeExec

theorem mvsBatch {b nb len} : SafeExec (mvsBatch b nb len) :=
  .bind .me fun _ => .ite (.bind .pure fun _ => .guard (.modify fun _ hs => hs.updThread) fun _ => .pure) (.bind .loadLines fun _ =>
      .guard (.modify fun _ hs => hs.updThread) fun _ => .pure)

end SafeExec

namespace SafeState

theorem execMMvs (hs : SafeState s) {f} : SafeOutcome (execMMvs f s) := by
  refine hs.asInstr (.bind .matrixReady fun _ => .bind .readX fun _ => .bind .readX fun _ => .bind .require fun _ => .guard .require fun _ =>
    .bind .accDefined fun _ => ?_)
  extract_lets jp
  have hj (counter : Option Nat) : SafeExec (jp counter) := by
    unfold jp
    extract_lets jp'
    have hj' (u : Unit) : SafeExec (jp' u) := by
      refine .bind .readAcc fun _ => .bind .mvsBatch fun _ => .bind (.mapM fun _ => .vsrc) fun _ => .bind .myRow fun _ => .get fun _ _ =>
        .bind .me fun _ => .bind (.modify fun _ hs => hs.updThread) fun _ => .guard (.modify fun _ hs => hs.setAccStatus) fun _ =>
        .ite (.bind (.modify fun _ hs => hs.setCtrl) fun _ => .pure) (.bind (.modify fun _ hs => ?_) fun _ => .pure)
      extract_lets s₁
      have h₁ : SafeState s₁ := hs.setCtrl.updThread
      split
      · exact .ite h₁.queueOn h₁.counterMove
      · exact h₁
    split
    · exact .bind .reachRow hj'
    · exact hj' ⟨⟩
  exact .ite (.bind .pure hj) (.bind .counterAddr fun _ => .bind .pure hj)

theorem execMSacc (hs : SafeState s) {f} : SafeOutcome (execMSacc f s) :=
  hs.asInstr (.bind .matrixReady fun _ => .bind .accDefined fun _ => .bind .accDefined fun _ => .bind .readX fun _ => .bind .readAcc fun _ =>
      .bind .readAcc fun _ => .bind .myRow fun _ => .get fun _ _ => .bind (.modify fun _ hs => hs.setAccStatus) fun _ =>
      .ite (.bind (.modify fun _ hs => hs.setAccStatus) fun _ => .bind .inArithmetic fun _ => .pure) (.bind .inArithmetic fun _ => .pure))

end SafeState

namespace SafeExec

theorem firstDefine : SafeExec (firstDefine) := .get fun _ _ => .bind .myRow fun _ => .ite .require .pure

theorem nameAcc {k} : SafeExec (nameAcc k) := by
  unfold Machine.nameAcc
  refine .get fun _ _ => .bind .me fun _ => .ite ?_ .pure
  exact .bind .readAcc fun _ => .pure

theorem defineAcc {k a} : SafeExec (defineAcc k a) := by
  refine .bind .bindTile fun _ => .bind .myRow fun _ => .bind .me fun _ => .get fun _ hs => ?_
  extract_lets s₁
  have h₁ : SafeState s₁ := hs.setAccStatus
  exact .bind (.set (SafeState.updThread (by exact h₁))) fun _ => .inArithmetic

end SafeExec

namespace SafeState

theorem execMZero (hs : SafeState s) {f} : SafeOutcome (execMZero f s) :=
  hs.asInstr (.bind .matrixReady fun _ => .bind .firstDefine fun _ => .bind .nameAcc fun _ => .bind .defineAcc fun _ => .pure)

theorem execMLdacc (hs : SafeState s) {f} : SafeOutcome (execMLdacc f s) :=
  hs.asInstr (.bind .matrixReady fun _ => .bind .readX fun _ => .bind .require fun _ => .ite (.bind .accDefined fun _ => .bind (.mapM fun _ =>
      .loadLines) fun _ => .ite (.bind .readAcc fun _ => .bind .myRow fun _ => .bind (.modify fun _ hs => hs.setAccStatus) fun _ =>
      .bind .inArithmetic fun _ => .pure) (.bind .me fun _ => .bind .defineAcc fun _ => .pure)) (.bind .firstDefine fun _ =>
      .bind .nameAcc fun _ => .bind (.mapM fun _ => .loadLines) fun _ => .ite (.bind .readAcc fun _ => .bind .myRow fun _ =>
      .bind (.modify fun _ hs => hs.setAccStatus) fun _ => .bind .inArithmetic fun _ => .pure) (.bind .me fun _ => .bind .defineAcc fun _ =>
      .pure)))

end SafeState

namespace SafeExec

theorem storeAcc {bf a stride len acc} : SafeExec (storeAcc bf a stride len acc) :=
  .bind (.forIn fun _ _ => .bind (.forIn fun _ _ => .bind .store fun _ => .pure) fun _ => .pure) fun _ => .pure

end SafeExec

namespace SafeState

theorem execMStacc (hs : SafeState s) {f} : SafeOutcome (execMStacc f s) :=
  hs.asInstr (.bind .matrixReady fun _ => .bind .readX fun _ => .bind .require fun _ => .bind .accDefined fun _ => .bind .myRow fun _ =>
      .get fun _ _ => .bind .require fun _ => .bind .readAcc fun _ => .bind .storeAcc fun _ => .pure)

theorem execMDrain (hs : SafeState s) {f} : SafeOutcome (execMDrain f s) := by
  unfold Machine.execMDrain
  refine hs.asInstr (.bind .matrixReady fun _ => .bind .me fun _ => .guard .stall fun _ => .guard .nameAcc fun _ => .bind .me fun _ => ?_)
  refine .ite (.get fun _ hs => ?_) (.ite (.bind (.modify fun _ hs => hs.setAccStatus.updThread) fun _ => .pure) .pure)
  split
  · exact .bind (.set (hs.writeBack.some ‹_›)) fun _ => .ite (.bind (.modify fun _ hs => hs.setAccStatus.updThread) fun _ => .pure) .pure
  · exact .bind (.hold fun _ hs => hs.postWriteBackMisses) fun _ => .ite (.bind (.modify fun _ hs => hs.setAccStatus.updThread) fun _ =>
        .pure) .pure

end SafeState

namespace SafeExec

theorem readEntry {a} : SafeExec (readEntry a) := .bind (.mapFault .load fun _ _ _ => trivial) fun _ => .bind .require fun _ => .pure
theorem tileRows {e t} : SafeExec (tileRows e t) := .mapM fun _ => .bind .loadLines fun _ => .pure

end SafeExec

namespace SafeState

theorem setSkink (hs : SafeState s) {k} : SafeState (s.setSkink k) := hs

end SafeState

namespace SafeExec

theorem walkerRow {e} : SafeExec (walkerRow e) := by
  unfold Machine.walkerRow
  refine .get fun _ _ => .bind .me fun _ => ?_
  split
  · exact .missAt
  · split
    · exact .ite .pure .fault
    · exact .fault
  · exact .fault

theorem walkedRows {e addr t} : SafeExec (walkedRows e addr t) := by
  unfold Machine.walkedRows
  refine .get fun _ hs => .bind .me fun _ => ?_
  dsimp only
  split
  · exact .bind (.set hs.setSkink) fun _ => .pure
  · exact .bind (.set hs.setSkink) fun _ => .throw trivial
  · exact .guard .stall fun _ => .bind .walkerRow fun _ => .get fun _ hs => .ite (.hold fun _ hs => hs.setSkink) (.ite .fault .fault)

end SafeExec

namespace SafeState

theorem execMSpmm (hs : SafeState s) {f} : SafeOutcome (execMSpmm f s) :=
  hs.asInstr (.bind .matrixReady fun _ => .bind .readX fun _ => .bind .readX fun _ => .bind .require fun _ => .bind .require fun _ =>
      .bind .accDefined fun _ => .bind .readEntry fun _ => .ite (.bind .walkedRows fun _ => .bind (.mapFault .readAcc fun _ _ _ =>
      trivial) fun _ => .bind (.mapFault (.mapM fun _ => .loadLines) fun _ _ _ => trivial) fun _ => .bind .inArithmetic fun _ =>
      .pure) (.bind .tileRows fun _ => .bind .pure fun _ => .bind (.mapFault .readAcc fun _ _ _ => trivial) fun _ =>
      .bind (.mapFault (.mapM fun _ => .loadLines) fun _ _ _ =>
      trivial) fun _ => .bind .inArithmetic fun _ => .pure))

theorem execMTdir (hs : SafeState s) {f} : SafeOutcome (execMTdir f s) :=
  hs.asInstr (.bind .matrixReady fun _ => .bind .readX fun _ => .bind .require fun _ => .bind .readEntry fun _ => .ite (.bind .writeX fun _ =>
      .pure) (.bind .tileRows fun _ => .bind .writeX fun _ => .bind .store fun _ => .pure))

end SafeState

/-! ### The functions of Machine/MemoryAccess.lean -/

namespace SafeState

theorem execLd (hs : SafeState s) {f} : SafeOutcome (execLd f s) :=
  hs.asInstr (.bind .ea fun _ => .bind .load fun _ => .bind .writeX fun _ => .pure)

theorem execLds (hs : SafeState s) {f} : SafeOutcome (execLds f s) :=
  hs.asInstr (.bind .ea fun _ => .bind .load fun _ => .bind .writeX fun _ => .pure)

theorem execSt (hs : SafeState s) {f} : SafeOutcome (execSt f s) :=
  hs.asInstr (.bind .readX fun _ => .bind .ea fun _ => .bind .store fun _ => .pure)

theorem execLdv (hs : SafeState s) {f} : SafeOutcome (execLdv f s) :=
  hs.asInstr (.bind .ea fun _ => .bind .load fun _ => .bind .writeV fun _ => .pure)

theorem execStv (hs : SafeState s) {f} : SafeOutcome (execStv f s) :=
  hs.asInstr (.bind .readV fun _ => .bind .ea fun _ => .bind .store fun _ => .pure)

theorem execLdfe (hs : SafeState s) {f} : SafeOutcome (execLdfe f s) :=
  hs.asInstr (.bind .ea fun _ => .bind .require fun _ => .bind .loadFE fun _ => .ite (.bind .writeX fun _ => .pure) (.bind .writeV fun _ => .pure))

theorem execStfe (hs : SafeState s) {f} : SafeOutcome (execStfe f s) :=
  hs.asInstr (.bind .ea fun _ => .bind .require fun _ => .bind .readV fun _ => .bind .storeFE fun _ => .pure)

theorem execSete (hs : SafeState s) {f} : SafeOutcome (execSete f s) :=
  hs.asInstr (.bind .ea fun _ => .bind .require fun _ => .bind .setFE fun _ => .pure)

theorem execSset (hs : SafeState s) {f} : SafeOutcome (execSset f s) :=
  hs.asInstr (.bind .ea fun _ => .bind .require fun _ => .bind .load fun _ => .bind .myRow fun _ => .bind (.modify fun _ hs =>
      hs.poke _ _) fun _ => .pure)

theorem execSrst (hs : SafeState s) {f} : SafeOutcome (execSrst f s) :=
  hs.asInstr (.bind .myRow fun _ => .bind (.modify fun _ hs => hs.setCounts.setDone.setPos) fun _ => .pure)

theorem execSpos (hs : SafeState s) {f} : SafeOutcome (execSpos f s) :=
  hs.asInstr (.bind .myRow fun _ => .bind .readX fun _ => .get fun _ hs => .bind (.set hs.setCounts.setDone.setPos) fun _ => .pure)

theorem prefOpen (hs : SafeState s) {th dp} : SafeState (prefOpen s th dp) := by
  unfold Machine.prefOpen
  split
  · exact hs
  · refine .ite hs ?_
    split
    · exact hs.activate.ok ‹_›
    · exact hs

theorem execPref (hs : SafeState s) {f} : SafeOutcome (execPref f s) := by
  refine hs.asInstr (.bind .ea fun _ => .bind .me fun _ => .bind (.modify fun _ hs => ?_) fun _ => .pure)
  split
  · exact hs.noteBankWindow.prefOpen
  · exact hs.postMiss
  · exact hs.violateBy
  · exact hs

end SafeState

namespace SafeExec

theorem oneSidedRoom : SafeExec (oneSidedRoom) := .get fun _ _ => .bind .me fun _ => .ite .stall .pure

theorem submitElements {f kind} : SafeExec (submitElements f kind) :=
  .bind .sbEmpty fun _ => .bind .readX fun _ => .bind .readX fun _ => .bind .readX fun _ => .bind .readX fun _ => .bind .require fun _ =>
      .bind .require fun _ => .bind .require fun _ => .bind .require fun _ => .bind .oneSidedRoom fun _ => .bind .load fun _ =>
      .bind .counterAddr fun _ => .get fun _ hs => .bind .me fun _ => .bind (.set (SafeState.dropNoMapping (by exact hs))) fun _ => .pure

end SafeExec

namespace SafeState

theorem execGet (hs : SafeState s) {f} : SafeOutcome (execGet f s) := hs.asInstr .submitElements
theorem execPut (hs : SafeState s) {f} : SafeOutcome (execPut f s) := hs.asInstr .submitElements

end SafeState

namespace SafeExec

theorem countHere {dp need a} : SafeExec (countHere dp need a) :=
  .get fun _ _ => .bind .me fun _ => .guard .fault fun _ => .guard .stall fun _ => .bind (.modify fun _ hs => hs.importCounted) fun _ => .pure

end SafeExec

namespace SafeState

theorem execCcrd (hs : SafeState s) {f} : SafeOutcome (execCcrd f s) := by
  unfold Machine.execCcrd
  refine hs.asInstr (.bind .readX fun _ => .bind .readX fun _ => .bind .require fun _ => .bind .plainAddr fun _ => ?_)
  split
  · refine .get fun _ hs => .bind .me fun _ => ?_
    refine .bind (.bind .answered fun _ => ?_) fun _ => .bind .writeX fun _ => .pure
    split
    · exact .pure
    · exact .fault
    · exact .hold (fun _ hs => hs.forget)
    · exact .ite .countHere (.bind .checkHold fun _ => .ite (.ask fun _ hs => hs.noteBankWindow.queueOn) (.bind .reachRow fun _ =>
          .bind (.modify fun _ hs => hs.noteBankWindow.countWindow) fun _ => .countHere))

end SafeState

namespace SafeExec

theorem atomicFM {f op w} : SafeExec (atomicFM f op w) :=
  .bind .ea fun _ => .bind .readX fun _ => .bind .atomic fun _ => .bind .writeX fun _ => .pure

end SafeExec

namespace SafeState

theorem execAadd (hs : SafeState s) {f} : SafeOutcome (execAadd f s) := hs.asInstr .atomicFM
theorem execAand (hs : SafeState s) {f} : SafeOutcome (execAand f s) := hs.asInstr .atomicFM
theorem execAor (hs : SafeState s) {f} : SafeOutcome (execAor f s) := hs.asInstr .atomicFM
theorem execAxor (hs : SafeState s) {f} : SafeOutcome (execAxor f s) := hs.asInstr .atomicFM
theorem execAmin (hs : SafeState s) {f} : SafeOutcome (execAmin f s) := hs.asInstr .atomicFM
theorem execAmax (hs : SafeState s) {f} : SafeOutcome (execAmax f s) := hs.asInstr .atomicFM
theorem execAswp (hs : SafeState s) {f} : SafeOutcome (execAswp f s) := hs.asInstr .atomicFM
theorem execAcas (hs : SafeState s) {f} : SafeOutcome (execAcas f s) := hs.asInstr (.bind .readX fun _ => .atomicFM)
theorem execAfadd (hs : SafeState s) {f} : SafeOutcome (execAfadd f s) := hs.asInstr .atomicFM

end SafeState

/-! ### The functions of Machine/Retrieval.lean -/

namespace SafeExec

theorem hashDescriptor {va last headOnly} : SafeExec (hashDescriptor va last headOnly) := .bind .loadLines fun _ => .bind .require fun _ => .pure

theorem tablePage {lo hi} : SafeExec (tablePage lo hi) := by
  unfold Machine.tablePage
  refine .get fun _ _ => .bind .me fun _ => ?_
  dsimp only
  split
  · split
    · exact .faultLogged
    · exact .ite .fault (.ite .pure .fault)
  · refine .ite .fault ?_
    split
    · exact .faultLogged
    · exact .ite .fault (.ite .pure .fault)
  · exact .missAt
  · exact .fault
  · exact .fault
  · exact .fault
  · refine .ite .fault ?_
    split
    · exact .faultLogged
    · exact .ite .fault (.ite .pure .fault)

theorem hashPages {va last} : SafeExec (hashPages va last) :=
  .bind .hashDescriptor fun _ => .bind .tablePage fun _ => .bind (.mapM fun _ => .bind .tablePage fun _ => .pure) fun _ => .pure

theorem tableHeld {va h} : SafeExec (tableHeld va h) := by
  unfold Machine.tableHeld
  refine .get fun _ _ => .bind .me fun _ => ?_
  split
  · exact .throw trivial
  · exact .pure

theorem hashTable {va last} : SafeExec (hashTable va last) := .bind .hashPages fun _ => .bind .tableHeld fun _ => .pure
theorem hashInput {h va} : SafeExec (hashInput h va) := .bind .loadLines fun _ => .pure

end SafeExec

namespace SafeState

theorem execHSig (hs : SafeState s) {f} : SafeOutcome (execHSig f s) :=
  hs.asInstr (.bind .readX fun _ => .bind .readX fun _ => .bind .require fun _ => .bind .hashDescriptor fun _ => .bind .require fun _ =>
      .bind .hashInput fun _ => .bind .writeV fun _ => .pure)

end SafeState

namespace SafeExec

theorem probeTarget {va n} : SafeExec (probeTarget va n) := by
  unfold Machine.probeTarget
  refine .get fun _ _ => .bind .me fun _ => .mapM fun _ => ?_
  dsimp only
  split
  · exact .ite .pure .fault
  · exact .ite .pure .fault
  · exact .missAt
  · exact .fault

end SafeExec

namespace SafeState

theorem execHProbe (hs : SafeState s) {f} : SafeOutcome (execHProbe f s) :=
  hs.asInstr (.bind .sbEmpty fun _ => .bind .readX fun _ => .bind .readX fun _ => .bind .readV fun _ => .bind .readX fun _ =>
      .bind .require fun _ => .bind .require fun _ => .bind .require fun _ => .get fun _ hs => .bind .me fun _ => .guard .stall fun _ =>
      .bind .hashPages fun _ => .bind .probeTarget fun _ => .bind .tableHeld fun _ => .bind .counterAddr fun _ => .get fun _ hs =>
      .bind (.set (SafeState.dropNoMapping (by exact hs))) fun _ => .pure)

end SafeState

namespace SafeExec

theorem nextUsn {a parts} : SafeExec (nextUsn a parts) := by
  unfold Machine.nextUsn
  refine .bind .atomicAs fun _ => ?_
  split
  exact .guard (.modify fun _ hs => hs.addParts) fun _ => .pure

theorem submitUpdate {f delete} : SafeExec (submitUpdate f delete) :=
  .bind .sbEmpty fun _ => .bind .readX fun _ => .bind .readX fun _ => .bind .readV fun _ => .bind .require fun _ => .bind .hashTable fun _ =>
      .get fun _ _ => .bind .me fun _ => .bind .nextUsn fun _ => .bind .writeX fun _ => .pure

end SafeExec

namespace SafeState

theorem execHIns (hs : SafeState s) {f} : SafeOutcome (execHIns f s) := hs.asInstr .submitUpdate
theorem execHDel (hs : SafeState s) {f} : SafeOutcome (execHDel f s) := hs.asInstr .submitUpdate

end SafeState

namespace SafeExec

theorem movedEntries {p i} : SafeExec (movedEntries p i) := .get fun _ _ => .bind (.mapM fun _ => .bind .hashInput fun _ => .pure) fun _ => .pure

theorem readKeys {th sp} : SafeExec (readKeys th sp) := by
  unfold Machine.readKeys
  refine .get fun _ hs => ?_
  split
  · exact .bind (.set hs.updThread) fun _ => .pure
  · refine .bind (.bind (.caught .movedEntries) fun _ => ?_) fun _ => .get fun _ hs => .hold fun _ _ => hs.updThread
    split
    · exact .pure
    · exact .bind (.modify fun _ hs => hs.foldl fun _ _ hs => hs.applyNote) fun _ => .pure

theorem beginUnit {f} : SafeExec (beginUnit f) := by
  refine .bind .readX fun _ => .bind .readX fun _ => .bind .me fun _ => .get fun _ _ => .ite ?_ ?_
  · exact .bind .writeX fun _ => .bind (.modify fun _ hs => hs.setCtrl) fun _ => .pure
  · exact .bind .require fun _ => .bind .hashTable fun _ => .bind .nextUsn fun _ => .get fun _ hs => .hold fun _ _ => hs.beginSplit

end SafeExec

namespace SafeState

theorem execHRehash (hs : SafeState s) {f} : SafeOutcome (execHRehash f s) := by
  unfold Machine.execHRehash
  refine hs.asInstr (.bind .sbEmpty fun _ => .bind .me fun _ => ?_)
  split
  · exact .beginUnit
  · refine .ite .readKeys (.ite .stall ?_)
    split
    · exact .throw trivial
    · exact .bind (.modify fun _ hs => hs.updThread) fun _ => .ite (.bind .writeX fun _ => .bind (.modify fun _ hs => hs.setCtrl) fun _ =>
          .pure) .beginUnit

end SafeState

namespace SafeExec

theorem readNewest {va n} : SafeExec (readNewest va n) := by
  unfold Machine.readNewest
  refine .bind .plainAddr fun _ => ?_
  split
  · refine .get fun _ hs => .bind .me fun _ => .bind .answered fun _ => ?_
    split
    · exact .pure
    · exact .fault
    · exact .guard .checkHold fun _ => .ite (.ask fun _ hs => hs.noteBankWindow.queueOn) (.ite (.bind .reachRow fun _ => .bind (.modify fun _ hs =>
          hs.noteBankWindow) fun _ => .get fun _ hs => .guard .fault fun _ => .guard (.modify fun _ hs => hs.countWindow.viewNewest) fun _ =>
          .pure) (.get fun _ hs => .guard .fault fun _ => .guard (.modify fun _ hs => hs.countWindow.viewNewest) fun _ => .pure))

end SafeExec

namespace SafeState

theorem execHUsn (hs : SafeState s) {f} : SafeOutcome (execHUsn f s) :=
  hs.asInstr (.bind .sbEmpty fun _ => .bind .readX fun _ => .bind .require fun _ => .bind .hashDescriptor fun _ => .bind .readNewest fun _ =>
      .bind .writeX fun _ => .pure)

theorem importApplied (hs : SafeState s) {id desc n} : SafeState (importApplied s id desc n) := hs.foldl fun _ _ hs => .ite hs.advanceView hs

theorem execHWusn (hs : SafeState s) {f} : SafeOutcome (execHWusn f s) := by
  unfold Machine.execHWusn
  refine hs.asInstr (.bind .readX fun _ => .bind .readX fun _ => .bind .require fun _ => .bind .hashDescriptor fun _ => .bind .plainAddr fun _ =>
      ?_)
  split
  · refine .bind .plainAddr fun _ => ?_
    split
    exact .bind .readNewest fun _ => .bind .me fun _ => .guard (.hold fun _ hs => hs.forget) fun _ => .bind (.modify fun _ hs =>
        hs.importApplied) fun _ => .bind .writeX fun _ => .pure

end SafeState

namespace SafeExec

theorem dedupLines {a n} : SafeExec (dedupLines a n) := by
  unfold Machine.dedupLines
  refine .bind (.forIn fun _ _ => .bind .granAddr fun _ => ?_) fun _ => .bind (.mapM fun _ => .loadFE) fun _ => .pure
  split
  · exact .pure
  · exact .get fun _ _ => .bind .me fun _ => .ite (.bind .stall fun _ => .pure) .pure

theorem storeEntries {d ws} : SafeExec (storeEntries d ws) := .bind (.forIn fun _ _ => .bind .store fun _ => .pure) fun _ => .pure

end SafeExec

namespace SafeState

theorem execHDedup (hs : SafeState s) {f} : SafeOutcome (execHDedup f s) :=
  hs.asInstr (.bind .readX fun _ => .bind .readX fun _ => .bind .readX fun _ => .bind .require fun _ => .bind .require fun _ =>
      .bind .dedupLines fun _ => .bind .store fun _ => .bind .storeEntries fun _ => .pure)

theorem applyPart (hs : SafeState s) {p} : SafeState (s.applyPart p) := .ite hs.bumpCounter.finishPart hs.applyUpdate.finishPart

theorem endUnit (hs : SafeState s) {id} : SafeState (s.endUnit id) := by
  unfold State.endUnit
  split
  · exact hs
  · extract_lets failed ok s₁ s₂ s₃ s₄
    have h₁ : SafeState s₁ := .ite hs.setCtrl hs
    have h₂ : SafeState s₂ := h₁.updThread
    clear_value failed
    have h₃ : SafeState s₃ := by
      unfold s₃
      split
      · exact h₂.takeFault
      · exact .ite h₂ (.ite h₂.endStep h₂.setCtrl.setLogical)
    have h₄ : SafeState s₄ := by
      refine h₃.foldl fun _ _ hs => ?_
      split
      · exact hs.command
      · exact hs
    refine .ite hs (SafeState.progressClose ?_)
    split
    · exact .ite h₄.preempt h₄
    · exact h₄

theorem abandonUnit (hs : SafeState s) {p} : SafeState (s.abandonUnit p) := by
  unfold State.abandonUnit
  split
  · exact .ite hs.updThread.endUnit hs
  · exact hs

theorem failSplit (hs : SafeState s) {id c va} : SafeState (s.failSplit id c va) := hs.updThread
theorem spoilSplit (hs : SafeState s) {p sp} : SafeState (s.spoilSplit p sp) := hs.bumpCounter.updThread.finishPart.noteApplied.endUnit

theorem orphanSplit (hs : SafeState s) {p i} : SafeState (s.orphanSplit p i) :=
  (SafeState.ite hs.bumpCounter.finishPart hs.splitC.finishPart).noteApplied

theorem applySplit (hs : SafeState s) {p i} : SafeState (s.applySplit p i) := by
  unfold State.applySplit
  extract_lets setStage
  have hset {t : State} (ht : SafeState t) (sp : Split) : SafeState (setStage t sp) := ht.updThread
  split
  · exact hs.orphanSplit
  · refine .ite hs.orphanSplit ?_
    split
    · split
      next e =>
      have h₁ := hs.splitA.fst e
      exact .ite hs.spoilSplit (.ite (hset h₁ _).noteApplied (hset h₁ _).finishPart.noteApplied.endUnit)
    · split
      next e => exact .ite hs.spoilSplit (hset (hs.splitB.fst e) _).noteApplied
    · exact .ite hs.spoilSplit (hset hs.splitC.finishPart _).noteApplied.endUnit
    · exact hs

theorem happly (hs : SafeState s) {find applying} : SafeState (s.happly find applying) := by
  unfold State.happly
  split
  · exact hs
  · extract_lets s₁ rows e
    have h₁ : SafeState s₁ := hs.partsNow
    refine .ite hs ?_
    split
    · exact h₁.joinOnce
    · split
      · exact h₁.partsReach.wait ‹_›
      next s₂ e₂ =>
        have h₂ : SafeState s₂ := h₁.partsReach.ok e₂
        split
        · exact h₂.partsReach.wait ‹_›
        next s₃ e₃ =>
          extract_lets s₄
          have h₄ : SafeState s₄ := (h₂.partsReach.ok e₃).withdraw
          split
          · exact h₄.applySplit
          · exact h₄.applyPart.noteApplied

theorem applyQueuedPart (hs : SafeState s) {th desc usn table} : SafeState (s.applyQueuedPart th desc usn table) :=
  (SafeState.updThread (by exact hs.showClose.doomGroups.of_mem rfl)).happly

theorem execHapply (hs : SafeState s) : SafeOutcome (execHapply s) := by
  unfold Machine.execHapply
  show SafeState _
  split
  · exact hs.happly
  · exact hs

end SafeState

/-! ### The functions of Machine/Moves.lean -/

namespace SafeState

theorem popSB (hs : SafeState s) {id} : SafeState (s.popSB id) := hs.updThread

theorem chargeCopy (hs : SafeState s) {th row} : SafeReach (s.chargeCopy th row) := by
  unfold State.chargeCopy
  refine .ite hs ?_
  split
  · exact hs
  · exact .ite hs.extraActivate hs

theorem drainTo (hs : SafeState s) {th e} : SafeState (s.drainTo th e) := by
  unfold State.drainTo
  split
  · exact hs.popSB.storeControl
  · split
    · exact .ite hs.popSB.enqueue hs.popSB.landStore.viewNewest
    · split
      · exact hs.reach.wait ‹_›
      · exact (hs.reach.ok ‹_›).popSB.landStore.viewNewest

theorem drain (hs : SafeState s) {id} : SafeState (s.drain id) := by
  unfold State.drain
  split
  · exact hs
  · split
    · exact hs
    · split
      · exact hs.sendRemote
      · refine SafeState.progressClose ?_
        split
        · split
          · exact hs.chargeCopy.wait ‹_›
          · exact (hs.chargeCopy.ok ‹_›).shadowWrite.popSB
        · exact hs.drainTo

theorem applyFirst (hs : SafeState s) {th} : SafeState (s.applyFirst th) := by
  unfold State.applyFirst
  split
  · exact hs.applyQueuedPart
  · exact hs.applyShip

theorem apply (hs : SafeState s) {id} : SafeState (s.apply id) := by
  unfold State.apply
  split
  · exact hs
  · exact .ite hs (.ite (.ite hs.applyFirst.progressClose hs) (.ite hs hs.applyHead.progressClose))

theorem fetchFill (hs : SafeState s) {id va} : SafeState (s.fetchFill id va) := by
  unfold State.fetchFill
  split
  · exact hs
  · refine .ite hs ?_
    split
    · exact hs.fillLine.line ‹_›
    · exact hs.fillLine.none ‹_›
    · exact hs.fillLine.wait ‹_›

theorem streamPrefetch (hs : SafeState s) {id slot ahead} : SafeState (s.streamPrefetch id slot ahead) := by
  unfold State.streamPrefetch
  split
  · exact hs
  · refine .ite hs ?_
    dsimp only
    split
    · refine .ite hs ?_
      split
      · exact hs
      · exact (hs.reach.ok ‹_›).noteBankWindow.refresh
    · exact hs.postMiss
    · exact hs

theorem matrixComplete (hs : SafeState s) {id} : SafeState (s.matrixComplete id) := by
  unfold State.matrixComplete
  split
  · exact hs
  · split
    · exact hs
    · exact .ite hs hs.updThread.progressClose

theorem endWalk (hs : SafeState s) {k q rest c} : SafeState (s.endWalk k q rest c) := hs.setSkink
theorem importView (hs : SafeState s) {id view} : SafeState (s.importView id view) := hs.foldl fun _ _ hs => hs.advanceView

theorem beginWalk (hs : SafeState s) {cluster k q rest u req} : SafeState (s.beginWalk cluster k q rest u req) :=
  (SafeState.ite ((hs.setSkink.importView.setX.setX.setX.setCtrl.clearProgress.foldl fun _ _ hs =>
      hs.setP).pokeWord _ _).setCtrl ((hs.setSkink.importView.setX.setX.setX.setCtrl.clearProgress.foldl fun _ _ hs =>
      hs.setP).pokeWord _ _)).setWord0.updThread

theorem walkBegin (hs : SafeState s) {cluster} : SafeState (s.walkBegin cluster) := by
  unfold State.walkBegin
  dsimp only
  split
  · refine .ite hs ?_
    split
    · exact .ite hs (.ite hs.endWalk (.ite hs.endWalk (.ite hs hs.beginWalk)))
    · exact hs.endWalk
  · exact hs

theorem walkerWatchdog (hs : SafeState s) {cluster} : SafeState (s.walkerWatchdog cluster) := by
  unfold State.walkerWatchdog
  dsimp only
  split
  · exact hs
  · refine .ite hs ?_
    split
    · exact hs
    · exact .ite hs hs.takeFault.progressClose

theorem execDrain (hs : SafeState s) : SafeOutcome (execDrain s) := by
  unfold Machine.execDrain
  show SafeState _
  split
  · exact hs.drain
  · exact hs

theorem execRefresh (hs : SafeState s) : SafeOutcome (execRefresh s) := by
  unfold Machine.execRefresh
  show SafeState _
  split
  · exact hs.refresh
  · exact hs

theorem execApply (hs : SafeState s) : SafeOutcome (execApply s) := by
  unfold Machine.execApply
  show SafeState _
  split
  · exact hs.apply
  · exact hs

theorem execFetchFill (hs : SafeState s) : SafeOutcome (execFetchFill s) := by
  unfold Machine.execFetchFill
  show SafeState _
  split
  · exact hs.fetchFill
  · exact hs

theorem execStreamPrefetch (hs : SafeState s) : SafeOutcome (execStreamPrefetch s) := by
  unfold Machine.execStreamPrefetch
  show SafeState _
  split
  · exact hs.streamPrefetch
  · exact hs

theorem execMatrixArithComplete (hs : SafeState s) : SafeOutcome (execMatrixArithComplete s) := by
  unfold Machine.execMatrixArithComplete
  show SafeState _
  split
  · exact hs.matrixComplete
  · exact hs

theorem execWalkBegin (hs : SafeState s) : SafeOutcome (execWalkBegin s) := by
  unfold Machine.execWalkBegin
  show SafeState _
  split
  · exact hs.walkBegin
  · exact hs

theorem execWalkerWatchdog (hs : SafeState s) : SafeOutcome (execWalkerWatchdog s) := by
  unfold Machine.execWalkerWatchdog
  show SafeState _
  split
  · exact hs.walkerWatchdog
  · exact hs

end SafeState

/-! ### The functions of Machine/System.lean -/

namespace SafeState

theorem writeCr (hs : SafeState s) {cr i v} : SafeState (s.writeCr cr i v) := by
  unfold State.writeCr
  split <;> exact hs

theorem allotFresh (hs : SafeState s) {tenant old new} : SafeState (s.allotFresh tenant old new) := hs
theorem clearBankWindows (hs : SafeState s) {tenant} : SafeState (s.clearBankWindows tenant) := hs

end SafeState

namespace SafeExec

theorem crCheck {cr a write} : SafeExec (crCheck cr a write) := by
  unfold Machine.crCheck
  split
  · exact .fault
  · exact .get fun _ _ => .bind .myRow fun _ => .bind .require fun _ => .bind .require fun _ => .pure

end SafeExec

namespace SafeState

theorem execSysRdcr (hs : SafeState s) {f} : SafeOutcome (execSysRdcr f s) := by
  unfold Machine.execSysRdcr
  refine hs.asInstr (.bind .readX fun _ => .bind .crCheck fun _ => ?_)
  split
  exact .get fun _ _ => .bind .writeX fun _ => .pure

end SafeState

namespace SafeExec

theorem crValue {mask v} : SafeExec (crValue mask v) := .guard (.modify fun _ hs => hs.logRec) fun _ => .pure

theorem imageLines {base n i} : SafeExec (imageLines base n i) := by
  induction n generalizing i with
  | zero => exact .pure
  | succ n ih =>
    unfold Machine.imageLines
    refine .bind (.caught .load) fun _ => ?_
    split
    · exact .ite (.throw trivial) .pure
    · exact .ite (.bind ih fun _ => .pure) .pure

theorem rtabWrite {tenant k v} : SafeExec (rtabWrite tenant k v) := by
  refine .bind (.ite .pure (.bind .imageLines fun _ => .get fun _ _ => .pure)) fun _ => .modify fun _ hs => ?_
  split
  · exact hs
  · exact hs.setTenant

theorem writeCr {cr a v} : SafeExec (writeCr cr a v) := by
  unfold Machine.writeCr
  refine .bind .crCheck fun _ => ?_
  split
  · refine .bind .sbEmpty fun _ => .get fun _ hs => .guard .fault fun _ => .bind .crValue fun _ => .ite (.bind .rtabWrite fun _ => .pure) ?_
    refine .bind (.modify fun _ hs => .ite hs.writeCr ?_) fun _ => .pure
    split
    · exact hs
    · exact .ite hs.setTenant.allotFresh (.ite hs.setTenant.clearBankWindows hs.setTenant)

end SafeExec

namespace SafeState

theorem execSysWrcr (hs : SafeState s) {f} : SafeOutcome (execSysWrcr f s) := hs.asInstr (.bind .readX fun _ => .bind .readX fun _ => .writeCr)
theorem execRtabLoad (hs : SafeState s) {f} : SafeOutcome (execRtabLoad f s) := hs.asInstr (.bind .readX fun _ => .bind .readX fun _ => .writeCr)
theorem execRtabEmpty (hs : SafeState s) {f} : SafeOutcome (execRtabEmpty f s) := hs.asInstr (.bind .readX fun _ => .bind .readX fun _ => .writeCr)

theorem execClhaltWrite (hs : SafeState s) {f} : SafeOutcome (execClhaltWrite f s) :=
  hs.asInstr (.bind .readX fun _ => .bind .readX fun _ => .writeCr)

theorem execWacntWrite (hs : SafeState s) {f} : SafeOutcome (execWacntWrite f s) :=
  hs.asInstr (.bind .readX fun _ => .bind .readX fun _ => .writeCr)

theorem invalidate (hs : SafeState s) {iv} : SafeState (s.invalidate iv) := hs

theorem execSysTlbinv (hs : SafeState s) {f} : SafeOutcome (execSysTlbinv f s) :=
  hs.asInstr (.bind .readX fun _ => .bind .readX fun _ => .bind .readX fun _ => .get fun _ hs => .bind .myRow fun _ => .bind .require fun _ =>
      .bind .require fun _ => .bind .require fun _ => .bind .sbEmpty fun _ => .bind .counterAddr fun _ => .bind (.modify fun _ hs =>
      SafeState.invalidate (by exact hs)) fun _ => .pure)

theorem fillTlb (hs : SafeState s) {e} : SafeState (s.fillTlb e) := hs

theorem execSysTlbwr (hs : SafeState s) {f} : SafeOutcome (execSysTlbwr f s) := by
  unfold Machine.execSysTlbwr
  refine hs.asInstr (.bind .readX fun _ => .bind .readX fun _ => .get fun _ hs => .bind .me fun _ => .bind .require fun _ =>
      .bind .require fun _ => .bind .require fun _ => ?_)
  split
  · exact .fault
  · exact .bind (.modify fun _ hs => hs.fillTlb) fun _ => .pure

theorem execSysTrap (hs : SafeState s) {f} : SafeOutcome (execSysTrap f s) := hs.asInstr (.bind .readX fun _ => .fault)

theorem execSysLog (hs : SafeState s) {f} : SafeOutcome (execSysLog f s) := by
  refine hs.asInstr (.bind .readX fun _ => .bind .readX fun _ => .bind .me fun _ => .bind (.modify fun _ hs => ?_) fun _ => .pure)
  extract_lets tn us tenant limited dropped s₁
  have h₁ : SafeState s₁ := hs.logRec
  clear_value tenant s₁
  cases tenant with
  | none => exact .ite hs h₁
  | some t => exact .ite hs.setTenant h₁.setTenant

theorem putSlot (hs : SafeState s) {dp l} : SafeState (s.putSlot dp l) := hs.hubPoke

end SafeState

namespace SafeExec

theorem reachRing {t ring pos} : SafeExec (reachRing t ring pos) := by
  unfold Machine.reachRing
  refine .get fun _ hs => .bind .me fun _ => ?_
  extract_lets asid va
  split
  · exact .set (hs.reachWalk.ok ‹_›)
  · exact .throw fun _ hs => hs

end SafeExec

namespace SafeState

theorem execSysMpostHost (hs : SafeState s) {f} : SafeOutcome (execSysMpostHost f s) := by
  unfold Machine.execSysMpostHost
  refine hs.asInstr (.bind .readV fun _ => .bind .readX fun _ => .get fun _ hs => .bind .myRow fun _ => ?_)
  dsimp only
  split
  · exact .bind .writeX fun _ => .pure
  · refine .bind .reachRing fun _ => .get fun _ hs => ?_
    split
    · exact .bind .writeX fun _ => .pure
    · exact .ite (.bind .writeX fun _ => .pure) (.bind (.set hs.setTenant.putSlot.raise) fun _ => .bind .writeX fun _ => .pure)

theorem execSysMpostMbox (hs : SafeState s) {f} : SafeOutcome (execSysMpostMbox f s) := by
  unfold Machine.execSysMpostMbox
  refine hs.asInstr (.bind .readV fun _ => .get fun _ hs => .bind .myRow fun _ => ?_)
  dsimp only
  split
  · exact .bind .writeX fun _ => .pure
  · refine .bind .reachRing fun _ => .get fun _ hs => ?_
    split
    · exact .bind .writeX fun _ => .pure
    · exact .ite (.bind .writeX fun _ => .pure) (.bind (.set hs.setTenant.putSlot) fun _ => .bind .writeX fun _ => .pure)

theorem cancelContexts (hs : SafeState s) {t} : SafeState (s.cancelContexts t) := SafeState.foldl (by exact hs) fun _ _ hs => hs.dropAccesses

theorem killTenant (hs : SafeState s) {tenant} : SafeState (s.killTenant tenant) := by
  unfold State.killTenant
  refine hs.foldl fun _ _ hs => ?_
  split
  · exact hs
  · exact hs.command.progressClose

theorem startScrub (hs : SafeState s) {tenant area} : SafePair (s.startScrub tenant area) := by
  unfold State.startScrub
  split
  · exact hs
  · exact .ite hs (.ite hs (SafeState.killTenant (by exact hs)).cancelContexts)

theorem execSysScrub (hs : SafeState s) {f} : SafeOutcome (execSysScrub f s) := by
  unfold Machine.execSysScrub
  refine hs.asInstr (.bind .readX fun _ => .bind .readX fun _ => .get fun _ hs => .bind .myRow fun _ => .bind .require fun _ =>
      .bind .require fun _ => .bind .plainAddr fun _ => ?_)
  split
  · refine .get fun _ hs => ?_
    split
    exact .bind (.set (hs.startScrub.fst ‹_›)) fun _ => .bind .writeX fun _ => .pure

end SafeState

/-! ### The functions of Machine/Scheduler.lean -/

namespace SafeState

theorem bringHold (hs : SafeState s) {th k} : SafeReach (s.bringHold th k) := by
  have hp {o : Option Nat} : SafePair (match o with
      | some a => s.dpitWrite (th.id + 1) (a / pageBytes)
      | none => (s, true)) := by
    cases o with
    | none => exact hs
    | some a => exact hs.dpitWrite
  unfold State.bringHold
  refine .ite hs (.ite hp ?_)
  split
  · exact hp.state.claim
  · exact hp.state.claim
  · exact .ite hp hp.state.activateInTurn

theorem bringHolds (hs : SafeState s) {th k} : SafeReach (s.bringHolds th k) := by
  induction k with
  | zero => exact hs
  | succ k ih =>
    unfold State.bringHolds
    split
    · exact ih.wait ‹_›
    · exact (ih.ok ‹_›).bringHold

theorem openBank (hs : SafeState s) {th} : SafeReach (s.openBank th) := by
  unfold State.openBank
  split
  next s₁ go e₁ =>
  have h₁ : SafeState s₁ := hs.dpitWrite.fst e₁
  split
  · exact h₁
  · refine .ite h₁ ?_
    split
    · exact h₁.bringHolds.wait ‹_›
    next l _ s₂ e₂ =>
      have h₂ : SafeState s₂ := h₁.bringHolds.ok e₂
      extract_lets opened
      have ho : SafeReach opened := by
        unfold opened
        split
        · exact h₂.claim
        · exact h₂.claim
        · exact h₂.activateInTurn
      clear_value opened
      cases opened with
      | wait => exact ho
      | ok => exact SafeState.foldl ho fun _ _ hs => .ite hs.setBuf hs

theorem openRow (hs : SafeState s) {th k} : SafeState (s.openRow th k) := hs.dropClaims.setWord0.updThread

theorem schedOpen (hs : SafeState s) {id} : SafeState (s.schedOpen id) := by
  unfold State.schedOpen
  split
  · exact hs
  · refine .ite hs ?_
    split
    · exact hs
    · refine .ite hs ?_
      refine .ite ?_ hs.openRow
      split
      · exact hs.openBank.wait ‹_›
      · exact (hs.openBank.ok ‹_›).openRow

theorem firstRow (hs : SafeState s) {core row} : SafeState (s.firstRow core row) := .ite hs (hs.pokeWord _ _).startData.setCtrl

theorem quantumClose (hs : SafeState s) {id} : SafeState (s.quantumClose id) := by
  unfold State.quantumClose
  split
  · exact hs
  · exact .ite hs (.ite hs.preempt hs.updThread)

theorem priorityClose (hs : SafeState s) {id} : SafeState (s.priorityClose id) := by
  unfold State.priorityClose
  split
  · exact hs
  · split
    · exact hs
    · exact .ite hs hs.updThread.preempt

theorem spinExpiry (hs : SafeState s) {id} : SafeState (s.spinExpiry id) := by
  unfold State.spinExpiry
  split
  · exact hs
  · split
    · exact hs
    · exact .ite hs hs.beginClose.progressClose

theorem waitWake (hs : SafeState s) {id} : SafeState (s.waitWake id) := by
  unfold State.waitWake
  split
  · exact hs
  · split
    · exact hs
    · exact .ite hs hs.setLogical

theorem waitTick (hs : SafeState s) {id} : SafeState (s.waitTick id) := by
  unfold State.waitTick
  split
  · exact hs
  · split
    · exact hs
    · split
      · exact .ite hs (.ite hs.updThread.endWatch hs.updThread.setCtrl)
      · exact hs

theorem giveRow (hs : SafeState s) {tenant row isBacking} : SafeState (s.giveRow tenant row isBacking) := by
  unfold State.giveRow
  refine .ite ?_ hs
  split
  · exact hs.setTenant
  · exact hs

theorem takeBacking (hs : SafeState s) {tenant} : SafePair (s.takeBacking tenant) := by
  unfold State.takeBacking
  split
  · exact hs
  · split
    · exact hs
    · exact hs.setTenant

theorem placeRow (hs : SafeState s) {row handle ident prio pc ready xs} :
    SafeState (s.placeRow row handle ident prio pc ready xs) := by
  unfold State.placeRow
  extract_lets s₁ s₂ s₃ tier s₄ s₅ s₆ s₇ kind place
  have h₃ : SafeState s₃ := SafeState.setTag (SafeState.setGran (SafeState.pokeAll (by exact hs)))
  have h₆ : SafeState s₆ := ((h₃.pokeWord _ _).pokeWord _ _).pokeWord _ _
  have h₇ : SafeState s₇ := (SafePair.foldl (p := (s₆, 1)) h₆ fun p _ hp => by exact hp.state.setX).state
  split
  next s₈ _ e =>
  have h₈ : SafeState s₈ := SafePair.of_eq e (.ite (r := (s₇, none)) h₇ h₇.takeBacking)
  exact h₈

theorem reachHint (hs : SafeState s) {th hint} : SafeReach (s.reachHint th hint) := .ite hs.reachWalk hs
theorem endSpawn (hs : SafeState s) {th q} : SafeState (s.endSpawn th q) := .ite hs.setNext.setLogical (.ite hs.setNext.updThread hs.setNext)

theorem spawnReply (hs : SafeState s) {id row handle} : SafeState (s.spawnReply id row handle) := by
  unfold State.spawnReply
  split
  · exact hs
  · split
    · exact hs
    · refine .ite hs.updThread.dropClaims ?_
      split
      · refine .ite hs ?_
        split
        · exact hs.reachHint.wait ‹_›
        · exact (hs.reachHint.ok ‹_›).updThread.dropClaims.setX.endSpawn
      · refine .ite hs ?_
        split
        · exact hs.reachHint.wait ‹_›
        · split
          · exact (hs.reachHint.ok ‹_›).reach.wait ‹_›
          · exact (((hs.reachHint.ok ‹_›).reach.ok ‹_›).updThread.dropClaims.placeRow.foldl fun _ _ hs => hs.viewNewest).setX.endSpawn

theorem moveRow (hs : SafeState s) {old new} : SafeState (s.moveRow old new) := by
  unfold State.moveRow
  extract_lets f pairs grans tag moveHist moveEntry moveStall moveThread moveSync moveOp moveCtx moveDomain moveFlight moveInv s₁ s₂
  have h₁ : SafeState s₁ := hs.setBytes rfl
  have h₂ : SafeState s₂ := h₁.foldl fun _ _ hs => .ite hs (by exact hs)
  exact h₂.setTag.setTag

theorem setRaw (hs : SafeState s) {row k lo n v} : SafeState (s.setRaw row k lo n v) := hs.setBytes rfl

theorem evict (hs : SafeState s) {id} : SafeState (s.evict id) := by
  unfold State.evict
  split
  · exact hs
  · split
    · exact hs
    · refine .ite hs ?_
      split
      · exact hs.reach.wait ‹_›
      · exact (hs.reach.ok ‹_›).moveRow.setRaw.setRaw.updThread.giveRow

theorem reload (hs : SafeState s) {id row} : SafeState (s.reload id row) := by
  unfold State.reload
  split
  · exact hs
  · refine .ite hs ?_
    split
    · exact hs.reach.wait ‹_›
    next s₁ e =>
      have h₁ : SafeState s₁ := hs.reach.ok e
      extract_lets cmd state place s₂ s₃ s₄ s₅
      have h₄ : SafeState s₄ := (SafeState.moveRow (by exact h₁)).setRaw.setRaw.updThread.updThread
      have h₅ : SafeState s₅ := .ite h₄.endUnit h₄
      exact .ite h₅ h₅.takeCommand

theorem reclaim (hs : SafeState s) {id} : SafeState (s.reclaim id) := by
  unfold State.reclaim
  split
  · exact hs
  · refine .ite hs ?_
    dsimp only
    split
    · exact .ite hs.rowToData.giveRow hs.rowToData.giveRow.giveRow
    · exact hs.rowToData.giveRow

theorem donateRow (hs : SafeState s) {tenant row} : SafeState (s.donateRow tenant row) := by
  unfold State.donateRow
  refine .ite hs ?_
  split
  · exact hs.giveRow
  · exact hs.giveRow
  · exact .ite hs.giveRow hs
  · exact hs

theorem gatedMove (hs : SafeState s) {id row} : SafeState (s.gatedMove id row) := by
  unfold State.gatedMove
  split
  · exact hs
  · split
    · exact .ite hs (SafeState.moveRow (by exact hs)).giveRow.updThread.updThread
    · exact hs

theorem post (hs : SafeState s) {tenant} : SafeState (s.post tenant) := by
  unfold State.post
  split
  · exact hs
  · split
    · exact hs
    · split
      · exact hs.setTenant.logRec.raise
      · refine .ite hs ?_
        split
        · exact hs.reachPosting.wait ‹_›
        · next h => exact (hs.reachPosting.ok h).setTenant.putSlot.of_mem rfl

theorem outsideStore (hs : SafeState s) {a bs} : SafeState (s.outsideStore a bs) := hs.foldl fun _ _ hs => hs.outsidePart
theorem commandStore (hs : SafeState s) {c code} : SafeState (s.commandStore c code) := hs.outsideStore

theorem commandEvent (hs : SafeState s) {code} : SafeState (commandEvent s code) := by
  unfold Machine.commandEvent
  split
  · exact hs.commandStore
  · exact hs

theorem execStart (hs : SafeState s) : SafeOutcome (execStart s) := hs.commandEvent
theorem execStop (hs : SafeState s) : SafeOutcome (execStop s) := hs.commandEvent
theorem execRedirect (hs : SafeState s) : SafeOutcome (execRedirect s) := hs.commandEvent
theorem execResume (hs : SafeState s) : SafeOutcome (execResume s) := hs.commandEvent
theorem execKill (hs : SafeState s) : SafeOutcome (execKill s) := hs.commandEvent
theorem execStep (hs : SafeState s) : SafeOutcome (execStep s) := hs.commandEvent

theorem execCommandReserved (hs : SafeState s) : SafeOutcome (execCommandReserved s) := by
  unfold Machine.execCommandReserved
  show SafeState _
  split
  · exact .ite hs.commandStore hs
  · exact hs

theorem execRowSchedOpen (hs : SafeState s) : SafeOutcome (execRowSchedOpen s) := by
  unfold Machine.execRowSchedOpen
  show SafeState _
  split
  · exact hs.schedOpen
  · exact hs.firstRow
  · exact hs

theorem execQuantumClose (hs : SafeState s) : SafeOutcome (execQuantumClose s) := by
  unfold Machine.execQuantumClose
  show SafeState _
  split
  · exact hs.quantumClose
  · exact hs

theorem execPriorityClose (hs : SafeState s) : SafeOutcome (execPriorityClose s) := by
  unfold Machine.execPriorityClose
  show SafeState _
  split
  · exact hs.priorityClose
  · exact hs

theorem execSpinWindowExpiry (hs : SafeState s) : SafeOutcome (execSpinWindowExpiry s) := by
  unfold Machine.execSpinWindowExpiry
  show SafeState _
  split
  · exact hs.spinExpiry
  · exact hs

theorem execWaitWake (hs : SafeState s) : SafeOutcome (execWaitWake s) := by
  unfold Machine.execWaitWake
  show SafeState _
  split
  · exact hs.waitWake
  · exact hs

theorem execThWaitTick (hs : SafeState s) : SafeOutcome (execThWaitTick s) := by
  unfold Machine.execThWaitTick
  show SafeState _
  split
  · exact hs.waitTick
  · exact hs

theorem execSpawnReply (hs : SafeState s) : SafeOutcome (execSpawnReply s) := by
  unfold Machine.execSpawnReply
  show SafeState _
  split
  · exact hs.spawnReply
  · exact hs

theorem execRowEviction (hs : SafeState s) : SafeOutcome (execRowEviction s) := by
  unfold Machine.execRowEviction
  show SafeState _
  split
  · exact hs.evict
  · exact hs

theorem execRowReload (hs : SafeState s) : SafeOutcome (execRowReload s) := by
  unfold Machine.execRowReload
  show SafeState _
  split
  · exact hs.reload
  · exact hs

theorem execRowReclaim (hs : SafeState s) : SafeOutcome (execRowReclaim s) := by
  unfold Machine.execRowReclaim
  show SafeState _
  split
  · exact hs.reclaim
  · exact hs.donateRow
  · exact hs

theorem execGatedRowMove (hs : SafeState s) : SafeOutcome (execGatedRowMove s) := by
  unfold Machine.execGatedRowMove
  show SafeState _
  split
  · exact hs.gatedMove
  · exact hs

theorem execPost (hs : SafeState s) : SafeOutcome (execPost s) := by
  unfold Machine.execPost
  show SafeState _
  split
  · exact hs.post
  · exact hs

end SafeState

/-! ### The functions of Machine/Services.lean -/

namespace SafeState

theorem setMiss (hs : SafeState s) {m} : SafeState (s.setMiss m) := hs
theorem dropMiss (hs : SafeState s) {id} : SafeState (s.dropMiss id) := hs
theorem takeMessage (hs : SafeState s) {m} : SafeState (s.takeMessage m) := hs

theorem postMessage (hs : SafeState s) {id} : SafeState (s.postMessage id) := by
  unfold State.postMessage
  split
  · exact hs
  · exact .ite hs (SafeState.setMiss (by exact hs))

theorem progressWriteBacks (hs : SafeState s) : SafeState s.progressWriteBacks := by
  unfold State.progressWriteBacks
  refine hs.foldl fun _ _ hs => ?_
  split
  · exact hs
  · exact .ite hs.progressClose hs

theorem noMappingReply (hs : SafeState s) {m} : SafeState (s.noMappingReply m) := by
  unfold State.noMappingReply
  refine .ite hs.dropMiss ?_
  split
  · exact hs.setMiss
  · dsimp only
    split
    · exact .ite hs.setMiss (.ite hs.dropMiss.failSplit hs.dropMiss.takeFault.progressClose)
    · exact .ite hs.setMiss hs.dropMiss.setAccStatus.takeFault.progressClose
    · exact hs.setMiss

theorem translationReply (hs : SafeState s) {id} : SafeState (s.translationReply id) := by
  unfold State.translationReply
  split
  · exact hs
  · refine .ite hs ?_
    split
    · exact hs.reachWalk.wait ‹_›
    · dsimp only
      split
      · exact (hs.reachWalk.ok ‹_›).takeMessage.dropClaims.fillTlb.progressWriteBacks
      · exact ((hs.reachWalk.ok ‹_›).takeMessage.dropClaims.foldl fun _ _ hs => .ite hs.dropMiss hs.noMappingReply).progressWriteBacks

theorem acknowledged (hs : SafeState s) {iv u} : SafeState (s.acknowledged iv u) := hs

theorem tlbAck (hs : SafeState s) {iv u} : SafeState (s.tlbAck iv u) := by
  unfold State.tlbAck
  split
  · exact hs
  · exact .ite hs.acknowledged hs

theorem invalidationMove (hs : SafeState s) {iv} : SafeState (s.invalidationMove iv) := by
  unfold State.invalidationMove
  split
  · exact hs
  · refine .ite hs ?_
    split
    · exact hs.reach.wait ‹_›
    · next h => exact (hs.reach.ok h).counterMove.outsideTaken.of_mem rfl

theorem reportReset (hs : SafeState s) {rows unit} : SafeState (s.reportReset rows unit) := (hs.foldl fun _ _ hs => hs.raise).logRec
theorem loseAccs (hs : SafeState s) {th} : SafeState (s.loseAccs th) := (hs.foldl fun _ _ hs => .ite hs.setAccStatus hs).updThread
theorem dropMessages (hs : SafeState s) {v u} : SafeState (s.dropMessages v u) := SafeState.foldl (by exact hs) fun _ _ hs => hs.updThread

theorem endLate (hs : SafeState s) {v u} : SafeState (s.endLate v u) := by
  unfold State.endLate
  refine SafeState.foldl (hs.foldl fun _ _ hs => ?_) fun _ _ hs => hs.finishPart.abandonUnit
  split
  · exact hs
  · exact hs.failElement

theorem handBackIf (hs : SafeState s) {p} : SafeState (s.handBackIf p) := by
  unfold State.handBackIf
  refine hs.foldl fun _ _ hs => ?_
  split
  · exact hs
  · exact .ite hs.handBack hs

theorem clusterReset (hs : SafeState s) {v u} : SafeState (s.clusterReset v u) := by
  unfold State.clusterReset
  refine SafeState.reportReset (SafeState.handBackIf (SafeState.endLate ?_))
  refine SafeState.foldl ((SafeState.dropMessages (by exact hs)).foldl fun _ _ hs => ?_) fun _ _ hs => hs.failRest
  split
  · exact hs
  · exact (hs.loseAccs.updThread.takeFault.foldl fun _ _ hs => hs.takeCommand).progressClose

theorem resetChannel (hs : SafeState s) {stack ch} : SafeState (s.resetChannel stack ch) := by
  unfold State.resetChannel
  refine SafeState.reportReset (SafeState.updStack ?_)
  refine SafeState.foldl (SafeState.foldl ?_ fun _ _ hs => ?_) fun _ _ hs => hs.takeFault.progressClose
  · refine hs.foldl fun _ _ hs => ?_
    split
    · refine .ite ?_ hs
      split
      · exact hs.setHold.setBuf
      · exact hs.setBuf
    · exact .ite hs.setBuf hs
    · exact hs
  · split
    · exact .ite (hs.pokeWord _ _) hs
    · exact hs

theorem stackReset (hs : SafeState s) {v u} : SafeState (s.stackReset v u) :=
  (SafeState.dropMessages (by exact hs)).endLate.handBackIf.foldl fun _ _ hs => hs.resetChannel

theorem straggler (hs : SafeState s) {iv u} : SafeState (s.straggler iv u) := by
  unfold State.straggler
  split
  · exact hs
  · exact .ite hs (SafeState.ite hs.clusterReset hs.stackReset).acknowledged

theorem refreshSub (hs : SafeState s) {sub} : SafeState (s.refreshSub sub) := by
  unfold State.refreshSub
  dsimp only
  split
  · exact hs
  · exact hs.setBuf
  · exact hs.setSub

theorem reactivate (hs : SafeState s) {sub} : SafeState (s.reactivate sub) := by
  unfold State.reactivate
  split
  exact .ite hs hs.charge.setSub

theorem grant (hs : SafeState s) {stack} : SafeState (s.grant stack) := by
  unfold State.grant
  split
  · exact hs
  · extract_lets sub s₁
    have h₁ : SafeState s₁ := hs.updStack
    split
    refine .ite hs ?_
    split
    · exact h₁.charge.setBuf
    · exact h₁.charge.setBuf
    · exact h₁

theorem claimTimeout (hs : SafeState s) {sub} : SafeState (s.claimTimeout sub) := by
  unfold State.claimTimeout
  split
  · refine .ite hs ?_
    split
    · exact hs
    · exact .ite hs.preempt hs
  · exact hs

theorem encke (hs : SafeState s) {id} : SafeState (s.encke id) := by
  unfold State.encke
  split
  · exact hs
  · exact .ite hs hs.takeFault.progressClose

theorem channelReset (hs : SafeState s) {stack ch} : SafeState (s.channelReset stack ch) := .ite hs.resetChannel hs

theorem slotBoundary (hs : SafeState s) {name} : SafeState (s.slotBoundary name) := by
  unfold State.slotBoundary
  refine hs.foldl fun _ _ hs => ?_
  split
  · exact .ite hs.waitWake hs
  · exact hs

theorem deadlockGuard (hs : SafeState s) {cluster} : SafeState (s.deadlockGuard cluster) := by
  unfold State.deadlockGuard
  dsimp only
  split
  · exact hs
  · exact .ite hs (hs.foldl fun _ _ hs => hs.takeFault.progressClose)

theorem handbackPost (hs : SafeState s) {k} : SafeState (s.handbackPost k) := by
  unfold State.handbackPost
  extract_lets x
  split
  · exact hs
  · extract_lets done logIt
    have hd {t : State} (ht : SafeState t) : SafeState (done t) := ht.setCtx
    have hl {t : State} (ht : SafeState t) (n : Nat) : SafeState (logIt t n) := ht.logRec.raise
    split
    · exact hl (hd hs) _
    · refine .ite (hd hs).setTenant ?_
      split
      · exact hl (hd hs) _
      · refine .ite hs ?_
        split
        · exact hs.reachPosting.wait ‹_›
        · exact (hd (hs.reachPosting.ok ‹_›)).putSlot

theorem packetWord (hs : SafeState s) {t i} : SafePair (s.packetWord t i) := by
  unfold State.packetWord
  split
  · exact hs.reachPosting.wait ‹_›
  · split
    · exact hs.reachPosting.ok ‹_›
    · split
      · exact (hs.reachPosting.ok ‹_›).reach.wait ‹_›
      · exact (hs.reachPosting.ok ‹_›).reach.ok ‹_›

theorem examineSlot (hs : SafeState s) {tenant i} : SafeState (s.examineSlot tenant i) := by
  unfold State.examineSlot
  split
  · exact hs
  · split
    · exact hs.packetWord.fst ‹_›
    · exact .ite (.ite (hs.packetWord.fst ‹_›) (hs.packetWord.fst ‹_›).setTenant.violate) (hs.packetWord.fst ‹_›).setTenant

theorem logStale (hs : SafeState s) {tenant} : SafeState (s.logStale tenant) := by
  unfold State.logStale
  split
  · exact hs
  · exact hs.foldl fun _ _ hs => hs.examineSlot

theorem takePacket (hs : SafeState s) {t} : SafeState (s.takePacket t) := hs.setTenant

theorem refusePacket (hs : SafeState s) {t dp w} : SafeState (s.refusePacket t dp w) :=
  .ite hs.takePacket.hubPoke.violate.raise hs.takePacket.hubPoke.violate

theorem launchPacket (hs : SafeState s) {t dp row handle} : SafeState (s.launchPacket t dp row handle) :=
  .ite hs.takePacket.placeRow.hubPoke.raise hs.takePacket.placeRow.hubPoke

theorem servePacket (hs : SafeState s) {t dp row handle} : SafeState (s.servePacket t dp row handle) := by
  unfold State.servePacket
  refine .ite hs.refusePacket ?_
  split
  · refine .ite hs ?_
    split
    · exact hs.reachPosting.wait ‹_›
    · exact (hs.reachPosting.ok ‹_›).refusePacket
  · refine .ite hs ?_
    split
    · exact hs.reachPosting.wait ‹_›
    · split
      · exact (hs.reachPosting.ok ‹_›).reach.wait ‹_›
      · exact ((hs.reachPosting.ok ‹_›).reach.ok ‹_›).launchPacket

theorem launch (hs : SafeState s) {tenant row handle} : SafeState (s.launch tenant row handle) := by
  unfold State.launch
  extract_lets s₁
  have h₁ : SafeState s₁ := hs.logStale
  split
  · exact h₁
  · extract_lets va
    split
    · exact h₁.reachPosting.wait ‹_›
    next s₂ e =>
      have h₂ : SafeState s₂ := h₁.reachPosting.ok e
      split
      · exact h₂.logRec
      · split
        · exact h₂.reach.wait ‹_›
        · exact .ite (h₂.reach.ok ‹_›).servePacket (h₂.reach.ok ‹_›)

theorem trackerMove (hs : SafeState s) {x} : SafeState (s.trackerMove x) := by
  unfold State.trackerMove
  split
  · exact .ite hs.setDpit hs
  · dsimp only
    split
    · exact .ite hs.setDpit hs
    · exact hs
  · exact .ite hs.setDpit hs

theorem donateFrame (hs : SafeState s) {stack frame} : SafeState (s.donateFrame stack frame) := .ite hs hs
theorem trackerPeriod (hs : SafeState s) {ms} : SafeState (s.trackerPeriod ms) := .ite hs ((hs.foldl fun _ _ hs => hs.trackerMove).of_mem rfl)

theorem moveDone (hs : SafeState s) {page} : SafeState (s.moveDone page) := by
  unfold State.moveDone
  refine .ite hs (SafeState.setDpit ?_)
  split
  · refine SafeState.of_mem (t := _) ?_ rfl
    split <;> exact hs
  · split <;> exact hs

theorem freeCopies (hs : SafeState s) {page loc} : SafeState (s.freeCopies page loc) := by
  unfold State.freeCopies
  refine hs.foldl fun _ _ hs => ?_
  split
  · exact .ite hs.setBuf hs
  · exact hs

theorem revertDone (hs : SafeState s) {page} : SafeState (s.revertDone page) := .ite hs hs.freeCopies.setDpit

theorem scrubErase (hs : SafeState s) {t sc} : SafeState (s.scrubErase t sc) := by
  refine SafeState.dropClaims (SafeState.setTenant ?_)
  refine SafeState.filter (SafeState.foldl hs fun _ _ hs => ?_) rfl
  split
  · exact hs.charge
  · exact hs

theorem scrubComplete (hs : SafeState s) : SafeState s.scrubComplete := by
  unfold State.scrubComplete
  split
  · exact hs
  · refine .ite hs ?_
    split
    · exact hs
    · refine .ite hs ?_
      split
      · exact hs.reach.wait ‹_›
      · next h => exact (hs.reach.ok h).scrubErase.pokeAll.setGran.counterMove.outsideTaken.of_mem rfl

theorem execTranslationMissPost (hs : SafeState s) : SafeOutcome (execTranslationMissPost s) := by
  unfold Machine.execTranslationMissPost
  show SafeState _
  split
  · exact hs.postMessage
  · exact hs

theorem execTranslationReply (hs : SafeState s) : SafeOutcome (execTranslationReply s) := by
  unfold Machine.execTranslationReply
  show SafeState _
  split
  · exact hs.translationReply
  · exact hs

theorem execTlbAck (hs : SafeState s) : SafeOutcome (execTlbAck s) := by
  unfold Machine.execTlbAck
  show SafeState _
  split
  · exact hs.tlbAck
  · exact hs

theorem execInvalidationCounterMove (hs : SafeState s) : SafeOutcome (execInvalidationCounterMove s) := by
  unfold Machine.execInvalidationCounterMove
  show SafeState _
  split
  · exact hs.invalidationMove
  · exact hs

theorem execStragglerReset (hs : SafeState s) : SafeOutcome (execStragglerReset s) := by
  unfold Machine.execStragglerReset
  show SafeState _
  split
  · exact hs.straggler
  · exact hs

theorem execSubarrayRefresh (hs : SafeState s) : SafeOutcome (execSubarrayRefresh s) := by
  unfold Machine.execSubarrayRefresh
  show SafeState _
  split
  · exact hs.refreshSub
  · exact hs

theorem execRefreshReactivate (hs : SafeState s) : SafeOutcome (execRefreshReactivate s) := by
  unfold Machine.execRefreshReactivate
  show SafeState _
  split
  · exact hs.reactivate
  · exact hs

theorem execActivateGrant (hs : SafeState s) : SafeOutcome (execActivateGrant s) := by
  unfold Machine.execActivateGrant
  show SafeState _
  split
  · exact hs.grant
  · exact hs

theorem execClaimTimeout (hs : SafeState s) : SafeOutcome (execClaimTimeout s) := by
  unfold Machine.execClaimTimeout
  show SafeState _
  split
  · exact hs.claimTimeout
  · exact hs

theorem execEnckeWatchdog (hs : SafeState s) : SafeOutcome (execEnckeWatchdog s) := by
  unfold Machine.execEnckeWatchdog
  show SafeState _
  split
  · exact hs.encke
  · exact hs

theorem execChannelReset (hs : SafeState s) : SafeOutcome (execChannelReset s) := by
  unfold Machine.execChannelReset
  show SafeState _
  split
  · exact hs.channelReset
  · exact hs

theorem execSlotBoundary (hs : SafeState s) : SafeOutcome (execSlotBoundary s) := by
  unfold Machine.execSlotBoundary
  show SafeState _
  split
  · exact hs.slotBoundary
  · exact hs

theorem execDeadlockGuard (hs : SafeState s) : SafeOutcome (execDeadlockGuard s) := by
  unfold Machine.execDeadlockGuard
  show SafeState _
  split
  · exact hs.deadlockGuard
  · exact hs

theorem execHandbackPost (hs : SafeState s) : SafeOutcome (execHandbackPost s) := by
  unfold Machine.execHandbackPost
  show SafeState _
  split
  · exact hs.handbackPost
  · exact hs

theorem execLaunchPacket (hs : SafeState s) : SafeOutcome (execLaunchPacket s) := by
  unfold Machine.execLaunchPacket
  show SafeState _
  split
  · exact hs.launch
  · exact hs

theorem execTrackerPeriod (hs : SafeState s) : SafeOutcome (execTrackerPeriod s) := by
  unfold Machine.execTrackerPeriod
  show SafeState _
  split
  · exact hs.trackerPeriod
  · exact hs.donateFrame
  · exact hs

theorem execDpitMoveDone (hs : SafeState s) : SafeOutcome (execDpitMoveDone s) := by
  unfold Machine.execDpitMoveDone
  show SafeState _
  split
  · exact hs.moveDone
  · exact hs

theorem execDpitRevertDone (hs : SafeState s) : SafeOutcome (execDpitRevertDone s) := by
  unfold Machine.execDpitRevertDone
  show SafeState _
  split
  · exact hs.revertDone
  · exact hs

theorem execScrubComplete (hs : SafeState s) : SafeOutcome (execScrubComplete s) := hs.scrubComplete

end SafeState

/-! ### The functions of Machine/Hub.lean -/

namespace SafeState

theorem restart {s : State} {powered : Bool} : SafeState (s.restart powered) := rfl
theorem raiseIslands (hs : SafeState s) {ns} : SafeState (s.raiseIslands ns) := hs.foldl fun _ _ hs => hs.updIsland

theorem enterRecovery (hs : SafeState s) {err} : SafeState (s.enterRecovery err) :=
  SafeState.logRec (by exact (SafeState.ite hs.raiseIslands hs).of_mem rfl)

theorem verifyImages (hs : SafeState s) {ks} : SafePair (s.verifyImages ks) := by
  induction ks generalizing s with
  | nil => exact hs
  | cons k ks ih =>
    unfold State.verifyImages
    split
    · exact hs.enterRecovery
    · exact .ite hs.enterRecovery (ih hs)

theorem toStage (hs : SafeState s) {n} : SafeState (s.toStage n) := hs
theorem fatalStop (hs : SafeState s) {err} : SafeState (s.fatalStop err) := SafeState.logRec (by exact hs)
theorem clearMemory (hs : SafeState s) {p} : SafeState (s.clearMemory p) := hs.filter rfl

theorem clearStackMemory (hs : SafeState s) : SafeState s.clearStackMemory := by
  have h : SafeState (s.clearMemory fun a => s.region a == .dram) := hs.clearMemory
  exact h

theorem clearTileMemory (hs : SafeState s) : SafeState s.clearTileMemory := by
  have h : SafeState (s.clearMemory s.inTile) := hs.clearMemory
  exact h

theorem toReady (hs : SafeState s) : SafeState s.toReady := hs

theorem stageWorkDone (hs : SafeState s) : SafeState s.stageWorkDone := by
  unfold State.stageWorkDone
  split
  · exact hs
  · split
    next e => exact .ite (hs.verifyImages.fst e).toStage (hs.verifyImages.fst e)
  · split
    next e => exact .ite (hs.raiseIslands.verifyImages.fst e).toStage (hs.raiseIslands.verifyImages.fst e)
  · exact hs.raiseIslands.clearStackMemory.toStage
  · exact hs.raiseIslands.clearTileMemory.toStage
  · extract_lets s₁ s₂
    have h₁ : SafeState s₁ := hs.raiseIslands
    exact SafeState.toReady (by exact h₁)
  · exact hs

theorem stageDone (hs : SafeState s) {r} : SafeState (s.stageDone r) := by
  unfold State.stageDone
  refine .ite hs ?_
  split
  · exact hs.stageWorkDone
  · exact .ite hs.enterRecovery hs
  · exact .ite hs.fatalStop hs

theorem mailReply (hs : SafeState s) {r} : SafeState (s.mailReply r) := hs
theorem mailBusy (hs : SafeState s) : SafeState s.mailBusy := hs.mailReply.logRec

theorem readyCommand (hs : SafeState s) {f : State → State} (hf : ∀ s, SafeState s → SafeState (f s)) : SafeState (s.readyCommand f) :=
  .ite hs (.ite hs.mailBusy (hf s hs))

theorem anyCommand (hs : SafeState s) {f : State → State} (hf : ∀ s, SafeState s → SafeState (f s)) : SafeState (s.anyCommand f) :=
  .ite (hf s hs) hs

theorem createTenant (hs : SafeState s) {r} : SafeState (s.createTenant r) := .ite hs.mailReply (SafeState.allotFresh (by exact hs)).mailReply

theorem hostWindow (hs : SafeState s) {tenant win winb wins} : SafeState (s.hostWindow tenant win winb wins) := by
  unfold State.hostWindow
  split
  · exact hs.mailReply
  · extract_lets b z
    split
    exact .ite hs.mailReply hs.setTenant.clearBankWindows.mailReply

theorem loadKey (hs : SafeState s) {tenant slot key} : SafeState (s.loadKey tenant slot key) := by
  unfold State.loadKey
  split
  · exact hs.mailReply
  · exact .ite (SafeState.mailReply (by exact hs)) hs.mailReply

theorem hostScrub (hs : SafeState s) {tenant area nonce} : SafeState (s.hostScrub tenant area nonce) := by
  unfold State.hostScrub
  refine .ite hs.mailReply ?_
  split
  exact .ite (hs.startScrub.fst ‹_›).hubPoke.mailReply hs.mailReply

theorem getReceipt (hs : SafeState s) {tenant} : SafeState (s.getReceipt tenant) := hs.mailReply

theorem fabricEntry (hs : SafeState s) {route index value} : SafeState (s.fabricEntry route index value) := by
  unfold State.fabricEntry
  refine .ite ?_ hs.mailReply
  split
  · exact hs.writeCr.mailReply
  · exact hs

theorem transferFw (hs : SafeState s) {img} : SafeState (s.transferFw img) := SafeState.mailReply (by exact hs)

theorem activateFw (hs : SafeState s) {slot} : SafeState (s.activateFw slot) := by
  unfold State.activateFw
  split
  · exact hs.mailReply
  · exact .ite hs.mailReply (.ite (SafeState.mailReply (by exact hs)) (SafeState.mailReply (by exact hs)).logRec)

theorem hostViolation (hs : SafeState s) {tenant a} : SafeState (s.hostViolation tenant a) := hs.violate
theorem hostCompletion (hs : SafeState s) {bs poison} : SafeState (s.hostCompletion bs poison) := hs

theorem hostReadLine (hs : SafeState s) {a n} : SafeState (s.hostReadLine a n) := by
  unfold State.hostReadLine
  split
  · exact hs.enqueue
  · exact .ite hs.hostCompletion hs.hostCompletion

theorem memReadLine (hs : SafeState s) {a n ide} : SafeState (s.memReadLine a n ide) := by
  unfold State.memReadLine
  refine .ite hs.hostCompletion.logRec ?_
  split
  · exact hs.hostCompletion.hostViolation
  · exact hs.countWindow.hostReadLine

theorem hostReach (hs : SafeState s) {a n} : SafeReach (s.hostReach a n) := .ite hs hs.reachAll

theorem memWriteLine (hs : SafeState s) {a bs ide} : SafeState (s.memWriteLine a bs ide) := by
  unfold State.memWriteLine
  refine .ite hs.logRec ?_
  split
  · exact hs.hostViolation
  · exact hs.countWindow.outsideStore

theorem memRead (hs : SafeState s) {a n ide} : SafeState (s.memRead a n ide) := by
  have hr : SafeReach (if s.boot.stage = 6 then s.hostReach a n else .ok s) := .ite (q := .ok s) hs.hostReach hs
  unfold State.memRead
  refine .ite hs ?_
  split
  · exact hr.wait ‹_›
  · exact (hr.ok ‹_›).foldl fun _ _ hs => hs.memReadLine

theorem memWrite (hs : SafeState s) {a bs ide} : SafeState (s.memWrite a bs ide) := .ite hs (hs.foldl fun _ _ hs => hs.memWriteLine)

theorem farAccess (hs : SafeState s) {a n bytes} : SafeState (s.farAccess a n bytes) := by
  unfold State.farAccess
  refine .ite hs ?_
  split
  · exact hs
  · split
    · exact hs.outsideStore
    · exact hs.foldl fun _ _ hs => hs.hostReadLine

theorem registerRead (hs : SafeState s) {a n} : SafeState (s.registerRead a n) := by
  unfold State.registerRead
  refine .ite hs ?_
  split
  · split
    · exact hs.hostReach.wait ‹_›
    · exact (hs.hostReach.ok ‹_›).foldl fun _ _ hs => hs.hostReadLine
  · split <;> exact hs.hostCompletion

theorem spdm (hs : SafeState s) {r} : SafeState (s.spdm r) := by
  unfold State.spdm
  extract_lets s₁
  have h₁ : SafeState s₁ := hs.mailReply
  split <;> exact h₁

theorem execPowerGood (hs : SafeState s) : SafeOutcome (execPowerGood s) := SafeState.ite hs .restart
theorem execPowerLoss (_ : SafeState s) : SafeOutcome (execPowerLoss s) := SafeState.restart
theorem execPerst (hs : SafeState s) : SafeOutcome (execPerst s) := SafeState.ite .restart hs

theorem execBootStageDone (hs : SafeState s) : SafeOutcome (execBootStageDone s) := by
  unfold Machine.execBootStageDone
  show SafeState _
  split
  · exact hs.stageDone
  · exact hs

theorem execGetFwInfo (hs : SafeState s) : SafeOutcome (execGetFwInfo s) := hs.anyCommand fun _ hs => hs.mailReply
theorem execIdentify (hs : SafeState s) : SafeOutcome (execIdentify s) := hs.anyCommand fun _ hs => hs.mailReply

theorem execTransferFw (hs : SafeState s) : SafeOutcome (execTransferFw s) := by
  unfold Machine.execTransferFw
  show SafeState _
  split
  · exact hs.anyCommand (fun _ hs => hs.transferFw)
  · exact hs

theorem execActivateFw (hs : SafeState s) : SafeOutcome (execActivateFw s) := by
  unfold Machine.execActivateFw
  show SafeState _
  split
  · exact hs.anyCommand (fun _ hs => hs.activateFw)
  · exact hs

theorem execMailboxBusy (hs : SafeState s) : SafeOutcome (execMailboxBusy s) := hs.readyCommand fun _ hs => hs

theorem execCreateTenant (hs : SafeState s) : SafeOutcome (execCreateTenant s) := by
  unfold Machine.execCreateTenant
  show SafeState _
  split
  · exact hs.readyCommand (fun _ hs => hs.createTenant)
  · exact hs

theorem execSetWindow (hs : SafeState s) : SafeOutcome (execSetWindow s) := by
  unfold Machine.execSetWindow
  show SafeState _
  split
  · exact hs.readyCommand (fun _ hs => hs.hostWindow)
  · exact hs

theorem execLoadKey (hs : SafeState s) : SafeOutcome (execLoadKey s) := by
  unfold Machine.execLoadKey
  show SafeState _
  split
  · exact hs.readyCommand (fun _ hs => hs.loadKey)
  · exact hs

theorem execScrubTenant (hs : SafeState s) : SafeOutcome (execScrubTenant s) := by
  unfold Machine.execScrubTenant
  show SafeState _
  split
  · exact hs.readyCommand (fun _ hs => hs.hostScrub)
  · exact hs

theorem execGetReceipt (hs : SafeState s) : SafeOutcome (execGetReceipt s) := by
  unfold Machine.execGetReceipt
  show SafeState _
  split
  · exact hs.readyCommand (fun _ hs => hs.getReceipt)
  · exact hs

theorem execSetAclSetRoute (hs : SafeState s) : SafeOutcome (execSetAclSetRoute s) := by
  unfold Machine.execSetAclSetRoute
  show SafeState _
  split
  · exact hs.readyCommand (fun _ hs => hs.fabricEntry)
  · exact hs

theorem execGetLog (hs : SafeState s) : SafeOutcome (execGetLog s) := by
  unfold Machine.execGetLog
  show SafeState _
  split
  · exact hs.readyCommand (fun _ hs => hs.mailReply)
  · exact hs

theorem execCxlMemRead (hs : SafeState s) : SafeOutcome (execCxlMemRead s) := by
  unfold Machine.execCxlMemRead
  show SafeState _
  split
  · exact hs.memRead
  · exact hs.farAccess
  · exact hs.registerRead
  · exact hs

theorem execCxlMemWrite (hs : SafeState s) : SafeOutcome (execCxlMemWrite s) := by
  unfold Machine.execCxlMemWrite
  show SafeState _
  split
  · exact hs.memWrite
  · exact hs.farAccess
  · exact hs

theorem execSpdmRequest (hs : SafeState s) : SafeOutcome (execSpdmRequest s) := by
  unfold Machine.execSpdmRequest
  show SafeState _
  split
  · exact hs.anyCommand (fun _ hs => hs.spdm)
  · exact hs

end SafeState

/-! ### The functions of Machine/Fabric.lean -/

namespace SafeState

theorem onPort (hs : SafeState s) {n f} : SafeState (s.onPort n f) := hs.updPort

theorem acceptFlit (hs : SafeState s) {n f} : SafeState (s.acceptFlit n f) := by
  unfold State.acceptFlit
  refine .ite hs.updPort ?_
  dsimp only
  split
  · exact (SafeState.ite hs.updPort hs).sendFlits
  · exact .ite hs.updPort hs

theorem receiveFlit (hs : SafeState s) {n bs} : SafeState (s.receiveFlit n bs) := by
  unfold State.receiveFlit
  split
  · exact hs
  · exact .ite hs (.ite hs.onPort (.ite (.ite hs.onPort.onPort hs.onPort) (.ite (SafeState.ite hs.onPort.onPort hs.onPort).updPort.acceptFlit (.ite
        (.ite hs.onPort.onPort hs.onPort) (SafeState.ite hs.onPort.onPort hs.onPort).updPort))))

theorem respond (hs : SafeState s) {m kind bytes} : SafeState (s.respond m kind bytes) := hs.sendMessage
theorem respondError (hs : SafeState s) {m ecode} : SafeState (s.respondError m ecode) := hs.respond
theorem refuseInbound (hs : SafeState s) {m addr} : SafeState (s.refuseInbound m addr) := hs.violate.respondError

theorem stopInbound (hs : SafeState s) {m x} : SafeState (s.stopInbound m x) := by
  unfold State.stopInbound
  split
  · exact hs.respondError
  · exact hs.refuseInbound
  · exact hs.respondError
  · exact hs.respondError

theorem inboundTaken (hs : SafeState s) {ps} : SafeState (s.inboundTaken ps) := hs.foldl fun _ _ hs => hs.outsideTaken

theorem serveInbound (hs : SafeState s) {m bits n k write also} {f : State → List (Nat × Nat) → State}
    (hf : ∀ s ps, SafeState s → SafeState (f s ps)) : SafeState (s.serveInbound m bits n k write also f) := by
  unfold State.serveInbound
  split
  · exact hs.refuseInbound
  · extract_lets tables
    split
    · exact hs.reachAll.wait ‹_›
    next s₁ e =>
      have h₁ : SafeState s₁ := hs.reachAll.ok e
      split
      · exact h₁.stopInbound
      · refine .ite h₁ ?_
        split
        · exact h₁.partsReach.wait ‹_›
        next s₂ e =>
          have h₂ : SafeState s₂ := h₁.partsReach.ok e
          exact hf _ _ (h₂.foldl fun _ _ hs => hs.countWindow).inboundTaken

theorem inboundGet (hs : SafeState s) {m} : SafeState (s.inboundGet m) := hs.serveInbound fun _ _ hs => .ite hs.respondError hs.respond
theorem inboundPut (hs : SafeState s) {m} : SafeState (s.inboundPut m) := hs.serveInbound fun _ _ hs => .ite hs.refuseInbound hs.partsWrite.respond

theorem inboundLaunch (hs : SafeState s) {m} : SafeState (s.inboundLaunch m) := by
  unfold State.inboundLaunch
  refine hs.serveInbound (fun _ _ hs => ?_)
  split
  · exact .ite hs.partsWrite.respond hs.refuseInbound
  · exact hs.refuseInbound

theorem inboundAtomic (hs : SafeState s) {m} : SafeState (s.inboundAtomic m) := by
  unfold State.inboundAtomic
  refine hs.serveInbound (fun _ _ hs => ?_)
  split
  · split
    · exact (hs.doAtomic.some ‹_›).respond
    · exact hs.respondError
  · exact hs.respondError

theorem inboundSync (hs : SafeState s) {m} : SafeState (s.inboundSync m) := by
  unfold State.inboundSync
  split
  · exact hs.refuseInbound
  · dsimp only
    split
    · exact hs.refuseInbound
    · exact .ite hs.refuseInbound (.ite (.ite hs.respond hs) (SafeState.respond (by exact hs)))

theorem deliver (hs : SafeState s) {o x who kind index bs} : SafeXfer (s.deliver o x who kind index bs) := by
  unfold State.deliver
  split
  · exact hs
  · dsimp only
    split
    · exact hs.postOwnerMiss
    · exact hs.violate
    · exact hs.dropNoMapping
    · exact hs
    · refine .ite hs ?_
      split
      · exact hs.partsReach.wait ‹_›
      · exact ((hs.partsReach.ok ‹_›).foldl fun _ _ hs => hs.countWindow).inboundTaken.partsWrite

theorem commandTaken (hs : SafeState s) {k i lines read} : SafeState (s.commandTaken k i lines read) := by
  unfold State.commandTaken
  dsimp only
  split
  · exact hs
  · exact hs.setCtx

theorem elementTaken (hs : SafeState s) {op i lines} : SafeState (s.elementTaken op i lines) := by
  unfold State.elementTaken
  split
  · exact hs
  · exact .ite hs hs.setOneSided

theorem indexCame (hs : SafeState s) {op i bs} : SafeState (s.indexCame op i bs) := by
  unfold State.indexCame
  split
  · exact hs
  · exact hs.setOneSided

theorem elementData (hs : SafeState s) {o r i bs} : SafeState (s.elementData o r i bs) := by
  unfold State.elementData
  dsimp only
  split
  · exact hs.postOwnerMiss
  · exact hs.dropNoMapping.dropRemote.failElement
  · exact hs.violate.dropRemote.failElement
  · exact hs.dropRemote
  · split
    · exact hs.partsReach.wait ‹_›
    · split
      · exact .ite (hs.partsReach.ok ‹_›) (hs.partsReach.ok ‹_›).inboundTaken.dropRemote.failElement
      · refine .ite (hs.partsReach.ok ‹_›) (.ite (hs.partsReach.ok ‹_›).dropRemote ?_)
        split
        · exact (hs.partsReach.ok ‹_›).deliver.wait ‹_›
        · exact ((hs.partsReach.ok ‹_›).deliver.fail ‹_›).dropRemote.failElement
        · exact ((hs.partsReach.ok ‹_›).deliver.remote ‹_›).dropRemote.sendRemote
        · exact ((hs.partsReach.ok ‹_›).deliver.done ‹_›).dropRemote.elementTaken

theorem getData (hs : SafeState s) {tag bs} : SafeState (s.getData tag bs) := by
  unfold State.getData
  split
  · exact hs
  · split
    · exact .ite hs.dropRemote.answer hs
    · exact .ite hs.dropRemote.indexCame hs
    · split
      · exact hs.dropRemote
      · exact .ite hs.dropRemote hs.elementData
    · split
      · exact hs.dropRemote
      · refine .ite hs (.ite hs.dropRemote ?_)
        split
        · exact hs.deliver.wait ‹_›
        · exact (hs.deliver.fail ‹_›).dropRemote.handBack
        · exact (hs.deliver.remote ‹_›).dropRemote.sendRemote
        · exact (hs.deliver.done ‹_›).dropRemote.commandTaken
    · exact hs

theorem putAck (hs : SafeState s) {tag} : SafeState (s.putAck tag) := by
  unfold State.putAck
  split
  · exact hs
  · split
    · exact hs.dropRemote.updThread.progressClose
    · exact .ite hs hs.dropRemote.elementTaken
    · exact .ite hs hs.dropRemote.commandTaken
    · exact hs

theorem atomicReply (hs : SafeState s) {tag w} : SafeState (s.atomicReply tag w) := by
  unfold State.atomicReply
  split
  · exact hs
  · split
    · exact hs.dropRemote.answer
    · exact hs

theorem fabricError (hs : SafeState s) {tag code} : SafeState (s.fabricError tag code) := by
  unfold State.fabricError
  split
  · exact hs
  · dsimp only
    split
    · exact hs.dropRemote.answer
    · exact hs.dropRemote.answer
    · exact hs.dropRemote.dropStore
    · split
      · exact hs.dropRemote
      · exact .ite hs.dropRemote hs.dropRemote.failElement
    · split
      · exact hs.dropRemote
      · exact .ite hs.dropRemote hs.dropRemote.failElement
    · split
      · exact hs.dropRemote
      · exact .ite hs.dropRemote hs.dropRemote.handBack

theorem execFlitReceive (hs : SafeState s) : SafeOutcome (execFlitReceive s) := by
  unfold Machine.execFlitReceive
  show SafeState _
  split
  · exact hs.receiveFlit
  · exact hs

theorem execReplayTimeout (hs : SafeState s) : SafeOutcome (execReplayTimeout s) := by
  unfold Machine.execReplayTimeout
  show SafeState _
  split
  · exact .ite hs.onPort hs
  · exact hs

theorem execLinkLost (hs : SafeState s) : SafeOutcome (execLinkLost s) := by
  unfold Machine.execLinkLost
  show SafeState _
  split
  · refine .ite hs ?_
    split
    · exact hs.linkRows.wait ‹_›
    · exact hs.linkLost
  · exact hs

theorem execLinkRetrained (hs : SafeState s) : SafeOutcome (execLinkRetrained s) := by
  unfold Machine.execLinkRetrained
  show SafeState _
  split
  · exact .ite hs.onPort hs
  · exact hs

theorem execLaneDegraded (hs : SafeState s) : SafeOutcome (execLaneDegraded s) := by
  unfold Machine.execLaneDegraded
  show SafeState _
  split
  · exact hs.onPort
  · exact hs

theorem execRetrainDone (hs : SafeState s) : SafeOutcome (execRetrainDone s) := by
  unfold Machine.execRetrainDone
  show SafeState _
  split
  · exact hs.onPort
  · exact hs

theorem execPortRetrain (hs : SafeState s) : SafeOutcome (execPortRetrain s) := by
  unfold Machine.execPortRetrain
  show SafeState _
  split
  · exact hs.onPort
  · exact hs

theorem execInboundGetRequest (hs : SafeState s) : SafeOutcome (execInboundGetRequest s) := by
  unfold Machine.execInboundGetRequest
  show SafeState _
  split
  · exact hs.inboundGet
  · exact hs

theorem execInboundPut (hs : SafeState s) : SafeOutcome (execInboundPut s) := by
  unfold Machine.execInboundPut
  show SafeState _
  split
  · exact hs.inboundPut
  · exact hs

theorem execInboundLaunch (hs : SafeState s) : SafeOutcome (execInboundLaunch s) := by
  unfold Machine.execInboundLaunch
  show SafeState _
  split
  · exact hs.inboundLaunch
  · exact hs

theorem execInboundSync (hs : SafeState s) : SafeOutcome (execInboundSync s) := by
  unfold Machine.execInboundSync
  show SafeState _
  split
  · exact hs.inboundSync
  · exact hs

theorem execInboundAtomicRequest (hs : SafeState s) : SafeOutcome (execInboundAtomicRequest s) := by
  unfold Machine.execInboundAtomicRequest
  show SafeState _
  split
  · exact hs.inboundAtomic
  · exact hs

theorem execGetData (hs : SafeState s) : SafeOutcome (execGetData s) := by
  unfold Machine.execGetData
  show SafeState _
  split
  · exact hs.getData
  · exact hs

theorem execPutAcknowledgement (hs : SafeState s) : SafeOutcome (execPutAcknowledgement s) := by
  unfold Machine.execPutAcknowledgement
  show SafeState _
  split
  · exact hs.putAck
  · exact hs

theorem execAtomicReply (hs : SafeState s) : SafeOutcome (execAtomicReply s) := by
  unfold Machine.execAtomicReply
  show SafeState _
  split
  · exact hs.atomicReply
  · exact hs

theorem execFabricError (hs : SafeState s) : SafeOutcome (execFabricError s) := by
  unfold Machine.execFabricError
  show SafeState _
  split
  · exact hs.fabricError
  · exact hs

end SafeState

/-! ### The functions of Machine/ThreadControl.lean -/

namespace SafeExec

theorem commandStore {f code withPc mark} : SafeExec (commandStore f code withPc mark) :=
  .bind .readX fun _ => .bind .readX fun _ => .bind .require fun _ => .bind .store fun _ => .pure

end SafeExec

namespace SafeState

theorem execThStart (hs : SafeState s) {f} : SafeOutcome (execThStart f s) := hs.asInstr .commandStore
theorem execThStop (hs : SafeState s) {f} : SafeOutcome (execThStop f s) := hs.asInstr .commandStore
theorem execThRedirect (hs : SafeState s) {f} : SafeOutcome (execThRedirect f s) := hs.asInstr .commandStore

theorem execThSpawn (hs : SafeState s) {f} : SafeOutcome (execThSpawn f s) :=
  hs.asInstr (.bind .readX fun _ => .bind .readX fun _ => .bind .readX fun _ => .get fun _ _ => .bind .me fun _ => .bind .require fun _ =>
      .bind (.modify fun _ hs => hs.updThread) fun _ => .pure)

theorem execThYield (hs : SafeState s) {f} : SafeOutcome (execThYield f s) :=
  hs.asInstr (.get fun _ hs => .bind .me fun _ => .ite .pure (.bind (.set hs.updThread) fun _ => .pure))

theorem execThWait (hs : SafeState s) {f} : SafeOutcome (execThWait f s) :=
  hs.asInstr (.bind .readX fun _ => .get fun _ hs => .bind .me fun _ => .ite (.bind .writeX fun _ => .pure) (.ite (.bind .writeX fun _ =>
      .pure) (.bind (.set hs.setCtrl.updThread) fun _ => .pure)))

theorem execThExit (hs : SafeState s) {f} : SafeOutcome (execThExit f s) :=
  hs.asInstr (.bind .sbEmpty fun _ => .ite (.bind .readX fun _ => .bind .atomic fun _ => .bind .me fun _ => .bind (.modify fun _ hs =>
      hs.killState) fun _ => .pure) (.bind .me fun _ => .bind (.modify fun _ hs => hs.killState) fun _ => .pure))

theorem execThSelf (hs : SafeState s) {f} : SafeOutcome (execThSelf f s) :=
  hs.asInstr (.get fun _ _ => .bind .me fun _ => .bind .writeX fun _ => .pure)

end SafeState

namespace SafeExec

theorem peek {va n} : SafeExec (peek va n) := by
  unfold Machine.peek
  refine .bind .require fun _ => .get fun _ hs => .bind .me fun _ => ?_
  dsimp only
  split
  · exact .ite (.bind .checkHold fun _ => .bind .reachRow fun _ => .get fun _ hs => .guard .fault fun _ => .guard (.modify fun _ hs =>
        hs.noteBankWindow.countWindow.viewNewest) fun _ => .pure) (.get fun _ hs => .guard .fault fun _ => .guard (.modify fun _ hs =>
        hs.noteBankWindow.countWindow.viewNewest) fun _ => .pure)
  · split
    · split
      · exact .pure
      · exact .faultLogged
    · exact .ite (.bind .checkHold fun _ => .bind .reachRow fun _ => .get fun _ hs => .guard .fault fun _ => .guard (.modify fun _ hs =>
          hs.noteBankWindow.countWindow.viewNewest) fun _ => .pure) (.get fun _ hs => .guard .fault fun _ => .guard (.modify fun _ hs =>
          hs.noteBankWindow.countWindow.viewNewest) fun _ => .pure)
  · exact .fault
  · exact .missAt
  · exact .faultLogged
  · exact .fault

end SafeExec

namespace SafeState

theorem execThPeek (hs : SafeState s) {f} : SafeOutcome (execThPeek f s) :=
  hs.asInstr (.bind .ea fun _ => .ite (.bind .peek fun _ => .bind .writeX fun _ => .pure) (.bind .peek fun _ => .bind .writeV fun _ => .pure))

end SafeState

/-! ### The functions of Machine/Walker.lean -/

namespace SafeExec

theorem walkerInc {f a n} : SafeExec (walkerInc f a n) := .ite .writeX .pure

end SafeExec

namespace SafeState

theorem execWLdi (hs : SafeState s) {f} : SafeOutcome (execWLdi f s) :=
  hs.asInstr (.bind .readX fun _ => .bind .load fun _ => .bind .writeX fun _ => .bind .walkerInc fun _ => .pure)

theorem execWLdv (hs : SafeState s) {f} : SafeOutcome (execWLdv f s) :=
  hs.asInstr (.bind .readX fun _ => .bind .load fun _ => .bind .writeV fun _ => .bind .walkerInc fun _ => .pure)

end SafeState

namespace SafeExec

theorem emitRow {f mask} : SafeExec (emitRow f mask) := by
  unfold Machine.emitRow
  refine .bind .readX fun _ => .bind .readV fun _ => .bind .me fun _ => ?_
  refine .bind (.modify fun _ hs => ?_) fun _ => .pure
  dsimp only
  split
  · exact hs
  · exact hs.setSkink

end SafeExec

namespace SafeState

theorem execWEmit (hs : SafeState s) {f} : SafeOutcome (execWEmit f s) := hs.asInstr .emitRow
theorem execWEmitz (hs : SafeState s) {f} : SafeOutcome (execWEmitz f s) := hs.asInstr (.bind .readX fun _ => .emitRow)

theorem execWAdv (hs : SafeState s) {f} : SafeOutcome (execWAdv f s) :=
  hs.asInstr (.bind .readX fun _ => .bind .readX fun _ => .bind .writeX fun _ => .pure)

theorem execWSel (hs : SafeState s) {f} : SafeOutcome (execWSel f s) :=
  hs.asInstr (.bind .readV fun _ => .bind .readX fun _ => .bind .writeV fun _ => .pure)

theorem execWEnd (hs : SafeState s) {f} : SafeOutcome (execWEnd f s) := by
  unfold Machine.execWEnd
  refine hs.asInstr (.bind .me fun _ => ?_)
  refine .bind (.modify fun _ hs => ?_) fun _ => .pure
  dsimp only
  split
  · exact hs
  · exact hs.setSkink

end SafeState

/-! ### The functions of Machine/Dispatch.lean -/

namespace SafeState

theorem exec (hs : SafeState s) {i} : SafeOutcome (exec i s) := by
  cases i with
  | powerGood => exact hs.execPowerGood
  | perst => exact hs.execPerst
  | bootStageDone => exact hs.execBootStageDone
  | getFwInfo => exact hs.execGetFwInfo
  | transferFw => exact hs.execTransferFw
  | activateFw => exact hs.execActivateFw
  | identify => exact hs.execIdentify
  | mailboxBusy => exact hs.execMailboxBusy
  | createTenant => exact hs.execCreateTenant
  | setWindow => exact hs.execSetWindow
  | loadKey => exact hs.execLoadKey
  | scrubTenant => exact hs.execScrubTenant
  | getReceipt => exact hs.execGetReceipt
  | setAclSetRoute => exact hs.execSetAclSetRoute
  | getLog => exact hs.execGetLog
  | cxlMemRead => exact hs.execCxlMemRead
  | cxlMemWrite => exact hs.execCxlMemWrite
  | islctlReqOn => exact hs.execIslctlReqOn
  | islctlReqCgated => exact hs.execIslctlReqCgated
  | islctlReqPgated => exact hs.execIslctlReqPgated
  | islctlReqReserved => exact hs.execIslctlReqReserved
  | islandTransitionDone => exact hs.execIslandTransitionDone
  | gatedRowMove => exact hs.execGatedRowMove
  | plimWrite => exact hs.execPlimWrite
  | controlRegisterWrite => exact hs.execControlRegisterWrite
  | farTierRegisterWrite => exact hs.execFarTierRegisterWrite
  | rowhctlApply => exact hs.execRowhctlApply
  | rowhashApplyDone => exact hs.execRowhashApplyDone
  | powerInterval => exact hs.execPowerInterval
  | fastGuard => exact hs.execFastGuard
  | thermalLimit => exact hs.execThermalLimit
  | thermalRelease => exact hs.execThermalRelease
  | thermalTrip => exact hs.execThermalTrip
  | start => exact hs.execStart
  | stop => exact hs.execStop
  | redirect => exact hs.execRedirect
  | resume => exact hs.execResume
  | kill => exact hs.execKill
  | step => exact hs.execStep
  | commandReserved => exact hs.execCommandReserved
  | drain => exact hs.execDrain
  | refresh => exact hs.execRefresh
  | apply => exact hs.execApply
  | engacc => exact hs.execEngacc
  | complete => exact hs.execComplete
  | happly => exact hs.execHapply
  | counterMove => exact hs.execCounterMove
  | fetchFill => exact hs.execFetchFill
  | streamPrefetch => exact hs.execStreamPrefetch
  | rowSchedOpen => exact hs.execRowSchedOpen
  | quantumClose => exact hs.execQuantumClose
  | priorityClose => exact hs.execPriorityClose
  | spinWindowExpiry => exact hs.execSpinWindowExpiry
  | waitWake => exact hs.execWaitWake
  | thWaitTick => exact hs.execThWaitTick
  | spawnReply => exact hs.execSpawnReply
  | rowEviction => exact hs.execRowEviction
  | rowReload => exact hs.execRowReload
  | rowReclaim => exact hs.execRowReclaim
  | post => exact hs.execPost
  | translationMissPost => exact hs.execTranslationMissPost
  | translationReply => exact hs.execTranslationReply
  | tlbAck => exact hs.execTlbAck
  | invalidationCounterMove => exact hs.execInvalidationCounterMove
  | stragglerReset => exact hs.execStragglerReset
  | matrixArithComplete => exact hs.execMatrixArithComplete
  | walkBegin => exact hs.execWalkBegin
  | walkerWatchdog => exact hs.execWalkerWatchdog
  | subarrayRefresh => exact hs.execSubarrayRefresh
  | refreshReactivate => exact hs.execRefreshReactivate
  | activateGrant => exact hs.execActivateGrant
  | claimTimeout => exact hs.execClaimTimeout
  | enckeWatchdog => exact hs.execEnckeWatchdog
  | channelReset => exact hs.execChannelReset
  | slotBoundary => exact hs.execSlotBoundary
  | deadlockGuard => exact hs.execDeadlockGuard
  | handbackPost => exact hs.execHandbackPost
  | launchPacket => exact hs.execLaunchPacket
  | trackerPeriod => exact hs.execTrackerPeriod
  | dpitMoveDone => exact hs.execDpitMoveDone
  | dpitRevertDone => exact hs.execDpitRevertDone
  | scrubComplete => exact hs.execScrubComplete
  | flitReceive => exact hs.execFlitReceive
  | replayTimeout => exact hs.execReplayTimeout
  | linkLost => exact hs.execLinkLost
  | laneDegraded => exact hs.execLaneDegraded
  | retrainDone => exact hs.execRetrainDone
  | portRetrain => exact hs.execPortRetrain
  | inboundGetRequest => exact hs.execInboundGetRequest
  | inboundPut => exact hs.execInboundPut
  | inboundLaunch => exact hs.execInboundLaunch
  | inboundSync => exact hs.execInboundSync
  | inboundAtomicRequest => exact hs.execInboundAtomicRequest
  | getData => exact hs.execGetData
  | putAcknowledgement => exact hs.execPutAcknowledgement
  | atomicReply => exact hs.execAtomicReply
  | fabricError => exact hs.execFabricError
  | thSpawn f => exact hs.execThSpawn
  | thStart f => exact hs.execThStart
  | thStop f => exact hs.execThStop
  | thRedirect f => exact hs.execThRedirect
  | thYield f => exact hs.execThYield (f := f)
  | thWait f => exact hs.execThWait
  | thExit f => exact hs.execThExit
  | thSelf f => exact hs.execThSelf
  | thPeek f => exact hs.execThPeek
  | nop f => exact hs.execNop (f := f)
  | br f => exact hs.execBr
  | bcmp f => exact hs.execBcmp
  | bri f => exact hs.execBri
  | jt f => exact hs.execJt
  | lpad f => exact hs.execLpad (f := f)
  | call f => exact hs.execCall
  | calli f => exact hs.execCalli
  | ret f => exact hs.execRet (f := f)
  | loop f => exact hs.execLoop
  | fsync f => exact hs.execFsync (f := f)
  | pand f => exact hs.execPand
  | por f => exact hs.execPor
  | pxor f => exact hs.execPxor
  | pnot f => exact hs.execPnot
  | addFa f => exact hs.execAddFa
  | addFi f => exact hs.execAddFi
  | sub f => exact hs.execSub
  | andFa f => exact hs.execAndFa
  | andFi f => exact hs.execAndFi
  | orFa f => exact hs.execOrFa
  | orFi f => exact hs.execOrFi
  | xorFa f => exact hs.execXorFa
  | xorFi f => exact hs.execXorFi
  | andn f => exact hs.execAndn
  | minFa f => exact hs.execMinFa
  | minFi f => exact hs.execMinFi
  | maxFa f => exact hs.execMaxFa
  | maxFi f => exact hs.execMaxFi
  | minuFa f => exact hs.execMinuFa
  | minuFi f => exact hs.execMinuFi
  | maxuFa f => exact hs.execMaxuFa
  | maxuFi f => exact hs.execMaxuFi
  | adds f => exact hs.execAdds
  | subs f => exact hs.execSubs
  | cmpFa f => exact hs.execCmpFa
  | cmpFi f => exact hs.execCmpFi
  | sel f => exact hs.execSel
  | movFa f => exact hs.execMovFa
  | movFi f => exact hs.execMovFi
  | movhi f => exact hs.execMovhi
  | lea f => exact hs.execLea
  | rowa f => exact hs.execRowa
  | mulFa f => exact hs.execMulFa
  | mulFi f => exact hs.execMulFi
  | mulh f => exact hs.execMulh
  | mulhu f => exact hs.execMulhu
  | div f => exact hs.execDiv
  | divu f => exact hs.execDivu
  | rem f => exact hs.execRem
  | remu f => exact hs.execRemu
  | muls f => exact hs.execMuls
  | shlFa f => exact hs.execShlFa
  | shlFi f => exact hs.execShlFi
  | shrFa f => exact hs.execShrFa
  | shrFi f => exact hs.execShrFi
  | sraFa f => exact hs.execSraFa
  | sraFi f => exact hs.execSraFi
  | rolFa f => exact hs.execRolFa
  | rolFi f => exact hs.execRolFi
  | rorFa f => exact hs.execRorFa
  | rorFi f => exact hs.execRorFi
  | bextFa f => exact hs.execBextFa
  | bextFi f => exact hs.execBextFi
  | binsFa f => exact hs.execBinsFa
  | binsFi f => exact hs.execBinsFi
  | popc f => exact hs.execPopc
  | clz f => exact hs.execClz
  | ctz f => exact hs.execCtz
  | ld f => exact hs.execLd
  | lds f => exact hs.execLds
  | st f => exact hs.execSt
  | ldv f => exact hs.execLdv
  | stv f => exact hs.execStv
  | ldfe f => exact hs.execLdfe
  | stfe f => exact hs.execStfe
  | sete f => exact hs.execSete
  | sset f => exact hs.execSset
  | srst f => exact hs.execSrst
  | spos f => exact hs.execSpos
  | pref f => exact hs.execPref
  | get f => exact hs.execGet
  | put f => exact hs.execPut
  | ccrd f => exact hs.execCcrd
  | aadd f => exact hs.execAadd
  | aand f => exact hs.execAand
  | aor f => exact hs.execAor
  | axor f => exact hs.execAxor
  | amin f => exact hs.execAmin
  | amax f => exact hs.execAmax
  | aswp f => exact hs.execAswp
  | acas f => exact hs.execAcas
  | afadd f => exact hs.execAfadd
  | fship f => exact hs.execFship
  | vadd f => exact hs.execVadd
  | vsub f => exact hs.execVsub
  | vmul f => exact hs.execVmul
  | vfma f => exact hs.execVfma
  | vmin f => exact hs.execVmin
  | vmax f => exact hs.execVmax
  | vabs f => exact hs.execVabs
  | vneg f => exact hs.execVneg
  | vrcp f => exact hs.execVrcp
  | vrsq f => exact hs.execVrsq
  | vexp f => exact hs.execVexp
  | vlog f => exact hs.execVlog
  | vand f => exact hs.execVand
  | vor f => exact hs.execVor
  | vxor f => exact hs.execVxor
  | vshl f => exact hs.execVshl
  | vshr f => exact hs.execVshr
  | vsra f => exact hs.execVsra
  | vcmp f => exact hs.execVcmp
  | vsel f => exact hs.execVsel
  | vadds f => exact hs.execVadds
  | vsubs f => exact hs.execVsubs
  | vmulh f => exact hs.execVmulh
  | vcvt f => exact hs.execVcvt
  | vbcast f => exact hs.execVbcast
  | vperm f => exact hs.execVperm
  | vrot f => exact hs.execVrot
  | vzip f => exact hs.execVzip
  | vunzip f => exact hs.execVunzip
  | vrsum f => exact hs.execVrsum
  | vrmax f => exact hs.execVrmax
  | vrmin f => exact hs.execVrmin
  | vscan f => exact hs.execVscan
  | vqnt f => exact hs.execVqnt
  | vdqnt f => exact hs.execVdqnt
  | vbscale f => exact hs.execVbscale
  | vmovx f => exact hs.execVmovx
  | vins f => exact hs.execVins
  | vpack f => exact hs.execVpack
  | mMma f => exact hs.execMMma
  | mMmag f => exact hs.execMMmag
  | mGath f => exact hs.execMGath
  | mMvs f => exact hs.execMMvs
  | mSacc f => exact hs.execMSacc
  | mZero f => exact hs.execMZero
  | mLdacc f => exact hs.execMLdacc
  | mStacc f => exact hs.execMStacc
  | mSpmm f => exact hs.execMSpmm
  | mTdir f => exact hs.execMTdir
  | mDrain f => exact hs.execMDrain
  | wLdi f => exact hs.execWLdi
  | wLdv f => exact hs.execWLdv
  | wEmit f => exact hs.execWEmit
  | wEmitz f => exact hs.execWEmitz
  | wAdv f => exact hs.execWAdv
  | wSel f => exact hs.execWSel
  | wEnd f => exact hs.execWEnd (f := f)
  | rowOpen f => exact hs.execRowOpen
  | rowHold f => exact hs.execRowHold
  | rowRel f => exact hs.execRowRel
  | txBegin f => exact hs.execTxBegin
  | txCommit f => exact hs.execTxCommit
  | txAbort f => exact hs.execTxAbort (f := f)
  | attn f => exact hs.execAttn
  | safeptPoint f => exact hs.execSafeptPoint (f := f)
  | safeptBegin f => exact hs.execSafeptBegin (f := f)
  | safeptEnd f => exact hs.execSafeptEnd (f := f)
  | hSig f => exact hs.execHSig
  | hProbe f => exact hs.execHProbe
  | hIns f => exact hs.execHIns
  | hDel f => exact hs.execHDel
  | hRehash f => exact hs.execHRehash
  | hDedup f => exact hs.execHDedup
  | hUsn f => exact hs.execHUsn
  | hWusn f => exact hs.execHWusn
  | synBind f => exact hs.execSynBind
  | synAcq f => exact hs.execSynAcq
  | synRel f => exact hs.execSynRel
  | synWtl f => exact hs.execSynWtl
  | synTlTl f => exact hs.execSynTlTl
  | synTlSub f => exact hs.execSynTlSub
  | synTlFl f => exact hs.execSynTlFl
  | synTlMark f => exact hs.execSynTlMark
  | synStep f => exact hs.execSynStep
  | synSend f => exact hs.execSynSend
  | synRecv f => exact hs.execSynRecv
  | synVote f => exact hs.execSynVote
  | synPollab f => exact hs.execSynPollab
  | synAbort f => exact hs.execSynAbort
  | synDomBind f => exact hs.execSynDomBind
  | synDomUnbind f => exact hs.execSynDomUnbind
  | synQcfgCreate f => exact hs.execSynQcfgCreate
  | synQcfgDel f => exact hs.execSynQcfgDel
  | ceCopy f => exact hs.execCeCopy
  | ceFill f => exact hs.execCeFill
  | ceGath f => exact hs.execCeGath
  | ceScat f => exact hs.execCeScat
  | ceCtxRead f => exact hs.execCeCtxRead
  | ceCtxRing f => exact hs.execCeCtxRing
  | ceCtxRetry f => exact hs.execCeCtxRetry
  | ceCtxClr f => exact hs.execCeCtxClr
  | ceCancel f => exact hs.execCeCancel
  | decLoad f => exact hs.execDecLoad
  | decStrm f => exact hs.execDecStrm
  | sysRdcr f => exact hs.execSysRdcr
  | sysWrcr f => exact hs.execSysWrcr
  | rtabLoad f => exact hs.execRtabLoad
  | rtabEmpty f => exact hs.execRtabEmpty
  | clhaltWrite f => exact hs.execClhaltWrite
  | wacntWrite f => exact hs.execWacntWrite
  | sysTlbinv f => exact hs.execSysTlbinv
  | sysTlbwr f => exact hs.execSysTlbwr
  | sysTrap f => exact hs.execSysTrap
  | sysScrub f => exact hs.execSysScrub
  | sysLog f => exact hs.execSysLog
  | sysMpostHost f => exact hs.execSysMpostHost
  | sysMpostMbox f => exact hs.execSysMpostMbox
  | powerLoss => exact hs.execPowerLoss
  | spdmRequest => exact hs.execSpdmRequest
  | linkRetrained => exact hs.execLinkRetrained

end SafeState

/-! ### The functions of Machine/Pairs.lean -/

namespace SafeState

theorem endPair (hs : SafeState s) {id first} : SafeState (s.endPair id first) := by
  unfold State.endPair
  refine SafeState.progressClose (SafeState.takeOwnCommand ?_)
  split
  · exact .ite hs.updThread hs.updThread.command
  · exact hs.updThread

theorem issueSecond (hs : SafeState s) {th} : SafeOutcome (s.issueSecond th) := by
  unfold State.issueSecond
  extract_lets src s₁ ended
  have h₀ : SafeState src := hs.updThread.doomGroups
  have h₁ : SafeState s₁ := h₀
  have he {u : State} (hu : SafeState u) : SafeOutcome (ended u) := SafeState.ite hs.endPair hu.endPair
  clear_value s₁ ended
  split
  · exact he (h₁.prepareIssue.done ‹_›)
  next i u e =>
    have hx : SafeOutcome (Machine.exec i u) := (h₁.prepareIssue.run e).exec
    split
    next e => exact he (hx.next e)
    · exact hx

theorem issueRest (hs : SafeState s) {th} : SafeOutcome (s.issueRest th) := by
  unfold State.issueRest
  split
  · exact .ite hs.issueSecond hs.endPair
  · exact hs

theorem issuePair (hs : SafeState s) {id} : SafeOutcome (s.issuePair id) := by
  unfold State.issuePair
  split
  · exact hs
  · split
    next u e =>
      have hu : SafeState u := hs.prepareIssue.done e
      split
      · exact .ite hu.issueRest hu
      · exact hu
    next i u e =>
      have hu : SafeState u := hs.prepareIssue.run e
      split
      · exact hu.exec
      · refine .ite hu.exec ?_
        have hx : SafeOutcome (Machine.exec i (u.updThread id fun t => { t with pairing := true })) := hu.updThread.exec
        split
        next e => exact (hx.next e).issueRest
        · exact hx

end SafeState

/-! ### The functions of Machine/Due.lean -/

namespace SafeState

theorem noteDue (hs : SafeState s) : SafeState s.noteDue := hs
theorem passTime (hs : SafeState s) {dt} : SafeState (s.passTime dt) := .ite hs (hs.noteDue.of_mem rfl)
theorem beginMove (hs : SafeState s) {m} : SafeState (s.beginMove m) := SafeState.foldl (by exact hs.passTime.of_mem rfl) fun _ _ hs => hs.strike

end SafeState

/-- Settles O6: no function that a step calls leaves the memory out of its canonical form, which only byte writes and left-out cells change. -/
theorem everyStepKeepsTheStateSafe : Obligations.EveryStepKeepsTheStateSafe := by
  intro s t hs ht
  have hm : SafeState (s.takeMove.2.beginMove s.takeMove.1) := hs.takeMove.beginMove
  suffices h : SafeOutcome (Machine.step s) from h.next ht
  unfold Machine.step
  extract_lets m u
  split
  · split
    · exact (hm.prepareIssue.done ‹_›).settle
    · exact SafeOutcome.settleOutcome (hm.prepareIssue.run ‹_›).exec
  · exact SafeOutcome.settleOutcome hm.issuePair
  · exact SafeOutcome.settleOutcome (SafeState.exec (by exact hm))

end Sys2Proof
end

section
/-!
PROOFS. The rules that the proofs about an issued instruction share: its conditions, its last write, its stops, and the checks of an access that meets
neither a fault nor a wait (R72, R76, R267, R277).
-/
namespace Sys2Proof
open Sys2Proof.Machine

section Issue
variable {α β : Type} {s t : State} {th : Thread} {a : α} {e : Stop} {c : Prop} [Decidable c]

/-- What follows a part that yields runs in the state that it leaves. -/
theorem Yields.run_bind {m : Exec α} {k : α → Exec β} {r : Except Stop (β × State)} (h : Yields m s a t) (hk : (k a).run t = r) :
    (m >>= k).run s = r := by
  rw [StateT.run_bind, h]
  exact hk

theorem run_pos {m k : Exec α} {r : Except Stop (α × State)} (hc : c) (h : m.run s = r) : (if c then m else k).run s = r := by rwa [if_pos hc]

theorem run_neg {m k : Exec α} {r : Except Stop (α × State)} (hc : ¬ c) (h : k.run s = r) : (if c then m else k).run s = r := by rwa [if_neg hc]

theorem Yields.pos {m k : Exec α} (hc : c) (h : Yields m s a t) : Yields (if c then m else k) s a t := by rwa [if_pos hc]

theorem Yields.neg {m k : Exec α} (hc : ¬ c) (h : Yields k s a t) : Yields (if c then m else k) s a t := by rwa [if_neg hc]

theorem Stops.pos {m k : Exec α} (hc : c) (h : Stops m s e) : Stops (if c then m else k) s e := by rwa [if_pos hc]

theorem Stops.neg {m k : Exec α} (hc : ¬ c) (h : Stops k s e) : Stops (if c then m else k) s e := by rwa [if_neg hc]

/-- The last write of an instruction that names a scalar register. -/
theorem Yields.writeNext (h : AtIssue s th) (n : Nat) (w : Word) :
    Yields (do Exec.writeX n w; return Flow.next) s .next (s.setX th.row n w) :=
  (Yields.writeX h n w).bind (.pure _ _)

/-- An instruction whose body has stopped with a fault faults. -/
theorem asInstr_faults {body : Exec Flow} {c : Cause} {d : Word} {notes : List Note} (h : AtIssue s th) (hb : Stops body s (.fault c d notes)) :
    asInstr body s =
      .next ((((notes.foldl (fun s n => s.applyNote th n) s).takeFault th.id c d).takeOwnCommand th.id).progressClose th.id false) :=
  asInstr_stops h hb

/-- An instruction whose body has stopped with a stall stalls. -/
theorem asInstr_stalls {body : Exec Flow} {wk wa : Nat} {c : WaitCond} (h : AtIssue s th) (hb : Stops body s (.stall wk wa c)) :
    asInstr body s = .next ((s.blockIssue th wk wa c).progressClose th.id false) :=
  asInstr_stops h hb

end Issue

section Access
variable {s t : State} {th : Thread} {va : Word} {k : AccKind} {dp : Nat}

theorem Stops.sbEmpty (h : AtIssue s th) (he : th.sb ≠ []) : Stops Exec.sbEmpty s (.stall 0xC 0 .sbEmpty) :=
  .bind (.me h) (.neg (by simpa using he) (.stall _ _ _))

theorem Yields.plainAddr_own (h : AtIssue s th) (hc : s.check th va k = .own dp) (kind : Nat) :
    Yields (Exec.plainAddr va k kind) s (dp, true) s := by
  refine (Yields.get s).bind ((Yields.me h).bind ?_)
  rw [hc]
  exact .pure _ _

theorem Yields.plainAddr_ok (h : AtIssue s th) (hc : s.check th va k = .ok dp) (hr : s.region dp ≠ .control) (kind : Nat) :
    Yields (Exec.plainAddr va k kind) s (dp, false) s := by
  refine (Yields.get s).bind ((Yields.me h).bind ?_)
  rw [hc]
  dsimp only
  split
  · contradiction
  · exact .pure _ _

/-- An access that has not been asked for has no answer. -/
theorem Yields.answered_none (h : AtIssue s th) (hr : th.replies = []) (ha : th.asked = []) (key : Nat) :
    Yields (Exec.answered key) s none s := by
  refine Yields.bind (a := none) ((Yields.me h).bind ?_) ((Yields.me h).bind (.neg ?_ (.pure _ _)))
  · rw [hr]
    exact .pure _ _
  · simp [ha]

theorem Yields.checkHold (h : AtIssue s th) (hl : s.lostHold? th dp = none) (va : Word) : Yields (Exec.checkHold dp va) s () s := by
  refine (Yields.get s).bind ((Yields.me h).bind ?_)
  rw [hl]
  exact .pure _ _

theorem Yields.reachRow {write : Bool} (h : AtIssue s th) (hr : s.reach (th.id + 1) dp write = .ok t) :
    Yields (Exec.reachRow dp write) s () t := by
  refine (Yields.get s).bind ((Yields.me h).bind ?_)
  rw [hr]
  exact .set _ _

end Access

end Sys2Proof
end

section
/-!
PROOFS. The contexts of the engines: an instruction's context, and that the instructions that submit to, read, wait for and change a context complete
(R84, R316 to R325).
-/
namespace Sys2Proof
open Sys2Proof.Machine

section Context
variable {s : State} {th : Thread}

theorem Yields.context {w : Word} {k : Nat} (h : AtIssue s th) (hk : NamesContext s th w k) : Yields (context w) s k s := by
  obtain ⟨rfl, hlo, hhi⟩ := hk
  exact (Yields.get s).bind ((Yields.myRow h).bind ((Yields.require _ (decide_eq_true ⟨hlo, hhi⟩)).bind (.pure _ _)))

theorem Stops.context {w : Word} (h : AtIssue s th) (hk : ∀ k, ¬ NamesContext s th w k) : Stops (context w) s (.fault .protect 0 []) :=
  .bind (.get s) (.bind (.myRow h) (.left (.require _ (decide_eq_false fun hr => hk _ ⟨rfl, hr⟩))))

theorem AtIssue.setCtx (h : AtIssue s th) (k : Nat) (x : EngCtx) : AtIssue (s.setCtx k x) th := h.of_eq rfl rfl

end Context

section Commands
variable {s : State} {th : Thread} {k : Nat} {c : EngCmd} {wrote : List (Nat × Nat)} {w : Word}

theorem AtIssue.commandAppended (h : AtIssue s th) : AtIssue (commandAppended s th k c wrote) th := h.of_eq rfl rfl

theorem Yields.contextUp (hg : s.contextGated k = false) : Yields (contextUp k) s () s :=
  (Yields.get s).bind (.neg (by simp [hg]) (.pure _ _))

theorem Yields.contextRoom (h : AtIssue s th) (hg : s.contextGated k = false) (hq : s.queueLoad k th.id < 64) :
    Yields (contextRoom k) s () s :=
  (Yields.contextUp hg).bind ((Yields.get s).bind ((Yields.me h).bind (.neg (Nat.not_le.2 hq) (.pure _ _))))

theorem Yields.appendCommand (h : AtIssue s th) (k : Nat) (c : EngCmd) (wrote : List (Nat × Nat)) :
    Yields (appendCommand k c wrote) s (((s.ctx k).sub + 1) % 2 ^ 64) (commandAppended s th k c wrote) :=
  (Yields.get s).bind ((Yields.me h).bind ((Yields.set _ _).bind (.pure _ _)))

/-- The end of an instruction that appends one command (R317, R319). -/
theorem Yields.submit (h : AtIssue s th) (hg : s.contextGated k = false) (hq : s.queueLoad k th.id < 64) (c : EngCmd) (wrote : List (Nat × Nat))
    (d : Nat) :
    Yields (do
      Machine.contextRoom k
      let n ← Machine.appendCommand k c wrote
      Exec.writeX d (.ofNat 64 n)
      return Flow.next) s .next ((commandAppended s th k c wrote).setX th.row d (.ofNat 64 (((s.ctx k).sub + 1) % 2 ^ 64))) :=
  (Yields.contextRoom h hg hq).bind ((Yields.appendCommand h k c wrote).bind (.writeNext h.commandAppended _ _))

variable {f : FA} {kind : EngKind} {src : Bool}

theorem submitLines_yields (h : AtIssue s th) (hk : NamesContext s th (s.getX th.row (xnum f.c)) k) (he : th.sb = [])
    (hb : (s.getX th.row (xnum f.b)).toNat % 64 = 0) (ha : src = true → (s.getX th.row (xnum f.a)).toNat % 64 = 0)
    (hg : s.contextGated k = false) (hq : s.queueLoad k th.id < 64) :
    Yields (submitLines f kind src) s .next ((commandAppended s th k (bareCommand kind (s.getX th.row (xnum f.a)) (s.getX th.row (xnum f.b))
      (field (s.getX th.row (xnum f.c)) 16 32)) []).setX th.row (xnum f.d) (.ofNat 64 (((s.ctx k).sub + 1) % 2 ^ 64))) := by
  refine (Yields.readX h _).bind ((Yields.readX h _).bind ((Yields.readX h _).bind ((Yields.require _ (beq_iff_eq.2 hb)).bind ?_)))
  refine (Yields.require _ ?_).bind ((Yields.context h hk).bind ((Yields.sbEmpty h he).bind (.submit h hg hq _ _ _)))
  cases src with
  | false => rfl
  | true => exact beq_iff_eq.2 (ha rfl)

theorem submitLines_alignDst (h : AtIssue s th) (hb : (s.getX th.row (xnum f.b)).toNat % 64 ≠ 0) :
    Stops (submitLines f kind src) s (.fault .align (s.getX th.row (xnum f.b)) []) :=
  .bind (.readX h _) (.bind (.readX h _) (.bind (.readX h _) (.left (.require _ (beq_false_of_ne hb)))))

theorem submitLines_alignSrc (h : AtIssue s th) (hb : (s.getX th.row (xnum f.b)).toNat % 64 = 0)
    (ha : (s.getX th.row (xnum f.a)).toNat % 64 ≠ 0) : Stops (submitLines f kind true) s (.fault .align (s.getX th.row (xnum f.a)) []) :=
  .bind (.readX h _) (.bind (.readX h _) (.bind (.readX h _) (.bind (.require _ (beq_iff_eq.2 hb)) (.left (.require _ (beq_false_of_ne ha))))))

theorem submitLines_protect (h : AtIssue s th) (hk : ∀ k, ¬ NamesContext s th (s.getX th.row (xnum f.c)) k)
    (hb : (s.getX th.row (xnum f.b)).toNat % 64 = 0) (ha : src = true → (s.getX th.row (xnum f.a)).toNat % 64 = 0) :
    Stops (submitLines f kind src) s (.fault .protect 0 []) := by
  refine .bind (.readX h _) (.bind (.readX h _) (.bind (.readX h _) (.bind (.require _ (beq_iff_eq.2 hb)) ?_)))
  refine .bind (.require _ ?_) (.left (.context h hk))
  cases src with
  | false => rfl
  | true => exact beq_iff_eq.2 (ha rfl)

theorem submitGather_align (h : AtIssue s th) (ha : (s.getX th.row (xnum f.a)).toNat % 64 ≠ 0) :
    Stops (submitGather f kind) s (.fault .align (s.getX th.row (xnum f.a)) []) :=
  .bind (.readX h _) (.bind (.readX h _) (.left (.require _ (beq_false_of_ne ha))))

theorem submitGather_protect (h : AtIssue s th) (hk : ∀ k, ¬ NamesContext s th (s.getX th.row (xnum f.b)) k)
    (ha : (s.getX th.row (xnum f.a)).toNat % 64 = 0) : Stops (submitGather f kind) s (.fault .protect 0 []) :=
  .bind (.readX h _) (.bind (.readX h _) (.bind (.require _ (beq_iff_eq.2 ha)) (.left (.context h hk))))

end Commands

section Gather
variable {s s1 s2 : State} {th u u2 : Thread} {f : FA} {kind : EngKind} {k : Nat} {ls : List Line} {line : List Byte}

/-- The descriptor that a gather's lines begin with. -/
def gatherDescriptor (ls : List Line) : List Byte := lineToBytes (ls.headD 0)

/-- The elements that a gather's descriptor counts. -/
def gatherCount (ls : List Line) : Nat := leNat (((gatherDescriptor ls).drop 24).take 4)

/-- The state after a unit of a gather that is not the last (R320). -/
def gatherTaken (s : State) (u : Thread) (k : Nat) (ls all : List Line) : State :=
  (s.updThread u.id fun t => { t with reserved := some (k, all) }).setCtrl u.row 0 32 32 ls.length

/-- The command of a gather from its descriptor and its index lines (R320). -/
def gatherCommand (kind : EngKind) (ls all : List Line) : EngCmd :=
  { bareCommand kind (leWord ((gatherDescriptor ls).take 8)) (leWord (((gatherDescriptor ls).drop 8).take 8)) (gatherCount ls) with
    es := elemBytes ((gatherDescriptor ls).getD 28 0).toNat
    idx := (List.range (gatherCount ls)).map fun i => lane (all.getD (i / 16 + 1) 0) 32 (i % 16) }

/-- The state after the last unit of a gather, before its number is written (R320). -/
def gatherSubmitted (s : State) (u : Thread) (kind : EngKind) (k : Nat) (ls all : List Line) : State :=
  ((commandAppended s u k (gatherCommand kind ls all) []).updThread u.id fun t => { t with reserved := none }).setCtrl u.row 0 32 32 0

variable (h2 : AtIssue s2 u2)
  (hline : Yields (Exec.load (wordAdd (leWord (((gatherDescriptor ls).drop 16).take 8)) (64 * (ls.length - 1))) 64) s1 line s2)
include h2 hline

theorem gatherUnit_taken (hn : ls.length < (4 * gatherCount ls + 63) / 64) :
    Yields (gatherUnit f kind k ls) s1 .again (gatherTaken s2 u2 k ls (ls ++ [leLine line])) :=
  hline.bind ((Yields.me h2).bind (.pos hn ((Yields.modify _ _).bind (.pure _ _))))

theorem gatherUnit_last {v : Thread} (hn : (4 * gatherCount ls + 63) / 64 ≤ ls.length)
    (hv : AtIssue (gatherSubmitted s2 u2 kind k ls (ls ++ [leLine line])) v) :
    Yields (gatherUnit f kind k ls) s1 .next
      ((gatherSubmitted s2 u2 kind k ls (ls ++ [leLine line])).setX v.row (xnum f.d) (.ofNat 64 (((s2.ctx k).sub + 1) % 2 ^ 64))) :=
  hline.bind ((Yields.me h2).bind (.neg (Nat.not_lt.2 hn) ((Yields.appendCommand h2 _ _ _).bind ((Yields.modify _ _).bind (.writeNext hv _ _)))))

end Gather

/-- A unit of a gather or scatter comes to its index line with the lines kept for it (R320): those of its earlier units, or the descriptor. -/
def GatherKept (s s1 : State) (th u : Thread) (k : Nat) (a : Word) (ls : List Line) : Prop :=
  th.keptLines k (s.prog th.row) = some ls ∧ Yields (gatherChecks (gatherDescriptor ls)) s () s ∧ s.contextGated k = false ∧ s1 = s ∨
    ∃ bs, th.keptLines k (s.prog th.row) = none ∧ ls = [leLine bs] ∧ Yields (Exec.load a 64) s bs s1 ∧ Yields (gatherChecks bs) s1 () s1 ∧
      AtIssue s1 u ∧ s1.contextGated k = false ∧ s1.queueLoad k u.id < 64

theorem submitGather_yields {s s1 t : State} {th u : Thread} {f : FA} {kind : EngKind} {k : Nat} {ls : List Line} {flow : Flow}
    (h : AtIssue s th) (ha : (s.getX th.row (xnum f.a)).toNat % 64 = 0) (hk : NamesContext s th (s.getX th.row (xnum f.b)) k) (he : th.sb = [])
    (hkept : GatherKept s s1 th u k (s.getX th.row (xnum f.a)) ls) (hunit : Yields (gatherUnit f kind k ls) s1 flow t) :
    Yields (submitGather f kind) s flow t := by
  refine (Yields.readX h _).bind ((Yields.readX h _).bind ((Yields.require _ (beq_iff_eq.2 ha)).bind ((Yields.context h hk).bind ?_)))
  refine (Yields.sbEmpty h he).bind ((Yields.me h).bind ((Yields.get s).bind ?_))
  obtain ⟨hl, hd, hg, rfl⟩ | ⟨bs, hl, rfl, hd, hc, hu, hg, hq⟩ := hkept
  · simp only [hl]
    exact hd.bind ((Yields.contextUp hg).bind hunit)
  · simp only [hl]
    exact hd.bind (hc.bind ((Yields.contextRoom hu hg hq).bind hunit))

/-- Settles O46: the submissions of one command by their operands and their context, then a unit of a gather or scatter. -/
theorem engineSubmissionsComplete : Obligations.EngineSubmissionsComplete := by
  refine ⟨fun s th f k h => ?single, fun s s1 s2 th u u2 f k ls line h h2 => ?gather⟩
  case single =>
    intro a b c d
    refine ⟨fun hk he hb => ?lines, fun hb => ?alignDst, fun hb ha => ?alignSrc, fun ha => ?alignDescriptor, fun hk hb => ?noContext,
      fun hk ha => ?noContextB, fun hk he ha hg hq => ?table, fun hk hd hg hq => ?marker, fun hk hd => ?stores, fun hk => ?noContextA⟩
    case lines =>
      refine ⟨fun hg hq => ?_, fun ha => ⟨fun hg hq => ?_, fun hg hq => ?_⟩⟩
      · exact asInstr_yields h (submitLines_yields h hk he hb nofun hg hq)
      · exact asInstr_yields h (submitLines_yields h hk he hb (fun _ => ha) hg hq)
      · exact asInstr_yields h (submitLines_yields h hk he hb (fun _ => ha) hg hq)
    case alignDst =>
      refine ⟨?_, ?_, ?_⟩ <;> exact asInstr_faults h (submitLines_alignDst h hb)
    case alignSrc =>
      refine ⟨?_, ?_⟩ <;> exact asInstr_faults h (submitLines_alignSrc h hb ha)
    case alignDescriptor =>
      refine ⟨asInstr_faults h ?_, asInstr_faults h (submitGather_align h ha), asInstr_faults h (submitGather_align h ha)⟩
      exact .bind (.readX h _) (.bind (.readX h _) (.left (.require _ (beq_false_of_ne ha))))
    case noContext =>
      refine ⟨asInstr_faults h (submitLines_protect h hk hb nofun), fun ha => ⟨?_, ?_⟩⟩
      · exact asInstr_faults h (submitLines_protect h hk hb fun _ => ha)
      · exact asInstr_faults h (submitLines_protect h hk hb fun _ => ha)
    case noContextB =>
      refine ⟨asInstr_faults h ?_, asInstr_faults h (submitGather_protect h hk ha), asInstr_faults h (submitGather_protect h hk ha)⟩
      exact .bind (.readX h _) (.bind (.readX h _) (.bind (.require _ (beq_iff_eq.2 ha)) (.left (.context h hk))))
    case table =>
      refine asInstr_yields h ((Yields.readX h _).bind ((Yields.readX h _).bind ((Yields.require _ (beq_iff_eq.2 ha)).bind ?_)))
      exact (Yields.context h hk).bind ((Yields.sbEmpty h he).bind (.submit h hg hq _ _ _))
    case marker =>
      refine asInstr_yields h ((Yields.readX h _).bind ((Yields.context h hk).bind ((Yields.get s).bind ((Yields.me h).bind (.neg ?_ ?_)))))
      · simp [hd]
      · exact .submit h hg hq _ _ _
    case stores =>
      refine asInstr_stalls h (.bind (.readX h _) (.bind (.context h hk) (.bind (.get s) (.bind (.me h) (.pos ?_ (.left (.stall _ _ _)))))))
      simp [hd]
    case noContextA => exact asInstr_faults h (.bind (.readX h _) (.left (.context h hk)))
  case gather =>
    intro a d m all ha hk he hkept hline
    have hg {kind : EngKind} {t : State} {flow : Flow} (hu : Yields (gatherUnit f kind k ls) s1 flow t) :=
      submitGather_yields (u := u) h ha hk he hkept hu
    refine ⟨fun hn => ⟨?_, ?_⟩, fun hn => ?_⟩
    · exact asInstr_yields h (hg (gatherUnit_taken h2 hline hn))
    · exact asInstr_yields h (hg (gatherUnit_taken h2 hline hn))
    · intro idx c t num v
      refine ⟨fun hv => ?_, fun hv => ?_⟩
      · exact asInstr_yields h (hg (gatherUnit_last h2 hline hn hv))
      · exact asInstr_yields h (hg (gatherUnit_last h2 hline hn hv))

/-- Settles O47: the instructions on timelines, which read the first operand alone or wait, and those that change a context. -/
theorem contextInstructionsComplete : Obligations.ContextInstructionsComplete := by
  intro s s1 th u f g k h
  refine ⟨fun hk => ?timeline, fun hk => ?change⟩
  case timeline =>
    intro x n wrote
    have ha := Yields.readX h (xnum f.a)
    have hb := Yields.readX h (xnum f.b)
    have hc := Yields.context h hk
    refine ⟨?tl, ?sub, ?fl, fun hn hu => ?passed, fun hn hm hh => ?halted, fun hn hm => ?waits⟩
    case tl => exact asInstr_yields h (ha.bind (hc.bind ((Yields.get s).bind (.writeNext h _ _))))
    case sub => exact asInstr_yields h (ha.bind (hc.bind ((Yields.get s).bind (.writeNext h _ _))))
    case fl => exact asInstr_yields h (ha.bind (hc.bind ((Yields.get s).bind (.writeNext h _ _))))
    case passed =>
      refine asInstr_yields h (ha.bind (hb.bind (hc.bind ((Yields.get s).bind ((Yields.me h).bind (.pos hn ?_))))))
      exact (Yields.set _ _).bind (.writeNext hu _ _)
    case halted =>
      refine asInstr_yields h (ha.bind (hb.bind (hc.bind ((Yields.get s).bind ((Yields.me h).bind (.neg (Nat.not_le.2 hn) ?_))))))
      exact .pos (by simp [hm, hh, x]) (.writeNext h _ _)
    case waits =>
      have hgo : ¬ (f.md == 1 && x.halt) = true := by
        rw [Bool.and_eq_true, beq_iff_eq]
        rcases hm with hm | hh
        · exact fun e => hm e.1
        · simp [hh]
      exact asInstr_stalls h (.bind ha (.bind hb (.bind hc (.bind (.get s) (.bind (.me h) (.neg (Nat.not_le.2 hn) (.neg hgo (.stall _ _ _))))))))
  case change =>
    intro x b wrote
    have ha := Yields.readX h (xnum g.a)
    have hb := Yields.readX h (xnum g.b)
    have hc := Yields.context h hk
    refine ⟨?read, ?clear, ?cancel, fun dp own hal hp hin hu => ?ring, ?retry⟩
    case read => exact asInstr_yields h (ha.bind (hc.bind ((Yields.get s).bind (.writeNext h _ _))))
    case clear => exact asInstr_yields h (ha.bind (hc.bind ((Yields.get s).bind ((Yields.set _ _).bind (.writeNext (h.setCtx _ _) _ _)))))
    case cancel =>
      intro y t hu
      exact asInstr_yields h (ha.bind (hb.bind (hc.bind ((Yields.get s).bind ((Yields.set _ _).bind (.writeNext hu _ _))))))
    case ring =>
      refine asInstr_yields h (ha.bind (hb.bind (hc.bind ((Yields.require _ (beq_iff_eq.2 hal)).bind (hp.bind ((Yields.get s1).bind ?_))))))
      exact (Yields.require _ hin).bind ((Yields.set _ _).bind (.writeNext (hu.setCtx _ _) _ _))
    case retry =>
      intro y t hu
      exact asInstr_yields h (ha.bind (hc.bind ((Yields.get s).bind ((Yields.set _ _).bind (.writeNext hu _ _)))))

end Sys2Proof
end

section
/-!
PROOFS. That the instructions on sync objects complete (R79 to R82, R314, R315).
-/
namespace Sys2Proof
open Sys2Proof.Machine

theorem AtIssue.setSync {s : State} {th : Thread} (h : AtIssue s th) (tenant o : Nat) (x : SyncObj) : AtIssue (s.setSync tenant o x) th :=
  h.of_eq rfl rfl

/-- Settles O43: SYN.ACQ and SYN.REL by the object's scope and what they wait for, and SYN.BIND from the lines that its ranges name. -/
theorem syncObjectInstructionsComplete : Obligations.SyncObjectInstructionsComplete := by
  intro s s1 s2 th th2 u f g o h
  refine ⟨?named, ?bind⟩
  case named =>
    intro a n x ho
    have ra := Yields.readX h (xnum f.a)
    have rb := Yields.readX h (xnum f.b)
    refine ⟨fun hout => ⟨asInstr_faults h ?acqOut, asInstr_faults h ?relOut⟩, fun hin => ⟨fun hn => asInstr_stalls h ?acqWaits,
      fun hn hu => asInstr_yields h ?acq, fun hd => asInstr_yields h ?rel, fun hd => asInstr_stalls h ?relWaits⟩⟩
    case acqOut => exact .bind ra (.bind rb (.bind ho (.bind (.get s) (.bind (.me h) (.left (.require _ hout))))))
    case relOut => exact .bind ra (.bind ho (.bind (.get s) (.bind (.me h) (.left (.require _ hout)))))
    case acqWaits =>
      exact .bind ra (.bind rb (.bind ho (.bind (.get s) (.bind (.me h) (.bind (.require _ hin) (.pos hn (.left (.stall _ _ _))))))))
    case acq =>
      refine ra.bind (rb.bind (ho.bind ((Yields.get s).bind ((Yields.me h).bind ((Yields.require _ hin).bind (.neg (Nat.not_lt.2 hn) ?_))))))
      exact (Yields.set _ _).bind (.writeNext hu _ _)
    case rel =>
      refine ra.bind (ho.bind ((Yields.get s).bind ((Yields.me h).bind ((Yields.require _ hin).bind (.neg (by simp [x, hd]) ?_)))))
      exact (Yields.set _ _).bind (.writeNext (h.setSync _ _ _) _ _)
    case relWaits =>
      exact .bind ra (.bind ho (.bind (.get s) (.bind (.me h) (.bind (.require _ hin) (.pos (by simp [x, hd]) (.left (.stall _ _ _)))))))
  case bind =>
    intro a b scope ranges lines hb ho hscope h2 hranges hlines bnd
    refine asInstr_yields h ((Yields.readX h _).bind ((Yields.readX h _).bind ((Yields.require _ (beq_iff_eq.2 hb)).bind ?_)))
    refine ho.bind ((Yields.me h).bind ((Yields.require _ ?_).bind (hranges.bind (hlines.bind ((Yields.get s2).bind ?_)))))
    · simpa [scope, imp_iff_not_or] using hscope
    · exact (Yields.set _ _).bind (.pure _ _)

end Sys2Proof
end

section
/-!
PROOFS. Full/empty accesses: what a load, a store and a write of granules come to, and what a write of granules changes (R86, R182, R183).
-/
namespace Sys2Proof
open Sys2Proof.Machine

section FullEmpty
variable {s t : State} {th : Thread} {va : Word} {k : AccKind} {dp n : Nat} {own : Bool}

/-- A full/empty access comes to a place in the thread's own row, or in memory that no other thread's open row holds (R76, R182). -/
def Reaches (s : State) (th : Thread) (va : Word) (k : AccKind) (dp : Nat) (own : Bool) : Prop :=
  own = true ∧ s.check th va k = .own dp ∨
    own = false ∧ s.check th va k = .ok dp ∧ s.region dp ≠ .control ∧ Exec.openOther s th dp = false

theorem Reaches.here (hr : Reaches s th va k dp own) : (! own && Exec.openOther s th dp) = false := by
  obtain ⟨rfl, _⟩ | ⟨rfl, _, _, ho⟩ := hr
  · rfl
  · exact ho

theorem Yields.plainAddr (h : AtIssue s th) (hr : Reaches s th va k dp own) (kind : Nat) : Yields (Exec.plainAddr va k kind) s (dp, own) s := by
  obtain ⟨rfl, hc⟩ | ⟨rfl, hc, hreg, _⟩ := hr
  · exact .plainAddr_own h hc _
  · exact .plainAddr_ok h hc hreg _

theorem Reaches.not_violation (hr : Reaches s th va k dp own) (w : Word) : s.check th va k ≠ .violation w := by
  obtain ⟨_, hc⟩ | ⟨_, hc, _⟩ := hr <;> simp [hc]

theorem Yields.granAddr (h : AtIssue s th) (hr : Reaches s th va k dp own) (hg : s.hasGran dp = true) (isLoad : Bool) :
    Yields (Exec.granAddr va k isLoad) s (some (dp, own)) s := by
  refine (Yields.get s).bind ((Yields.me h).bind ?_)
  split
  · exact absurd ‹_› (hr.not_violation _)
  · exact (Yields.plainAddr h hr _).bind (.neg (by simp [hg]) (.pure _ _))

theorem Stops.granAddr (h : AtIssue s th) (hr : Reaches s th va k dp own) (hg : s.hasGran dp = false) (isLoad : Bool) :
    Stops (Exec.granAddr va k isLoad) s (.fault .protect va []) := by
  refine .bind (.get s) (.bind (.me h) ?_)
  split
  · exact absurd ‹_› (hr.not_violation _)
  · exact .bind (.plainAddr h hr _) (.pos (by simp [hg]) (.left (.fault _ _)))

theorem granAll_iff (s : State) (a n : Nat) (p : Gran → Bool) : s.granAll a n p = true ↔ ∀ g ∈ granules a n, p (s.granOfAddr g) = true :=
  List.all_eq_true

/-- A place that a full/empty access comes to, with the granules that it looks at and no answer that it has asked for (R176, R182). -/
structure AtGranules (s : State) (th : Thread) (va : Word) (k : AccKind) (dp : Nat) (own : Bool) : Prop where
  issue : AtIssue s th
  reaches : Reaches s th va k dp own
  gran : s.hasGran dp = true
  replies : th.replies = []
  asked : th.asked = []

namespace AtGranules

theorem addr (h : AtGranules s th va k dp own) (isLoad : Bool) : Yields (Exec.granAddr va k isLoad) s (some (dp, own)) s :=
  .granAddr h.issue h.reaches h.gran isLoad

theorem answered (h : AtGranules s th va k dp own) : Yields (Exec.answered dp) s none s := .answered_none h.issue h.replies h.asked _

theorem here (h : AtGranules s th va k dp own) : ¬ (! own && Exec.openOther s th dp) = true := by simp [h.reaches.here]

end AtGranules

section Load
variable {clear : Bool} (h : AtGranules s th va (if clear then .rmw else .read) dp own)
include h

theorem loadFE_waits (he : ¬ ∀ g ∈ granules dp n, s.granOfAddr g ≠ .empty) :
    Stops (Exec.loadFE va n clear) s (.stall 2 0 (.granules dp n true)) := by
  refine .bind (.me h.issue) (.bind (h.addr _) (.bind (.get s) (.bind h.answered (.neg h.here (.pos ?_ (.left (.stall _ _ _)))))))
  simpa [State.granAll] using he

theorem loadFE_poisoned (he : ∀ g ∈ granules dp n, s.granOfAddr g ≠ .empty) (hp : s.poisoned dp n = true) :
    Stops (Exec.loadFE va n clear) s (.fault .datapoison va []) := by
  refine .bind (.me h.issue) (.bind (h.addr _) (.bind (.get s) (.bind h.answered (.neg h.here (.neg ?_ (.pos hp (.left (.fault _ _))))))))
  simpa [State.granAll] using he

theorem loadFE_yields (he : ∀ g ∈ granules dp n, s.granOfAddr g ≠ .empty) (hp : s.poisoned dp n = false)
    (ht : t = if own then s else (Exec.countFE th va dp clear s).viewNewest th.id (lineOf dp)) :
    Yields (Exec.loadFE va n clear) s (s.newest dp n) (if clear then (t.setGran dp n .empty).consumePost th.id dp n else t) := by
  refine (Yields.me h.issue).bind ((h.addr _).bind ((Yields.get s).bind (h.answered.bind (.neg h.here (.neg ?_ (.neg ?_ ?_))))))
  · simpa [State.granAll] using he
  · simp [hp]
  · subst ht
    cases own with
    | false =>
      refine .pos rfl ((Yields.modify _ _).bind ?_)
      cases clear with
      | false => exact .neg Bool.false_ne_true (.pure _ _)
      | true => exact .pos rfl ((Yields.modify _ _).bind (.pure _ _))
    | true =>
      refine .neg Bool.false_ne_true ?_
      cases clear with
      | false => exact .neg Bool.false_ne_true (.pure _ _)
      | true => exact .pos rfl ((Yields.modify _ _).bind (.pure _ _))

end Load

section Store
variable {bs : List Byte} {full : Bool} (h : AtGranules s th va .rmw dp own) (hb : th.sb = [])
include h hb

theorem setFE_yields : Yields (Exec.setFE va n full) s ()
    ((if own then s else Exec.countFE th va dp true s).setGran dp n (if full then .full else .empty)) := by
  refine (Yields.sbEmpty h.issue hb).bind ((Yields.me h.issue).bind ((h.addr _).bind ((Yields.get s).bind (h.answered.bind (.neg h.here ?_)))))
  cases own with
  | true => exact .neg Bool.false_ne_true (.modify _ _)
  | false => exact .pos rfl ((Yields.modify _ _).bind (.modify _ _))

theorem storeFE_poisoned (hp : s.poisoned dp bs.length = true) : Stops (Exec.storeFE va bs) s (.fault .datapoison va []) :=
  .bind (.sbEmpty h.issue hb) (.bind (.me h.issue) (.bind (h.addr _) (.bind (.get s) (.bind h.answered (.neg h.here
    (.pos hp (.left (.fault _ _))))))))

theorem storeFE_waits (hp : s.poisoned dp bs.length = false) (he : ¬ ∀ g ∈ granules dp bs.length, s.granOfAddr g = .empty) :
    Stops (Exec.storeFE va bs) s (.stall 2 0 (.granules dp bs.length false)) := by
  refine .bind (.sbEmpty h.issue hb) (.bind (.me h.issue) (.bind (h.addr _) (.bind (.get s) (.bind h.answered (.neg h.here
    (.neg ?_ (.pos ?_ (.left (.stall _ _ _)))))))))
  · simp [hp]
  · simpa [State.granAll] using he

theorem storeFE_yields (hp : s.poisoned dp bs.length = false) (he : ∀ g ∈ granules dp bs.length, s.granOfAddr g = .empty) :
    Yields (Exec.storeFE va bs) s () ((((((if own then s else Exec.countFE th va dp true s).landStore (some th.id) dp bs .plain).setGran dp
      bs.length .full).viewNewest th.id (lineOf dp)).noteWrote th.id (lineOf dp))) := by
  refine (Yields.sbEmpty h.issue hb).bind ((Yields.me h.issue).bind ((h.addr _).bind ((Yields.get s).bind (h.answered.bind (.neg h.here
    (.neg ?_ (.neg ?_ ?_)))))))
  · simp [hp]
  · simpa [State.granAll] using he
  · cases own with
    | true => exact .neg Bool.false_ne_true (.modify _ _)
    | false => exact .pos rfl ((Yields.modify _ _).bind (.modify _ _))

end Store

end FullEmpty

/-- The alignment of a full/empty access as R182 says it. -/
theorem granAligned_iff (a : Word) (sz : BitVec 3) :
    granAligned a sz = true ↔ if sz = 3 then a.toNat % 16 + 8 ≤ 16 else a.toNat % sizeBytes sz = 0 := by
  unfold granAligned
  split
  · exact decide_eq_true_iff
  · exact beq_iff_eq

namespace Machine

theorem assoc_assocSet {β : Type} (l : List (Nat × β)) (k j : Nat) (v : β) :
    assoc (assocSet l k v) j = if k = j then some v else assoc l j := by
  induction l with
  | nil => rfl
  | cons p l ih =>
    unfold assocSet
    split
    · rfl
    · split
      · next hk =>
        subst hk
        simp only [assoc]
        split <;> rfl
      · next hk =>
        simp only [assoc, ih]
        split
        · next hp => rw [if_neg (fun e => hk (e.trans hp.symm))]
        · rfl

theorem assoc_assocDel {β : Type} (l : List (Nat × β)) (k j : Nat) : assoc (assocDel l k) j = if k = j then none else assoc l j := by
  induction l with
  | nil => simp [assocDel, assoc]
  | cons p l ih =>
    by_cases hp : p.1 = k
    · have hd : assocDel (p :: l) k = assocDel l k := by simp [assocDel, hp]
      rw [hd, ih, assoc, hp]
      split <;> rfl
    · have hd : assocDel (p :: l) k = p :: assocDel l k := by simp [assocDel, hp]
      rw [hd, assoc, assoc, ih]
      split
      · next hj => rw [if_neg (fun e => hp (hj.trans e.symm))]
      · rfl

namespace State

section Granules
variable (s : State) (k : Nat) (g : Gran)

theorem listGran_granOfAddr (x : Nat) : (s.listGran k g).granOfAddr x = if k = granOf x then g else s.granOfAddr x := by
  unfold listGran granOfAddr
  by_cases hg : g = .full
  · simp only [hg, if_true, assoc_assocDel]
    split <;> rfl
  · simp only [hg, if_false, assoc_assocSet]
    split <;> rfl

theorem setOneGran_mem : (s.setOneGran k g).mem = s.mem := by
  unfold setOneGran
  split <;> rfl

theorem setOneGran_hasGran (x : Nat) : (s.setOneGran k g).hasGran x = s.hasGran x := by
  unfold setOneGran
  split <;> rfl

theorem setOneGran_other {x : Nat} (hx : granOf x ≠ k) : (s.setOneGran k g).granOfAddr x = s.granOfAddr x := by
  unfold setOneGran
  split
  · rw [listGran_granOfAddr, if_neg hx.symm]
  · rfl

theorem setOneGran_same {x : Nat} (hx : s.hasGran (granOf x) = true) : (s.setOneGran (granOf x) g).granOfAddr x = g := by
  rw [setOneGran, if_pos hx, listGran_granOfAddr, if_pos rfl]

theorem setGran_mem (a n : Nat) : (s.setGran a n g).mem = s.mem := by
  unfold setGran
  generalize granules a n = l
  induction l generalizing s with
  | nil => rfl
  | cons k l ih => exact (ih _).trans (setOneGran_mem s k g)

theorem setOneGran_foldl_other (l : List Nat) {x : Nat} (hx : granOf x ∉ l) :
    (l.foldl (fun s k => s.setOneGran k g) s).granOfAddr x = s.granOfAddr x := by
  induction l generalizing s with
  | nil => rfl
  | cons k l ih =>
    obtain ⟨hk, hl⟩ := not_or.1 (mt List.mem_cons.2 hx)
    exact (ih _ hl).trans (setOneGran_other s k g hk)

theorem setOneGran_foldl_same (l : List Nat) {x : Nat} (hx : granOf x ∈ l) (hg : s.hasGran (granOf x) = true) :
    (l.foldl (fun s k => s.setOneGran k g) s).granOfAddr x = g := by
  induction l generalizing s with
  | nil => cases hx
  | cons k l ih =>
    by_cases hl : granOf x ∈ l
    · exact ih _ hl (by rwa [setOneGran_hasGran])
    · obtain rfl : granOf x = k := (List.mem_cons.1 hx).resolve_right hl
      exact (setOneGran_foldl_other _ g l hl).trans (setOneGran_same s g hg)

end Granules

theorem granOf_of_mem_granules {a n x : Nat} (hx : x ∈ granules a n) : granOf x = x := by
  unfold granules at hx
  split at hx
  · cases hx
  · obtain ⟨i, -, rfl⟩ := List.mem_map.1 hx
    rw [granOf, Nat.mul_div_cancel _ (by decide)]

end State

end Machine

/-- Settles O24: the instructions by their alignment, the accesses by what the granules hold, and what the write of granules changes. -/
theorem fullEmptyInstructionsComplete : Obligations.FullEmptyInstructionsComplete := by
  refine ⟨fun s t th u f bs h hu => ?instructions, fun s th va dp n own clear full bs h hr ha hn => ?accesses, fun s dp n g => ?granules⟩
  case instructions =>
    intro a aligned
    have he := Yields.ea h f
    refine ⟨fun hal => ?_, fun hal => ?_⟩
    · have hreq : Yields (Exec.require (granAligned a f.sz) .align a) s () s := .require _ ((granAligned_iff _ _).2 hal)
      refine ⟨fun hl => ?_, fun hs => ?_, fun hs => ?_⟩
      · refine asInstr_yields h (he.bind (hreq.bind (hl.bind ?_)))
        split
        · exact .writeNext hu _ _
        · exact (Yields.writeV hu _ _).bind (.pure _ _)
      · exact asInstr_yields h (he.bind (hreq.bind ((Yields.readV h _).bind (hs.bind (.pure _ _)))))
      · exact asInstr_yields h (he.bind (hreq.bind (hs.bind (.pure _ _))))
    · have hreq : Stops (Exec.require (granAligned a f.sz) .align a) s (.fault .align a []) :=
        .require _ (Bool.eq_false_iff.2 fun e => hal ((granAligned_iff _ _).1 e))
      exact ⟨asInstr_faults h (.bind he (.left hreq)), asInstr_faults h (.bind he (.left hreq)), asInstr_faults h (.bind he (.left hreq))⟩
  case accesses =>
    subst hn
    intro reached counted empty
    refine ⟨fun hreach => ⟨fun hg => ?_, fun hg hw => ?_, fun hg hf => ?_⟩, fun hreach hb => ⟨fun hg => ⟨?_, ?_⟩, fun hg => ?_⟩, fun hb => ⟨?_, ?_⟩⟩
    · exact .bind (.me h) (.left (.granAddr h hreach hg _))
    · obtain ⟨g, hm, hw⟩ := hw
      exact loadFE_waits ⟨h, hreach, hg, hr, ha⟩ fun hf => hf g hm hw
    · have hat : AtGranules s th va (if clear then .rmw else .read) dp own := ⟨h, hreach, hg, hr, ha⟩
      exact ⟨loadFE_poisoned hat hf, fun hp => loadFE_yields hat hf hp rfl⟩
    · exact .bind (.sbEmpty h hb) (.bind (.me h) (.left (.granAddr h hreach hg _)))
    · exact .bind (.sbEmpty h hb) (.bind (.me h) (.left (.granAddr h hreach hg _)))
    · have hat : AtGranules s th va .rmw dp own := ⟨h, hreach, hg, hr, ha⟩
      refine ⟨setFE_yields hat hb, storeFE_poisoned hat hb, fun hp hw => ?_, fun hp he => storeFE_yields hat hb hp he⟩
      obtain ⟨g, hm, hw⟩ := hw
      exact storeFE_waits hat hb hp fun he => hw (he g hm)
    · exact .left (.sbEmpty h hb)
    · exact .left (.sbEmpty h hb)
  case granules =>
    refine ⟨State.setGran_mem s g dp n, fun x hx hg => ?_, fun x hx => State.setOneGran_foldl_other s g _ hx⟩
    have hk := State.granOf_of_mem_granules hx
    exact State.setOneGran_foldl_same s g _ (by rwa [hk]) (by rwa [hk])

end Sys2Proof
end

section
/-!
PROOFS. Atomics: the value that each writes, and what its move comes to (R83, R190).
-/
namespace Sys2Proof
open Sys2Proof.Machine

section Atomic
variable {s t w : State} {th : Thread} {op : AtomOp} {va v x : Word} {dp n : Nat}

/-- The value that an atomic writes, as R190 lists it. -/
theorem atomicNew_eq (op : AtomOp) (n old v w : Nat) :
    atomicNew op n old v w = match op with
      | .add => some ((old + v) % 2 ^ (8 * n))
      | .and => some (old &&& v)
      | .or => some (old ||| v)
      | .xor => some (old ^^^ v)
      | .min => some (if signed (8 * n) v < signed (8 * n) old then v else old)
      | .max => some (if signed (8 * n) old < signed (8 * n) v then v else old)
      | .minu => some (min old v)
      | .maxu => some (max old v)
      | .swap => some v
      | .cas => if old = v then some w else none
      | .faddF32 => some (((Rl.decode .f32 old).add (.decode .f32 v)).rne .f32)
      | .faddBf16 => some (((Rl.decode .bf16 old).add (.decode .bf16 v)).rne .bf16) := by
  cases op with
  | minu =>
    simp only [atomicNew]
    congr 1
    split <;> omega
  | maxu =>
    simp only [atomicNew]
    congr 1
    split <;> omega
  | _ => rfl

/-- An atomic is made in M: in the thread's own row, or in memory that can be reached and that no other thread's open row holds (R83, R190). -/
def AtomicReaches (s t w : State) (th : Thread) (va : Word) (dp : Nat) : Prop :=
  s.check th va .rmw = .own dp ∧ w = s ∨
    s.check th va .rmw = .ok dp ∧ s.region dp ≠ .control ∧ Exec.openOther s th dp = false ∧ s.lostHold? th dp = none ∧
      s.reach (th.id + 1) dp true = .ok t ∧ AtIssue t th ∧
      w = (t.noteBankWindow th va.toNat dp).countWindow (t.tenantOf th.row) dp true

/-- The state after an atomic's bytes are written, or none are. -/
def atomicWrote (w : State) (id dp n : Nat) (new : Option Nat) : State :=
  match new with
  | some y => w.landStore (some id) dp (leBytes n y) .plain
  | none => w

theorem atomicWrote_closed (hw : w.threadAt? (rowOf dp) = none) (id y : Nat) : atomicWrote w id dp n (some y) = w.poke dp (leBytes n y) := by
  simp only [atomicWrote, State.landStore, hw]

theorem doAtomic_poisoned (hp : w.poisoned dp n = true) (id : Nat) (v x : Nat) : w.doAtomic (some id) op dp n v x = none := if_pos hp

theorem doAtomic_made (hp : w.poisoned dp n = false) (id : Nat) (v x : Nat) : w.doAtomic (some id) op dp n v x =
    some ((atomicWrote w id dp n (atomicNew op n (leNat (w.newest dp n)) v x)).viewNewest id (lineOf dp), leNat (w.newest dp n)) := by
  rw [State.doAtomic, if_neg (by simp [hp])]
  rfl

/-- What an atomic does once its place has been reached. -/
def atomicMove (op : AtomOp) (va : Word) (dp n id : Nat) (v x : Word) : Exec (Nat × Bool) := do
  let s ← get
  match s.doAtomic (some id) op dp n v.toNat x.toNat with
  | none => Exec.fault .datapoison va
  | some (s, old) => do
    set (s.noteWrote id (lineOf dp))
    return (old, false)

theorem Stops.atomicMove (hp : w.poisoned dp n = true) (id : Nat) : Stops (atomicMove op va dp n id v x) w (.fault .datapoison va []) := by
  refine .bind (.get w) ?_
  rw [doAtomic_poisoned hp]
  exact .fault _ _

theorem Yields.atomicMove (hp : w.poisoned dp n = false) (id : Nat) : Yields (atomicMove op va dp n id v x) w (leNat (w.newest dp n), false)
    (((atomicWrote w id dp n (atomicNew op n (leNat (w.newest dp n)) v.toNat x.toNat)).viewNewest id (lineOf dp)).noteWrote id (lineOf dp)) := by
  refine (Yields.get w).bind ?_
  rw [doAtomic_made hp]
  exact (Yields.set _ _).bind (.pure _ _)

/-- An atomic on a place that it reaches comes to its move there, and to what that move gives or why it stops. -/
theorem atomicAs_run {entry : Asker → Nat → OQEntry} {r : Except Stop ((Nat × Bool) × State)} (h : AtIssue s th) (hr : th.replies = [])
    (ha : th.asked = []) (hal : va.toNat % n = 0) (he : th.sb = []) (hreach : AtomicReaches s t w th va dp)
    (hm : (atomicMove op va dp n th.id v x).run w = r) : (Exec.atomicAs entry op va n v x).run s = r := by
  refine (Yields.require _ (beq_iff_eq.2 hal)).run_bind ((Yields.sbEmpty h he).run_bind ((Yields.get s).run_bind ((Yields.me h).run_bind ?_)))
  obtain ⟨hc, rfl⟩ | ⟨hc, hreg, ho, hl, hrow, -, rfl⟩ := hreach
  · rw [hc]
    refine (Yields.plainAddr_own h hc _).run_bind ((Yields.answered_none h hr ha _).run_bind ?_)
    exact run_neg Bool.false_ne_true (run_neg Bool.false_ne_true (run_neg Bool.false_ne_true hm))
  · rw [hc]
    refine (Yields.plainAddr_ok h hc hreg _).run_bind ((Yields.answered_none h hr ha _).run_bind ?_)
    refine run_pos rfl ((Yields.checkHold h hl _).run_bind (run_neg (by simp [ho]) (run_pos rfl ?_)))
    exact (Yields.reachRow h hrow).run_bind ((Yields.modify _ _).run_bind hm)

end Atomic

/-- Settles O27: the instructions by the operation that each makes, and the operation by the move of an atomic. -/
theorem atomicsComplete : Obligations.AtomicsComplete := by
  refine ⟨fun s t th u f old h hu => ?instructions, fun s t w th op va dp n v x h hr ha hal => ?moves⟩
  case instructions =>
    intro n part y done
    have hbody {op : AtomOp} {x : Word} (hm : Yields (Exec.atomic op (s.ea th.row f) n (part y) (part x)) s old t) :
        Yields (atomicFM f op x) s .next (t.setX u.row (xnum f.t) (wordOfInt (signed (8 * n) old))) :=
      (Yields.ea h f).bind ((Yields.readX h _).bind (hm.bind (.writeNext hu _ _)))
    refine ⟨?_, ?_, ?_, ?_, ?_, ?_, ?_, fun hm => ?cas, ?_⟩
    case cas => exact asInstr_yields h ((Yields.readX h _).bind (hbody hm))
    all_goals exact fun hm => asInstr_yields h (hbody hm)
  case moves =>
    refine ⟨fun he => ?_, fun he hreach => ⟨fun hp => ?_, fun hp => ?_⟩⟩
    · exact .left (.bind (.require _ (beq_iff_eq.2 hal)) (.left (.sbEmpty h he)))
    · exact .left (atomicAs_run h hr ha hal he hreach (Stops.atomicMove hp th.id))
    · intro old m sum new wrote
      have hnew : new = atomicNew op n old v.toNat x.toNat := (atomicNew_eq op n old v.toNat x.toNat).symm
      refine ⟨?_, fun hw y hy => ?_⟩
      · have hm := Yields.atomicMove (op := op) (va := va) (v := v) (x := x) hp th.id
        rw [← hnew] at hm
        exact Yields.bind (a := (old, false)) (atomicAs_run h hr ha hal he hreach hm) (.pure _ _)
      · exact (congrArg (atomicWrote w th.id dp n) hy).trans (atomicWrote_closed hw _ _)

end Sys2Proof
end

section
/-!
PROOFS. Loads and stores of a thread within one line: what they give and write, and that a load writes nothing (R71, R72, R75, R167, R174).
-/
namespace Sys2Proof
open Sys2Proof.Machine

/-- A part of an instruction, where it does not stop, leaves the memory as it is. -/
def MemKept {α : Type} (m : Exec α) (s : State) : Prop := ∀ a t, Yields m s a t → t.mem = s.mem

namespace MemKept
variable {α β : Type} {s : State}

theorem bind {m : Exec α} {k : α → Exec β} (hm : MemKept m s) (hk : ∀ a t, MemKept (k a) t) : MemKept (m >>= k) s := by
  intro b u h
  unfold Yields at h
  rw [StateT.run_bind] at h
  cases hr : m.run s with
  | error e => rw [hr] at h; cases h
  | ok r => rw [hr] at h; exact (hk r.1 r.2 b u h).trans (hm r.1 r.2 hr)

theorem pure {a : α} : MemKept (Pure.pure a : Exec α) s := by
  intro b u h
  cases h
  rfl

/-- What follows a reading of the state is looked at in that state. -/
theorem get {k : State → Exec β} (hk : MemKept (k s) s) : MemKept (MonadState.get >>= k) s := hk

theorem set {t : State} (h : t.mem = s.mem) : MemKept (MonadStateOf.set t : Exec PUnit) s := by
  intro b u hb
  cases hb
  exact h

theorem modify {f : State → State} (h : (f s).mem = s.mem) : MemKept (modify f : Exec PUnit) s := by
  intro b u hb
  cases hb
  exact h

/-- A part that stops leaves nothing. -/
theorem throw {e : Stop} : MemKept (MonadExcept.throw e : Exec α) s := fun _ _ h => by cases h

theorem ite {c : Prop} [Decidable c] {m k : Exec α} (hm : MemKept m s) (hk : MemKept k s) : MemKept (if c then m else k) s := by
  split <;> assumption

theorem mapM {f : α → Exec β} (hf : ∀ a s, MemKept (f a) s) (l : List α) (s : State) : MemKept (l.mapM f) s := by
  induction l generalizing s with
  | nil => exact pure
  | cons a l ih =>
    rw [List.mapM_cons]
    exact (hf a s).bind fun _ t => (ih t).bind fun _ _ => pure

theorem forIn {f : α → β → Exec (ForInStep β)} (hf : ∀ a b s, MemKept (f a b) s) (l : List α) (b : β) (s : State) :
    MemKept (ForIn.forIn l b f) s := by
  induction l generalizing b s with
  | nil => exact pure
  | cons a l ih =>
    rw [List.forIn_cons]
    refine (hf a b s).bind fun r t => ?_
    cases r with
    | done b => exact pure
    | yield b => exact ih b t

theorem fault {c : Cause} {d : Word} : MemKept (Exec.fault c d : Exec α) s := throw
theorem faultLogged {c : Cause} {d : Word} {kind : Nat} {a : Word} : MemKept (Exec.faultLogged c d kind a : Exec α) s := throw
theorem stall {wk wa : Nat} {c : WaitCond} : MemKept (Exec.stall wk wa c : Exec α) s := throw
theorem hold {wk wa : Nat} {c : WaitCond} {f : State → State} : MemKept (Exec.hold wk wa c f : Exec α) s := get throw
theorem require {b : Bool} {c : Cause} {d : Word} : MemKept (Exec.require b c d) s := ite pure fault

theorem me : MemKept Exec.me s := by
  refine get ?_
  split <;> exact pure

theorem ask {key : Nat} {f : State → State} : MemKept (Exec.ask key f : Exec α) s := me.bind fun _ _ => ite stall hold
theorem missAt {va : Word} {k : AccKind} : MemKept (Exec.missAt va k : Exec α) s := get (me.bind fun _ _ => hold)
theorem reply? {key : Nat} : MemKept (Exec.reply? key) s := me.bind fun _ _ => pure

theorem answered {key : Nat} : MemKept (Exec.answered key) s := by
  refine reply?.bind fun r t => ?_
  split
  · exact pure
  · exact me.bind fun _ _ => ite stall pure

theorem checkHold {dp : Nat} {va : Word} : MemKept (Exec.checkHold dp va) s := by
  refine get (me.bind fun th t => ?_)
  split
  · exact throw
  · exact pure

end MemKept

namespace Machine.State

section Kept
variable (s : State)

theorem ite_mem {c : Prop} [Decidable c] {s t u : State} (ht : t.mem = s.mem) (hu : u.mem = s.mem) : (if c then t else u).mem = s.mem := by
  split <;> assumption

theorem updStack_mem (n : Nat) (f : StackRegs → StackRegs) : (s.updStack n f).mem = s.mem := by
  unfold updStack
  split <;> rfl

theorem claim_mem (sub who : Nat) : (s.claim sub who).mem = s.mem := ite_mem rfl rfl

theorem notePage_mem (page : Nat) (stack : Option Nat) (write : Bool) : (s.notePage page stack write).mem = s.mem := ite_mem rfl rfl

theorem awaitDpit_mem (d : Dpit) (who : Nat) : (s.awaitDpit d who).mem = s.mem := ite_mem rfl rfl

theorem leaveDpit_mem (page who : Nat) : (s.leaveDpit page who).mem = s.mem := ite_mem rfl rfl

theorem dpitWrite_mem {t : State} {who page : Nat} {go : Bool} (h : s.dpitWrite who page = (t, go)) : t.mem = s.mem := by
  obtain rfl : (s.dpitWrite who page).1 = t := congrArg Prod.fst h
  unfold dpitWrite
  dsimp only
  split
  · split
    · rfl
    · exact awaitDpit_mem s _ who
  · split
    · rfl
    · exact awaitDpit_mem s _ who
  · rfl
  · exact awaitDpit_mem s _ who
  · exact awaitDpit_mem s _ who

variable {s} {t : State}

theorem activate_mem {l : BankLoc} {dest : BufState} {who : Nat} (h : s.activate l dest who = .ok t) : t.mem = s.mem := by
  unfold activate at h
  split at h
  · injection h with h
    subst h
    exact (updStack_mem _ _ _).trans (updStack_mem _ _ _)
  · cases h

theorem activateInTurn_mem {l : BankLoc} {dest : BufState} {who : Nat} (h : s.activateInTurn l dest who = .ok t) : t.mem = s.mem := by
  unfold activateInTurn at h
  dsimp only at h
  split at h
  · exact activate_mem h
  · cases h

theorem swap_mem {l : BankLoc} {who : Nat} (h : s.swap l who = .ok t) : t.mem = s.mem := by
  unfold swap at h
  dsimp only at h
  split at h
  · split at h
    · injection h with h
      subst h
      exact (updStack_mem _ _ _).trans ((updStack_mem _ _ _).trans (updStack_mem _ _ _))
    · cases h
  · cases h

theorem reachRow_mem {l : BankLoc} {who : Nat} (h : s.reachRow l who = .ok t) : t.mem = s.mem := by
  unfold reachRow at h
  dsimp only at h
  split at h
  · split at h
    · cases h
    · injection h with h
      subst h
      rfl
  · split at h
    · exact activateInTurn_mem h
    · exact activateInTurn_mem h
    · split at h
      · exact swap_mem h
      · cases h
    · split at h
      · exact swap_mem h
      · cases h

/-- A row that has been reached has changed the row buffers, the claims and the page tables alone. -/
theorem reach_mem {who a : Nat} {write : Bool} (h : s.reach who a write = .ok t) : t.mem = s.mem := by
  unfold reach at h
  split at h
  · extract_lets stack page s₁ at h
    have h₁ : s₁.mem = s.mem := notePage_mem _ _ _ _
    clear_value s₁
    split at h
    next s₂ go e =>
    have h₂ : s₂.mem = s.mem := by
      refine Eq.trans ?_ h₁
      split at e
      · exact dpitWrite_mem _ e
      · exact (congrArg (·.1.mem) e).symm
    split at h
    · split at h
      · injection h with h
        subst h
        exact (leaveDpit_mem _ _ _).trans h₂
      · cases h
    · split at h
      · cases h
      · split at h
        · cases h
        next s₃ e =>
          injection h with h
          subst h
          exact ite_mem ((leaveDpit_mem _ _ _).trans ((reachRow_mem e).trans h₂)) ((reachRow_mem e).trans h₂)
  · injection h with h
    rw [h]

variable (s)

theorem advanceView_mem (id line v : Nat) : (s.advanceView id line v).mem = s.mem := rfl

theorem refresh_mem (id line v : Nat) : (s.refresh id line v).mem = s.mem := by
  have h (l : List (Nat × Nat)) (s : State) : (l.foldl (fun s p => s.advanceView id p.1 p.2) s).mem = s.mem := by
    induction l generalizing s with
    | nil => rfl
    | cons p l ih => exact ih _
  exact ite_mem rfl (ite_mem rfl (h _ _))

theorem boundView_mem (th : Thread) (line : Nat) : (s.boundView th line).mem = s.mem := ite_mem (refresh_mem _ _ _ _) rfl

theorem countWindow_mem (tenant dp : Nat) (write : Bool) : (s.countWindow tenant dp write).mem = s.mem := by
  unfold State.countWindow
  split
  · rfl
  · split
    · rfl
    · exact ite_mem rfl rfl

theorem noteBankWindow_same (th : Thread) (va dp : Nat) : ∃ wins, s.noteBankWindow th va dp = { s with bankWins := wins } := by
  unfold State.noteBankWindow
  split
  · exact ⟨_, rfl⟩
  · dsimp only
    split
    · exact ⟨_, rfl⟩
    · split
      · exact ⟨_, rfl⟩
      · split
        · exact ⟨_, rfl⟩
        · split
          · split
            · exact ⟨_, rfl⟩
            · exact ⟨_, rfl⟩
          · exact ⟨_, rfl⟩

end Kept

end Machine.State

namespace MemKept
variable {s : State}

/-- A thread that is looked up leaves the state as it is. -/
theorem meThen {β : Type} {k : Thread → Exec β} (hk : ∀ th, MemKept (k th) s) : MemKept (Exec.me >>= k) s := by
  have hme : ∃ th, Yields Exec.me s th s := by
    cases hc : s.cur.bind s.thread? with
    | some th => exact ⟨th, .me hc⟩
    | none => exact ⟨default, (Yields.get s).bind (by rw [hc]; exact .pure _ _)⟩
  obtain ⟨th, hth⟩ := hme
  intro b u h
  rw [Yields, StateT.run_bind, hth] at h
  exact hk th b u h

theorem reachRow {dp : Nat} {write : Bool} : MemKept (Exec.reachRow dp write) s := by
  refine get (meThen fun th => ?_)
  split
  · exact set (State.reach_mem ‹_›)
  · exact throw

theorem readHere {dp n : Nat} {va : Word} {nw : Bool} : MemKept (Exec.readHere dp n va nw) s := by
  refine me.bind fun th t => (modify (State.countWindow_mem _ _ _ _)).bind fun _ t => (modify ?_).bind fun _ t => ?_
  · split
    · exact State.advanceView_mem _ _ _ _
    · exact State.boundView_mem _ _ _
  · exact get (me.bind fun th u => ite (fault.bind fun _ _ => pure) pure)

theorem readMemory {dp n : Nat} {va : Word} {nw : Bool} : MemKept (Exec.readMemory dp n va nw) s := by
  refine checkHold.bind fun _ _ => reachRow.bind fun _ _ => me.bind fun th t => (modify ?_).bind fun _ _ => readHere
  obtain ⟨wins, hw⟩ := t.noteBankWindow_same th va.toNat dp
  rw [hw]

theorem queuedLoad {va : Word} {n : Nat} : MemKept (Exec.queuedLoad va n) s := by
  refine get (me.bind fun th t => ?_)
  split
  · refine ite pure (answered.bind fun r u => ?_)
    split
    · exact pure
    · exact fault
    · exact ite (checkHold.bind fun _ _ => ite stall ask) pure
  · exact pure

theorem loadLine {va : Word} {n : Nat} {nw : Bool} : MemKept (Exec.loadLine va n nw) s := by
  refine get (me.bind fun th t => ?_)
  split
  · exact ite fault pure
  · exact fault
  · exact missAt
  · exact faultLogged
  · refine reply?.bind fun r u => ?_
    split
    · exact pure
    · exact fault
    · exact ask
  · split
    · split
      · exact pure
      · exact faultLogged
    · exact readMemory

theorem precheck {va : Word} {n : Nat} {k : AccKind} : MemKept (Exec.precheck va n k) s := by
  refine get (me.bind fun th t => (forIn (fun p _ u => ?_) _ _ _).bind fun _ _ => pure)
  dsimp only
  split
  · exact fault.bind fun _ _ => pure
  · exact missAt.bind fun _ _ => pure
  · exact ite (faultLogged.bind fun _ _ => pure) pure
  · exact pure

theorem load {va : Word} {n : Nat} {nw : Bool} : MemKept (Exec.load va n nw) s := by
  refine require.bind fun _ _ => precheck.bind fun _ _ => queuedLoad.bind fun o _ => ?_
  cases o with
  | some bs => exact pure
  | none => exact (mapM (fun _ _ => loadLine) _ _).bind fun _ _ => pure

end MemKept

section Within
variable {s t u : State} {th : Thread} {va : Word} {dp n : Nat} {k : AccKind} {nw : Bool} {bs : List Byte} {mark : StoreMark} {group : Bool}

/-- An access within one line lies in one row (R167). -/
theorem Yields.inBlock (hl : va.toNat % 64 + n ≤ 64) : Yields (Exec.inBlock va n) s () s := by
  refine .require _ (decide_eq_true ?_)
  unfold rowBytes
  omega

/-- An access within one line has one part to check, which is its own row's or memory that it may use (R167). -/
theorem Yields.precheck (h : AtIssue s th) (hn : 1 ≤ n) (hl : va.toNat % 64 + n ≤ 64) (hc : s.check th va k = .own dp ∨ s.check th va k = .ok dp) :
    Yields (Exec.precheck va n k) s () s := by
  refine (Yields.get s).bind ((Yields.me h).bind ?_)
  rw [lineParts_within hn hl]
  refine Yields.bind (a := ⟨⟩) (t := s) ?_ (.pure _ _)
  simp only [List.forIn_cons, BitVec.ofNat_toNat, BitVec.setWidth_eq]
  obtain hc | hc := hc <;> (rw [hc]; exact (Yields.pure _ _).bind (.pure _ _))

/-- A load within one line that takes no outside queue is the load of that line. -/
theorem Yields.load (h : AtIssue s th) (hn : 1 ≤ n) (hl : va.toNat % 64 + n ≤ 64)
    (hc : s.check th va .read = .own dp ∨ s.check th va .read = .ok dp) (hq : Yields (Exec.queuedLoad va n) s none s)
    (hline : Yields (Exec.loadLine va n nw) s bs t) : Yields (Exec.load va n nw) s bs t := by
  refine (Yields.inBlock hl).bind ((Yields.precheck h hn hl hc).bind (hq.bind ?_))
  rw [lineParts_within hn hl]
  refine Yields.bind (a := [bs]) (t := t) ?_ ?_
  · simp only [List.mapM_cons, BitVec.ofNat_toNat, BitVec.setWidth_eq]
    exact hline.bind ((Yields.pure _ _).bind (.pure _ _))
  · simpa using Yields.pure bs t

/-- A store within one line is the store of that line. -/
theorem Yields.store (h : AtIssue s th) (hbs : bs ≠ []) (hl : va.toNat % 64 + bs.length ≤ 64)
    (hc : s.check th va .write = .own dp ∨ s.check th va .write = .ok dp) (hline : Yields (Exec.storeLine va bs mark group) s () t) :
    Yields (Exec.store va bs mark group) s () t := by
  have hn : 1 ≤ bs.length := List.length_pos_iff.2 hbs
  refine (Yields.inBlock hl).bind ((Yields.precheck h hn hl hc).bind ?_)
  rw [lineParts_within hn hl]
  simp only [List.forIn_cons, BitVec.ofNat_toNat, BitVec.setWidth_eq, Nat.sub_self, List.drop_zero, List.take_length]
  have hyield : Yields (do Exec.storeLine va bs mark group; return ForInStep.yield PUnit.unit) s (.yield ⟨⟩) t := hline.bind (.pure _ _)
  exact Yields.bind (a := ⟨⟩) (t := t) (hyield.bind (.pure _ _)) (.pure _ _)

theorem Yields.queuedLoad_own (h : AtIssue s th) (hc : s.check th va .read = .own dp) : Yields (Exec.queuedLoad va n) s none s := by
  refine (Yields.get s).bind ((Yields.me h).bind ?_)
  rw [hc]
  exact .pure _ _

theorem Yields.queuedLoad_ok (h : AtIssue s th) (hc : s.check th va .read = .ok dp) (hreg : s.region dp ≠ .control) (hr : th.replies = [])
    (ha : th.asked = []) (ho : Exec.openOther s th dp = false) : Yields (Exec.queuedLoad va n) s none s := by
  refine (Yields.get s).bind ((Yields.me h).bind ?_)
  rw [hc]
  refine .neg hreg ((Yields.answered_none h hr ha _).bind (.neg ?_ (.pure _ _)))
  simp [ho]

theorem Yields.loadLine_own (h : AtIssue s th) (hc : s.check th va .read = .own dp) (hp : s.poisoned dp n = false) :
    Yields (Exec.loadLine va n nw) s (s.newest dp n) s := by
  refine (Yields.get s).bind ((Yields.me h).bind ?_)
  rw [hc]
  exact .neg (by simp [hp]) (.pure _ _)

theorem Yields.loadLine_ok (h : AtIssue s th) (hc : s.check th va .read = .ok dp) (hreg : s.region dp ≠ .control)
    (hm : Yields (Exec.readMemory dp n va nw) s bs t) : Yields (Exec.loadLine va n nw) s bs t := by
  refine (Yields.get s).bind ((Yields.me h).bind ?_)
  rw [hc]
  dsimp only
  split
  · contradiction
  · exact hm

theorem AtIssue.noteBankWindow (h : AtIssue s th) (va dp : Nat) : AtIssue (s.noteBankWindow th va dp) th := by
  obtain ⟨wins, hw⟩ := s.noteBankWindow_same th va dp
  rw [hw]
  exact h.of_eq rfl rfl

/-- The state in which a load has its bytes: the access is counted and the line's view is taken (R71, R75). -/
def viewTaken (s : State) (th : Thread) (dp : Nat) (nw : Bool) : State :=
  let s := s.countWindow (s.tenantOf th.row) dp false
  if nw then s.viewNewest th.id (lineOf dp) else s.boundView th (lineOf dp)

theorem Yields.readHere {x : Thread} (h : AtIssue s th) (hx : AtIssue (viewTaken s th dp nw) x)
    (hb : (viewTaken s th dp nw).uncoveredBad x [] dp n = false) (hs : (viewTaken s th dp nw).shadowBytes? x.id dp n = none) :
    Yields (Exec.readHere dp n va nw) s (State.forward x [] dp ((viewTaken s th dp nw).viewBytes x dp n)) (viewTaken s th dp nw) := by
  refine (Yields.me h).bind ((Yields.modify _ _).bind ((Yields.modify _ _).bind ((Yields.get _).bind ((Yields.me hx).bind (.neg ?_ ?_)))))
  · exact Bool.eq_false_iff.1 hb
  · unfold viewTaken at hs ⊢
    dsimp only at hs ⊢
    rw [hs]
    exact .pure _ _

theorem Yields.readMemory (h : AtIssue s th) (hl : s.lostHold? th dp = none) (hr : s.reach (th.id + 1) dp false = .ok t)
    (ht : AtIssue t th) (hb : Yields (Exec.readHere dp n va nw) (t.noteBankWindow th va.toNat dp) bs u) :
    Yields (Exec.readMemory dp n va nw) s bs u :=
  (Yields.checkHold h hl va).bind ((Yields.reachRow h hr).bind ((Yields.me ht).bind ((Yields.modify _ _).bind hb)))

theorem Yields.storeLine_own (h : AtIssue s th) (hc : s.check th va .write = .own dp) :
    Yields (Exec.storeLine va bs mark group) s () (s.storeRow th (some th.id) dp bs) := by
  refine (Yields.get s).bind ((Yields.me h).bind ?_)
  dsimp only
  rw [hc]
  exact .modify _ _

/-- The state in which a store to memory joins the store buffer. -/
def storeCounted (s : State) (th : Thread) (va : Word) (dp : Nat) : State :=
  (s.noteBankWindow th va.toNat dp).countWindow (s.tenantOf th.row) dp true

/-- The state once a store has joined the store buffer (R174). -/
def storeQueued (s : State) (th : Thread) (va : Word) (dp : Nat) (bs : List Byte) (mark : StoreMark) : State :=
  ((storeCounted s th va dp).pushSB th.id ⟨dp, bs, va, s.asidOf th.row, mark, none, none⟩).noteWrote th.id (lineOf dp)

theorem storeQueued_mem (s : State) (th : Thread) (va : Word) (dp : Nat) (bs : List Byte) (mark : StoreMark) :
    (storeQueued s th va dp bs mark).mem = s.mem := by
  refine (State.countWindow_mem _ _ _ _).trans ?_
  obtain ⟨wins, hw⟩ := s.noteBankWindow_same th va.toNat dp
  rw [hw]

theorem Yields.storeLine_ok (h : AtIssue s th) (hc : s.check th va .write = .ok dp) (hl : s.lostHold? th dp = none)
    (hg : (storeCounted s th va dp).isGroupStore th va.toNat dp = false) :
    Yields (Exec.storeLine va bs mark group) s () (storeQueued s th va dp bs mark) := by
  refine (Yields.get s).bind ((Yields.me h).bind ?_)
  dsimp only
  rw [hc]
  refine (Yields.checkHold h hl va).bind ((Yields.modify _ _).bind ((Yields.get _).bind ?_))
  refine (Yields.neg ?_ (.pure _ _)).bind (.modify _ _)
  exact fun e => Bool.eq_false_iff.1 hg (Bool.and_eq_true_iff.1 e).2

end Within

namespace Machine.State

theorem masked_length (s : State) (a : Nat) (bs : List Byte) : (s.masked a bs).length = bs.length := by
  unfold masked
  split
  · simp
  · rfl

/-- A thread's store to its own row beyond the command's word is a write of its bytes (R68, R89). -/
theorem storeRow_poke (s : State) (th : Thread) {a : Nat} (h : th.row + 8 ≤ a) (bs : List Byte) :
    s.storeRow th (some th.id) a bs = s.poke a (s.masked a bs) := by
  unfold storeRow
  dsimp only
  have ha : ¬ a - th.row < 8 := by omega
  rw [if_neg fun e => ha (by omega), if_neg ha, if_neg fun e => e.1 rfl]

end Machine.State

/-- Settles O11: a load leaves the memory, and within one line a load or a store is the access of that line. -/
theorem loadsReadAndStoresWrite : Obligations.LoadsReadAndStoresWrite := by
  intro s th va dp h
  refine ⟨fun n nw bs t hload => ?kept, fun n nw hn hl hc hp => ?loadOwn, fun n nw t u hn hl hc hreg hr ha ho hh hrow ht => ?loadMemory,
    fun bs mark hbs hl hc => ⟨?storeOwn, fun hs ha => ?ownBytes⟩, fun bs mark hbs hl hc hh => ?storeMemory⟩
  case kept => exact .of_mem _ (MemKept.load _ _ hload)
  case loadOwn => exact .load h hn hl (.inl hc) (.queuedLoad_own h hc) (.loadLine_own h hc hp)
  case loadMemory =>
    intro w x hu hb hs
    refine .load h hn hl (.inr hc) (.queuedLoad_ok h hc hreg hr ha ho) (.loadLine_ok h hc hreg ?_)
    exact .readMemory h hh hrow ht (.readHere (ht.noteBankWindow _ _) hu hb hs)
  case storeOwn => exact .store h hbs hl (.inl hc) (.storeLine_own h hc)
  case ownBytes =>
    have hsame := SameBytesBut.poke hs dp (s.masked dp bs)
    rwa [State.masked_length, ← State.storeRow_poke s th ha] at hsame
  case storeMemory =>
    intro w hg _
    exact ⟨.store h hbs hl (.inr hc) (.storeLine_ok h hc hh hg), .of_mem _ (storeQueued_mem s th va dp bs mark)⟩

end Sys2Proof
end

section
/-!
PROOFS. A fault: the words that it leaves in its row, the close that it begins, and that taking a fault does what the statement says
(R97, R113).
-/
namespace Sys2Proof
open Sys2Proof.Machine

theorem Cause.code_lt (c : Cause) : c.code < 256 := by cases c <;> decide

namespace Machine.State

/-- SSTEP is cleared (R97). -/
def stepCleared (s : State) (row : Nat) : State := if s.ctrlField row 7 13 1 = 1 then s.setCtrl row 7 13 1 0 else s

/-- The fault word of a thread for a cause: the cause and the address of the instruction (R113). -/
def faultWord (th : Thread) (c : Cause) : Word := .ofNat 64 (c.code + th.ip.toNat % 8 * 2 ^ 8 + bitsAt th.ip.toNat 6 50 * 2 ^ 11)

/-- The state once a fault has written its row (R113). -/
def faultMarked (s : State) (th : Thread) (c : Cause) : State :=
  ((s.pokeWord (th.row + 0x18) (faultWord th c)).pokeWord (th.row + 0x08) th.ip).stepCleared th.row

/-- A thread that has taken a fault: its close ends FAULTED (R97, R113). -/
def faulted (c : Cause) (data : Word) (t : Thread) : Thread :=
  { t.askAnew with check := none, stall := none, split := t.split.map (giveUp c data), closing := some 5, deferred := none }

end Machine.State

section Words
open Machine.State
variable {s t : State} {row : Nat}

theorem ctrl_of_mem (h : t.mem = s.mem) (row k : Nat) : t.ctrl row k = s.ctrl row k := by rw [ctrl, ctrl, word64, word64, h]

theorem faultWord_fields (th : Thread) (c : Cause) :
    field (faultWord th c) 0 8 = c.code ∧ field (faultWord th c) 8 3 = th.ip.toNat % 8 ∧
      field (faultWord th c) 11 50 = bitsAt th.ip.toNat 6 50 ∧ field (faultWord th c) 61 3 = 0 := by
  have hc := c.code_lt
  have hslot : th.ip.toNat % 8 < 8 := Nat.mod_lt _ (by decide)
  have hline : bitsAt th.ip.toNat 6 50 < 2 ^ 50 := Nat.mod_lt _ (by decide)
  simp only [field, faultWord, BitVec.toNat_ofNat]
  generalize bitsAt th.ip.toNat 6 50 = l at *
  simp only [bitsAt]
  omega

theorem stepCleared_threads : (s.stepCleared row).threads = s.threads := by
  unfold State.stepCleared
  split <;> simp

variable (hs : SafeState s)
include hs

theorem SafeState.stepCleared : SafeState (s.stepCleared row) := .ite hs.setCtrl hs

theorem stepCleared_sstep : (s.stepCleared row).ctrlField row 7 13 1 = 0 := by
  by_cases h : s.ctrlField row 7 13 1 = 1
  · rw [State.stepCleared, if_pos h, ctrlField, ctrl_setCtrl_same hs, field_setField_same _ _ _ _ (by decide), Nat.zero_mod]
  · have hlt : s.ctrlField row 7 13 1 < 2 := Nat.mod_lt _ (by decide)
    rw [State.stepCleared, if_neg h]
    omega

theorem stepCleared_ctrl_other {k : Nat} (hk : 7 ≠ k) : (s.stepCleared row).ctrl row k = s.ctrl row k := by
  unfold State.stepCleared
  split
  · exact ctrl_setCtrl_other hs row hk _ _ _
  · rfl

theorem stepCleared_sameBytes : SameBytesBut [(row + 0x38, 8)] s (s.stepCleared row) := by
  unfold State.stepCleared
  split
  · exact .pokeWord hs _ _
  · exact .of_mem _ rfl

theorem setWord0_code (bits : Nat) : (s.setWord0 row bits).code row = bits % 16 := by
  have hword : (s.setWord0 row bits).ctrl row 0 = setField (setField (s.ctrl row 0) 0 4 bits) 16 16 (bits / 2 ^ 16) :=
    word64_pokeWord_same _ _ _ hs
  rw [code, ctrlField, hword, field_setField_other _ _ _ _ _ _ (by decide) (by decide), field_setField_same _ _ _ _ (by decide)]
  rfl

theorem setCtrl_code_other {k : Nat} (hk : k ≠ 0) (lo n v : Nat) : (s.setCtrl row k lo n v).code row = s.code row :=
  congrArg (field · 0 4) (ctrl_setCtrl_other hs row hk lo n v)

end Words

section Fault
open Machine.State
variable {s : State} {th : Thread} {c : Cause}

theorem releaseCommands_of_ne_walker (he : th.exec ≠ .walker) (bits : Nat) : s.releaseCommands th bits = s := if_pos (.inl he)

/-- The last steps of a close leave the state that it was begun for (R366); the row of a walker takes held commands after them. -/
theorem finishClose_code (hs : SafeState s) {bits : Nat} (hb : bits ≠ dataBits) (he : th.exec ≠ .walker) :
    (s.finishClose th bits).code th.row = bits % 2 ^ 32 % 16 := by
  have hs₁ : SafeState ((s.releaseHolds th false).precharge th) := hs.releaseHolds.precharge
  have hcode := setWord0_code hs₁ (row := th.row) (bits % 2 ^ 32)
  rw [finishClose, if_neg hb]
  extract_lets s₁ s₂ s₃ now s₄
  rw [releaseCommands_of_ne_walker he]
  refine Eq.trans (show s₄.code th.row = s₂.code th.row from ?_) hcode
  show s₃.code th.row = _
  unfold s₃
  split
  · exact setCtrl_code_other hs₁.setWord0 (by decide) _ _ _
  · rfl

section Message
variable (s) (th) (c) (data : Word)

theorem raise_kept (tenant v : Nat) : (s.raise tenant v).mem = s.mem ∧ (s.raise tenant v).threads = s.threads := by
  unfold State.raise
  split <;> exact ⟨rfl, rfl⟩

theorem sendFault_kept : (s.sendFault th c data).mem = s.mem ∧ (s.sendFault th c data).threads = s.threads := by
  unfold State.sendFault
  extract_lets tenant
  split
  · exact ⟨rfl, rfl⟩
  · extract_lets seq msg own
    split
    · exact raise_kept _ _ _
    · exact ⟨rfl, rfl⟩

theorem failWalk_kept : (s.failWalk th c).mem = s.mem ∧ (s.failWalk th c).threads = s.threads := by
  unfold State.failWalk
  split <;> exact ⟨rfl, rfl⟩

end Message

section Taken
variable (hth : s.thread? th.id = some th) (data : Word)
include hth

/-- A fault marks its row, begins the close of its thread, and sends its message (R113, R114). -/
theorem takeFault_eq : s.takeFault th.id c data =
    (((((((s.faultMarked th c).updThread th.id fun t =>
      { t.askAnew with check := none, stall := none, split := t.split.map (giveUp c data) }).dropWalk th.id).dropClaims
        (th.id + 1)).beginClose th.id 5).sendFault th c data).failWalk th c) := by
  unfold takeFault
  rw [hth]
  rfl

theorem takeFault_mem : (s.takeFault th.id c data).mem = (s.faultMarked th c).mem := by
  rw [takeFault_eq hth, (failWalk_kept _ _ _).1, (sendFault_kept _ _ _ _).1]
  generalize s.faultMarked th c = t
  rfl

theorem takeFault_thread? : (s.takeFault th.id c data).thread? th.id = some (faulted c data th) := by
  rw [takeFault_eq hth, thread?_congr (failWalk_kept _ _ _).2, thread?_congr (sendFault_kept _ _ _ _).2]
  have hmarked : (s.faultMarked th c).thread? th.id = some th := by
    rw [← hth]
    exact thread?_congr (by simp [faultMarked, stepCleared_threads]) _
  exact thread?_updThread_self (thread?_updThread_self (s := s.faultMarked th c) hmarked _) _

end Taken

/-- The words of a row that a fault has marked (R113). -/
structure FaultWords (s t : State) (th : Thread) (c : Cause) : Prop where
  safe : SafeState t
  fault : t.ctrl th.row 3 = faultWord th c
  pcWord : t.pcWord th.row = th.ip
  state : t.ctrl th.row 0 = s.ctrl th.row 0
  sstep : t.ctrlField th.row 7 13 1 = 0
  same : SameBytesBut [(th.row + 0x08, 8), (th.row + 0x18, 8), (th.row + 0x38, 8)] s t

theorem FaultWords.marked (hs : SafeState s) (th : Thread) (c : Cause) : FaultWords s (s.faultMarked th c) th c := by
  have hs₁ := hs.pokeWord (th.row + 0x18) (faultWord th c)
  have hs₂ := hs₁.pokeWord (th.row + 0x08) th.ip
  have hfault : ((s.pokeWord (th.row + 0x18) (faultWord th c)).pokeWord (th.row + 0x08) th.ip).ctrl th.row 3 = faultWord th c :=
    (word64_pokeWord_other _ _ _ _ hs₁ (by omega)).trans (word64_pokeWord_same _ _ _ hs)
  have hstate : ((s.pokeWord (th.row + 0x18) (faultWord th c)).pokeWord (th.row + 0x08) th.ip).ctrl th.row 0 = s.ctrl th.row 0 :=
    (word64_pokeWord_other _ _ _ _ hs₁ (by omega)).trans (word64_pokeWord_other _ _ _ _ hs (by omega))
  refine ⟨hs₂.stepCleared, ?_, ?_, ?_, stepCleared_sstep hs₂, ?_⟩
  · exact (stepCleared_ctrl_other hs₂ (by decide)).trans hfault
  · exact (stepCleared_ctrl_other hs₂ (by decide)).trans (word64_pokeWord_same _ _ _ hs₁)
  · exact (stepCleared_ctrl_other hs₂ (by decide)).trans hstate
  · exact (((SameBytesBut.pokeWord hs _ _).trans (.pokeWord hs₁ _ _)).trans (stepCleared_sameBytes hs₂)).mono (by simp)

theorem FaultWords.of_mem {t u : State} (h : FaultWords s t th c) (hm : u.mem = t.mem) : FaultWords s u th c := by
  have hctrl := ctrl_of_mem hm th.row
  exact ⟨h.safe.of_mem hm, (hctrl 3).trans h.fault, (hctrl 1).trans h.pcWord, (hctrl 0).trans h.state,
    (congrArg (field · 13 1) (hctrl 7)).trans h.sstep, fun a ha => (congrArg (·.get a) hm).trans (h.same a ha)⟩

end Fault

open Machine.State in
/-- Settles O8: the words that the fault writes, the close that it begins, and how that close ends. -/
theorem takingAFault : Obligations.TakingAFault := by
  intro s th c data hs hth t
  have h : FaultWords s t th c := (FaultWords.marked hs th c).of_mem (takeFault_mem hth data)
  obtain ⟨hcause, hslot, hline, htop⟩ := faultWord_fields th c
  have hfault (lo n : Nat) : t.ctrlField th.row 3 lo n = field (faultWord th c) lo n := by rw [ctrlField, h.fault]
  refine ⟨(hfault 0 8).trans hcause, (hfault 8 3).trans hslot, (hfault 11 50).trans hline, (hfault 61 3).trans htop, h.pcWord,
    congrArg (field · 32 32) h.state, h.sstep, ⟨faulted c data th, takeFault_thread? hth data, rfl, rfl, fun he => ?_⟩, h.same⟩
  exact finishClose_code h.safe (th := faulted c data th) (bits := 5) (by decide) he

end Sys2Proof
end

section
/-!
PROOFS. KILL of a FREE row where the thread's address is not the address of its row, by which the statement on commands fails (R90, R97).
-/
namespace Sys2Proof
open Sys2Proof.Machine

/-- A closed thread whose address is no multiple of 2,048: the row that holds the address begins one byte before it. -/
def misplacedThread : Thread := { (default : Thread) with row := 1 }

/-- Reset with such a thread, in a FIXED row that is FREE. -/
def misplaced : State := { State.reset with threads := [misplacedThread], tags := [(0, .fixed)] }

/-- KILL sets the tag that is listed under the thread's address (R97); the tag of the row that holds the address stays as it was. -/
theorem misplaced_kill_tag : (misplaced.command misplacedThread none 5).tagOf 1 = .fixed := rfl

/-- Refutes O10: the thread may stand at an address that is not a row's, and its row is then FIXED after the KILL that ends it. -/
theorem not_commandsTakeEffect : ¬ Obligations.CommandsTakeEffect := by
  intro h
  have h := h misplaced misplacedThread none rfl rfl rfl rfl nofun rfl rfl
  obtain ⟨-, -, -, -, -, -, -, -, -, -, -, -, hkill, -⟩ := h
  have hfree : misplaced.code 1 = 0 := rfl
  have htag := (hkill hfree rfl).2
  exact absurd (misplaced_kill_tag.symm.trans htag) nofun

end Sys2Proof
end

section
/-!
PROOFS. Class 0x0, the rows' own instructions: that command stores, spawns, yields, waits and exits complete, and that looking at rows does
(R118 to R126).
-/
namespace Sys2Proof
open Sys2Proof.Machine

section CommandStores
variable {s t : State} {th : Thread} {f : FA} {code : Nat} {withPc mark : Bool}

/-- The bytes that a command store writes (R119): the command word, and the start address where one is given. -/
def commandBytes (s : State) (th : Thread) (f : FA) (code : Nat) (withPc : Bool) : List Byte :=
  wordBytes (.ofNat 64 (code * 2 ^ 4 + f.md.toNat * 2 ^ 8)) ++ if withPc ∧ f.b ≠ .x 0 then wordBytes (s.getX th.row (xnum f.b)) else []

theorem commandBytes_withPc : commandBytes s th f code true = wordBytes (.ofNat 64 (code * 2 ^ 4 + f.md.toNat * 2 ^ 8)) ++
    if f.b = .x 0 then [] else wordBytes (s.getX th.row (xnum f.b)) := by
  unfold commandBytes
  by_cases hb : f.b = .x 0 <;> simp [hb]

theorem commandBytes_plain : commandBytes s th f code false = wordBytes (.ofNat 64 (code * 2 ^ 4 + f.md.toNat * 2 ^ 8)) := by
  simp [commandBytes]

theorem commandStore_yields {bs : List Byte} (h : AtIssue s th) (ha : (s.getX th.row (xnum f.a)).toNat % 2048 = 0)
    (hbs : commandBytes s th f code withPc = bs)
    (hst : Yields (Exec.store (s.getX th.row (xnum f.a)) bs
      (if mark then .startData f.md (s.getX th.row (xnum f.a)) else .plain) false) s () t) :
    Yields (commandStore f code withPc mark) s .next t := by
  subst hbs
  exact (Yields.readX h _).bind ((Yields.readX h _).bind ((Yields.require _ (beq_iff_eq.2 ha)).bind (hst.bind (.pure _ _))))

theorem commandStore_align (h : AtIssue s th) (ha : (s.getX th.row (xnum f.a)).toNat % 2048 ≠ 0) :
    Stops (commandStore f code withPc mark) s (.fault .align (s.getX th.row (xnum f.a)) []) :=
  .bind (.readX h _) (.bind (.readX h _) (.left (.require _ (beq_false_of_ne ha))))

end CommandStores

/-- Settles O20: an aligned command store is the store of its bytes, and another faults. -/
theorem commandStoresComplete : Obligations.CommandStoresComplete := by
  intro s t th f h
  refine ⟨fun ha => ⟨fun hst => ?start, fun hst => ?stop, fun hst => ?redirect⟩, fun ha => ⟨?_, ?_, ?_⟩⟩
  case start => exact asInstr_yields h (commandStore_yields h ha commandBytes_withPc hst)
  case stop => exact asInstr_yields h (commandStore_yields h ha commandBytes_plain hst)
  case redirect => exact asInstr_yields h (commandStore_yields h ha commandBytes_withPc hst)
  all_goals exact asInstr_faults h (commandStore_align h ha)

/-- Settles O21: TH.SPAWN by the privilege that it asks for, TH.YIELD by the rows that wait, TH.SELF by its mode and TH.PEEK by its size. -/
theorem spawnYieldSelfPeekComplete : Obligations.SpawnYieldSelfPeekComplete := by
  refine ⟨fun s th f h => ⟨⟨fun h3 hp => ?spawn, fun hp => ?priv⟩, fun hw => ?yield, fun hw => ?renew, ?self⟩,
    fun s t th u f bs h hu => ⟨fun hsz hpeek => ?scalar, fun hsz hpeek => ?vector⟩⟩
  case spawn =>
    refine asInstr_yields h ((Yields.readX h _).bind ((Yields.readX h _).bind ((Yields.readX h _).bind ?_)))
    refine (Yields.get s).bind ((Yields.me h).bind ((Yields.require _ ?_).bind ((Yields.modify _ _).bind (.pure _ _))))
    exact Bool.and_eq_true_iff.2 ⟨bne_iff_ne.2 h3, decide_eq_true hp⟩
  case priv =>
    refine asInstr_faults h (.bind (.readX h _) (.bind (.readX h _) (.bind (.readX h _) (.bind (.get s) (.bind (.me h) (.left (.require _ ?_)))))))
    refine Bool.and_eq_false_iff.2 (hp.imp (fun h3 => by simp [h3]) fun hp => decide_eq_false (Nat.not_le.2 hp))
  case yield =>
    refine asInstr_yields h ((Yields.get s).bind ((Yields.me h).bind (.pos ?_ (.pure _ _))))
    simpa using hw
  case renew =>
    refine asInstr_yields h ((Yields.get s).bind ((Yields.me h).bind (.neg ?_ ((Yields.set _ _).bind (.pure _ _)))))
    simpa using hw
  case self => exact asInstr_yields h ((Yields.get s).bind ((Yields.me h).bind (.writeNext h _ _)))
  case scalar => exact asInstr_yields h ((Yields.ea h f).bind (.pos hsz (hpeek.bind (.writeNext hu _ _))))
  case vector => exact asInstr_yields h ((Yields.ea h f).bind (.neg hsz (hpeek.bind ((Yields.writeV hu _ _).bind (.pure _ _)))))

/-- Settles O22: TH.WAIT by what it finds and by what it waits for, TH.EXIT by its store buffer and the counter that it names. -/
theorem waitAndExitComplete : Obligations.WaitAndExitComplete := by
  refine ⟨fun s th f h => ⟨fun hc => ?changed, fun hc ht hl => ?polled, fun hc hw => ?waits⟩,
    fun s th f h => ⟨fun he ha => ?exit, fun old t u he ha hadd hu => ?counted, fun he => ?stall⟩⟩
  case changed =>
    exact asInstr_yields h ((Yields.readX h _).bind ((Yields.get s).bind ((Yields.me h).bind (.pos hc (.writeNext h _ _)))))
  case polled =>
    refine asInstr_yields h ((Yields.readX h _).bind ((Yields.get s).bind ((Yields.me h).bind (.neg hc (.pos ⟨ht, hl⟩ ?_)))))
    exact .writeNext h _ _
  case waits =>
    refine asInstr_yields h ((Yields.readX h _).bind ((Yields.get s).bind ((Yields.me h).bind (.neg hc (.neg ?_ ?_)))))
    · exact fun e => hw.elim (· e.1) (· e.2)
    · exact (Yields.set _ _).bind (.pure _ _)
  case exit =>
    refine asInstr_yields h ((Yields.sbEmpty h he).bind (.neg (not_not_intro ha) ?_))
    exact (Yields.me h).bind ((Yields.modify _ _).bind (.pure _ _))
  case counted =>
    refine asInstr_yields h ((Yields.sbEmpty h he).bind (.pos ha ?_))
    exact (Yields.readX h _).bind (hadd.bind ((Yields.me hu).bind ((Yields.modify _ _).bind (.pure _ _))))
  case stall => exact asInstr_stalls h (.left (.sbEmpty h he))

end Sys2Proof
end

section
/-!
PROOFS. The exchange of a superstep and the queues of a cluster: that SYN.SEND and SYN.RECV complete in their slots, and that SYN.QCFG does
(R331, R332, R335, R336).
-/
namespace Sys2Proof
open Sys2Proof.Machine

section Exchange
variable {α : Type} {s t : State} {th : Thread} {x : α} {e : Stop}

theorem AtIssue.setDomain (h : AtIssue s th) (d : Domain) : AtIssue (s.setDomain d) th := h.of_eq rfl rfl

theorem AtIssue.withQueues (h : AtIssue s th) (qs : List Queue) : AtIssue { s with queues := qs } th := h.of_eq rfl rfl

variable {a : Word} {na nb : Nat} (h : AtIssue s th)
include h

/-- The queue that X(na) names, with the state and the row in which it is looked up (R336). -/
theorem Yields.namedQueue {k : Nat × Nat → State → Nat → Exec α} (hc : field a 8 10 < 640)
    (hk : Yields (k (field a 8 10, field a 0 8) s th.row) s x t) :
    Yields (do let q ← queueName a; let u ← MonadState.get; let row ← Exec.myRow; k q u row) s x t :=
  Yields.bind ((Yields.require _ (decide_eq_true hc)).bind (.pure _ _)) ((Yields.get s).bind ((Yields.myRow h).bind hk))

omit h in
theorem Stops.queueName (hc : 640 ≤ field a 8 10) : Stops (queueName a) s (.fault .protect 0 []) :=
  .left (.require _ (decide_eq_false (Nat.not_lt.2 hc)))

end Exchange

/-- Settles O45: SYN.SEND and SYN.RECV by their slot's owner, destination and time, SYN.QCFG by the queue that it names and its pool. -/
theorem exchangeAndQueueInstructionsComplete : Obligations.ExchangeAndQueueInstructionsComplete := by
  intro s th f g d m k owner dest h
  refine ⟨fun hslot => ⟨fun ho hb he => ?send, fun ho => ?sendOwner, fun ho he => ?sendLate, fun ho hb he => ?sendEarly,
      fun b hd he hf => ?recv, fun hd => ?recvOwner, fun hd he => ?recvEarly, fun hd he hf => ?recvPoison⟩,
    fun hc => ⟨?createOutside, ?deleteOutside⟩,
    fun hc => ⟨fun q hq => ⟨?createTaken, ?delete⟩, fun hq => ⟨?deleteNone, fun hcap => ?createBadSize, fun h0 h1 h2 hp => ?createNoRoom,
      fun h0 h1 h2 hp => ?create⟩⟩⟩
  case send =>
    refine asInstr_yields h ((Yields.readV h _).bind (hslot.bind ((Yields.get s).bind ?_)))
    refine (Yields.require _ (beq_iff_eq.2 ho)).bind ((Yields.require _ (by simp [he])).bind (.neg (by simp [hb]) ?_))
    exact (Yields.modify _ _).bind (.pure _ _)
  case sendOwner =>
    exact asInstr_faults h (.bind (.readV h _) (.bind hslot (.bind (.get s) (.left (.require _ (beq_false_of_ne ho))))))
  case sendLate =>
    refine asInstr_faults h (.bind (.readV h _) (.bind hslot (.bind (.get s) (.bind (.require _ (beq_iff_eq.2 ho)) ?_))))
    exact .left (.require _ (by simp [he]))
  case sendEarly =>
    refine asInstr_stalls h (.bind (.readV h _) (.bind hslot (.bind (.get s) (.bind (.require _ (beq_iff_eq.2 ho)) ?_))))
    exact .bind (.require _ (by simp [he])) (.pos (by simp [hb]) (.left (.stall _ _ _)))
  case recv =>
    refine asInstr_yields h (hslot.bind ((Yields.get s).bind ((Yields.require _ (beq_iff_eq.2 hd)).bind (.neg (by simp [he]) ?_))))
    rw [hf]
    exact (Yields.modify _ _).bind (Yields.bind (.writeV (h.setDomain _) _ _) (.pure _ _))
  case recvOwner => exact asInstr_faults h (.bind hslot (.bind (.get s) (.left (.require _ (beq_false_of_ne hd)))))
  case recvEarly =>
    refine asInstr_stalls h (.bind hslot (.bind (.get s) (.bind (.require _ (beq_iff_eq.2 hd)) (.pos (by simp [he]) ?_))))
    exact .left (.stall _ _ _)
  case recvPoison =>
    refine asInstr_faults h (.bind hslot (.bind (.get s) (.bind (.require _ (beq_iff_eq.2 hd)) (.neg (by simp [he]) ?_))))
    rw [hf]
    exact .fault _ _
  case createOutside => exact asInstr_faults h (.bind (.readX h _) (.bind (.readX h _) (.left (.queueName hc))))
  case deleteOutside => exact asInstr_faults h (.bind (.readX h _) (.left (.queueName hc)))
  case createTaken =>
    refine asInstr_yields h ((Yields.readX h _).bind ((Yields.readX h _).bind (.namedQueue h hc ?_)))
    exact .pos (by simp [hq]) (.writeNext h _ _)
  case delete =>
    refine asInstr_yields h ((Yields.readX h _).bind (.namedQueue h hc ?_))
    dsimp only
    rw [hq]
    by_cases ht : q.tenant ≠ s.tenantOf th.row
    · rw [if_pos ht]
      exact .pos ht (.writeNext h _ _)
    · rw [if_neg ht]
      exact .neg ht ((Yields.set _ _).bind (.writeNext (h.withQueues _) _ _))
  case deleteNone =>
    refine asInstr_yields h ((Yields.readX h _).bind (.namedQueue h hc ?_))
    dsimp only
    rw [hq]
    exact .writeNext h _ _
  case createBadSize =>
    refine asInstr_yields h ((Yields.readX h _).bind ((Yields.readX h _).bind (.namedQueue h hc ?_)))
    exact .neg (by simp [hq]) (.pos hcap (.writeNext h _ _))
  case createNoRoom =>
    refine asInstr_yields h ((Yields.readX h _).bind ((Yields.readX h _).bind (.namedQueue h hc ?_)))
    exact .neg (by simp [hq]) (.neg (by omega) (.pos hp (.writeNext h _ _)))
  case create =>
    refine asInstr_yields h ((Yields.readX h _).bind ((Yields.readX h _).bind (.namedQueue h hc ?_)))
    exact .neg (by simp [hq]) (.neg (by omega) (.neg (Nat.not_lt.2 hp) ((Yields.set _ _).bind (.writeNext (h.withQueues _) _ _))))

end Sys2Proof
end

section
/-!
PROOFS. The scheduler's events: a row opens, closes for its quantum, for priority or at the end of its spin window, wakes and ticks
(R103 to R109, R123).
-/
namespace Sys2Proof
open Sys2Proof.Machine

namespace Machine.State

section Scheduled
variable {s : State} {id : Nat} {th : Thread}

theorem quantumOver_of_scheduled (hs : s.scheduled th = true) (hq : 4096 ≤ s.cyclesSince th th.openedAt) : s.quantumOver th = true :=
  Bool.and_eq_true_iff.2 ⟨hs, decide_eq_true hq⟩

theorem ticking_waiting {w : Stall} {d : Nat} (hw : th.stall = some w) (hd : w.cond = .watch d) (hl : s.logical th = 4) :
    s.ticking th = decide (0 < s.prog th.row) := by
  simp [ticking, hw, hd, hl]

/-- A claimant is a READY row with no slot to take, whose EP exceeds the open row's base priority by 16, and which no row has been closed for. -/
theorem firstClaimant_claims {u : Thread} (h : s.firstClaimant th = some u) :
    u ∈ s.waitingRows th ∧ s.prio th.row + 16 ≤ s.effective u ∧ s.freeSlot u = none ∧ u.servedAt ≠ some u.readyAt := by
  have hu : u ∈ s.claimants th := List.mem_of_find?_eq_some h
  simpa [claimants, and_assoc] using hu

variable (hth : s.thread? id = some th)
include hth

section Opens
variable {k : Nat} (hready : s.isReady th = true) (hclose : th.closing = none) (hon : s.islandOn th.island = true) (hrun : s.halted th = false)
  (hslot : s.freeSlot th = some k) (hfirst : s.firstReady th k = true)
include hready hclose hon hrun hslot hfirst

theorem schedOpen_plain (he : th.exec ≠ .bank) : s.schedOpen id = s.openRow th k := by
  simp only [schedOpen, hth, hslot]
  rw [if_neg (by simp [hready, hclose, hon, hrun]), if_neg (by simp [hfirst]), if_neg he]

theorem schedOpen_bank {t : State} (he : th.exec = .bank) (ht : s.openBank th = .ok t) : s.schedOpen id = t.openRow th k := by
  simp only [schedOpen, hth, hslot, ht]
  rw [if_neg (by simp [hready, hclose, hon, hrun]), if_neg (by simp [hfirst]), if_pos he]

end Opens

section Quantum
variable (hs : s.scheduled th = true) (hq : 4096 ≤ s.cyclesSince th th.openedAt)
include hs hq

theorem quantumClose_waited (hx : s.inExchange th = false) (hw : ∃ u ∈ s.waitingRows th, s.prio th.row ≤ s.effective u) :
    s.quantumClose id = s.preempt th := by
  simp only [quantumClose, hth]
  rw [if_neg (by simp [quantumOver_of_scheduled hs hq]), if_pos]
  simpa [mayPreempt, hs, hx] using hw

theorem quantumClose_renewed (hw : s.inExchange th = true ∨ ∀ u ∈ s.waitingRows th, s.effective u < s.prio th.row) :
    s.quantumClose id = s.updThread id fun t => { t with openedAt := s.ticksOf th } := by
  simp only [quantumClose, hth]
  rw [if_neg (by simp [quantumOver_of_scheduled hs hq]), if_neg]
  obtain hx | hw := hw
  · simp [mayPreempt, hx]
  · simpa using fun _ => hw

end Quantum

/-- The row of lowest base priority among those that stay open closes for the first claimant (R106). -/
theorem priorityClose_lowest (hp : s.mayPreempt th = true)
    (hlow : ∀ u ∈ s.openRows th, u.closing = none ∧ u.deferred = none ∧ (u.id = th.id ∨ s.prio th.row < s.prio u.row)) {u : Thread}
    (hu : s.firstClaimant th = some u) :
    s.priorityClose id = (s.updThread u.id fun t => { t with servedAt := some t.readyAt }).preempt th := by
  have hlowest : s.lowestOpen th = true := by
    refine List.all_eq_true.2 fun v hv => ?_
    obtain ⟨-, -, hv | hv⟩ := hlow v hv <;> simp [hv]
  simp only [priorityClose, hth, hu]
  exact if_neg (by simp [priorityDue, hp, hlowest, hu])

theorem spinExpiry_over {w : Stall} (hw : th.stall = some w) (hopen : th.slot.isSome = true) (hclose : th.closing = none)
    (hcode : s.code th.row = 3) (hover : (if s.slotWanted th then 32 else 256) ≤ s.cyclesSince th th.stalledAt) :
    s.spinExpiry id = (s.beginClose id (waitBits w.wkind w.warg)).progressClose id false := by
  have hdue : s.stallOver th = true := by
    refine Bool.and_eq_true_iff.2 ⟨?_, decide_eq_true hover⟩
    simp [stalled, hw, hopen, hclose, hcode]
  simp only [spinExpiry, hth, hw]
  exact if_neg (by simp [hdue])

theorem waitWake_holds {w : Stall} (hw : th.stall = some w) (hslot : th.slot = none) (hcode : s.code th.row = 4)
    (hc : s.condHolds th w.cond = true) : s.waitWake id = s.setLogical id 2 := by
  simp only [waitWake, hth, hw]
  exact if_neg (by simp [hslot, hcode, hc])

section Ticks
variable {w : Stall} {d : Nat} (hw : th.stall = some w) (hd : w.cond = .watch d) (hl : s.logical th = 4)
include hw hd hl

/-- A TH.WAIT with no timeout, or whose timeout has run out, counts nothing down. -/
theorem waitTick_none (hp : s.prog th.row = 0) : s.waitTick id = s := by
  simp only [waitTick, hth, hw, hd, ticking_waiting hw hd hl]
  exact if_pos (.inl (by simp [hp]))

theorem waitTick_counts (hp : 0 < s.prog th.row) (ht : 256 ≤ s.cyclesSince th th.tickAt) :
    s.waitTick id = if s.prog th.row ≤ 256
      then (s.updThread id fun t => { t with tickAt := t.tickAt + 256000 }).endWatch th d 0
      else (s.updThread id fun t => { t with tickAt := t.tickAt + 256000 }).setCtrl th.row 0 32 32 (s.prog th.row - 256) := by
  simp only [waitTick, hth, hw, hd, ticking_waiting hw hd hl]
  exact if_neg (by simp [hp, ht])

end Ticks

end Scheduled

end Machine.State
end Sys2Proof
end

section
/-!
PROOFS. The row allocator and the posts: reclaims, evictions, spawn replies, reloads, moves of rows of gated dies, and Posts (R32, R94, R110 to
R112, R115, R116, R120, R121).
-/
namespace Sys2Proof
open Sys2Proof.Machine

namespace Machine.State

/-- The state after the row of a FREE thread has gone back to the pool that it came from (R94, R111). -/
def rowGivenBack (s : State) (th : Thread) : State := (s.rowToData th).giveRow (s.tenantOf th.row) th.row th.evicted

/-- The request of a thread is over, and the walk for its hint (R120, R121). -/
def spawnOver (s : State) (id : Nat) : State :=
  (s.updThread id fun t => { t with spawn := none }).dropClaims (serviceParty (2 ^ 32 + id))

/-- The new row stands placed as a request asks, and the issuer's view holds its lines (R110, R120). -/
def spawnPlaced (s : State) (id row handle : Nat) (th : Thread) (q : SpawnReq) : State :=
  (List.range 32).foldl (fun s i => s.viewNewest id (row + 64 * i))
    ((s.spawnOver id).placeRow row handle (bitsAt (s.ctrl th.row 2).toNat 0 16 + field q.desc 9 2 * 2 ^ 16) (field q.desc 0 8) q.pc.toNat
      (field q.desc 11 1 == 1) [])

/-- A row that has come back from its backing row to a tile row (R112): in the state that WKIND names, a tick that is due ending now. -/
def reloaded (t : State) (id row k : Nat) (th : Thread) : State :=
  let u := ({ t with freeRows := t.freeRows.filter (· != row) } : State).moveRow th.row row
  let u := ((u.setRaw row 0 0 8 (if t.ctrlField th.row 0 16 4 = 0 then 1 else 4)).setRaw row 2 42 1 0).updThread id
    fun t => { t with evicted := false, place := k }
  u.updThread id fun t => { t with tickAt := min t.tickAt (u.ticksOf t), readyAt := u.ticksOf t }

section Allocated
variable {s : State} {id : Nat} {th : Thread} (hth : s.thread? id = some th)
include hth

theorem reclaim_free (htag : s.tagOf th.row = .placed) (hcode : s.code th.row = 0) (hslot : th.slot = none) (hclose : th.closing = none)
    (hoq : th.oq = []) : s.reclaim id = th.backing.elim (s.rowGivenBack th) fun b =>
      if th.evicted then s.rowGivenBack th else (s.rowGivenBack th).giveRow (s.tenantOf th.row) b true := by
  simp only [reclaim, hth]
  rw [if_neg (by simp [htag, hcode, hslot, hclose, hoq])]
  cases th.backing <;> rfl

/-- The victim that goes before every other one goes to its backing row (R111). -/
theorem evict_reached {b : Nat} (hb : th.backing = some b) (he : s.evictable th = true)
    (hfirst : ∀ u ∈ s.threads, s.evictable u = true → u.id ≠ th.id → s.goesFirst th u = true) (hnone : s.candidates none 0 = [])
    {t : State} (ht : s.reach (hubParty b) b true = .ok t) : s.evict id =
    ((((t.moveRow th.row b).setRaw b 0 0 4 6).setRaw b 2 42 1 1).updThread id fun t =>
      { t with evicted := true, accs := t.accs.map Acc.unbind }).giveRow 0 th.row false := by
  have hid : th.id = id := by simpa using List.find?_some hth
  have hbest : (s.threads.all fun u => ! s.evictable u || u.id == id || s.goesFirst th u) = true := by
    refine List.all_eq_true.2 fun u hu => ?_
    have hu := hfirst u hu
    rw [hid] at hu
    cases hev : s.evictable u with
    | false => rfl
    | true =>
      by_cases h : u.id = id
      · simp [h]
      · simp [hu hev h]
  simp only [evict, hth, hb, ht]
  exact if_neg (by simp [he, hbest, hnone])

section Spawn
variable {q : SpawnReq} {row handle : Nat} (hq : th.spawn = some q)
include hq

theorem spawnReply_cancelled (hc : q.cancelled = true) : s.spawnReply id row handle = s.spawnOver id := by
  simp only [spawnReply, hth, hq]
  exact if_pos hc

variable (hc : q.cancelled = false) {h : State} (hh : s.reachHint th q.hint = .ok h)
include hc hh

theorem spawnReply_refused (h0 : handle = 0) (hr : s.refuses (s.hintRow th q.hint) (field q.desc 8 1) = true) :
    s.spawnReply id row handle = ((h.spawnOver id).setX th.row q.dest 0).endSpawn th q := by
  simp only [spawnReply, hth, hq, hh]
  rw [if_neg (by simp [hc]), if_pos h0, if_neg (by simp [hr])]
  rfl

theorem spawnReply_placed (h0 : handle ≠ 0) (hchosen : s.chosen (s.hintRow th q.hint) (field q.desc 8 1) row = true)
    (hfree : s.handleFree handle = true) {r : State} (hr : h.reach (hubParty row) row true = .ok r) {u : Thread}
    (hu : (r.spawnPlaced id row handle th q).threadAt? row = some u) : s.spawnReply id row handle =
      ((r.spawnPlaced id row handle th q).setX th.row q.dest ((r.spawnPlaced id row handle th q).rowVa u)).endSpawn th q := by
  unfold spawnPlaced spawnOver at *
  simp only [spawnReply, hth, hq, hh, hr]
  rw [if_neg (by simp [hc]), if_neg h0, if_neg (by simp [hchosen, hfree]), hu]

end Spawn

theorem reload_due {row : Nat} (hcode : s.code th.row = 6) (hev : th.evicted = true) (hdue : s.reloadDue th = true)
    (hchosen : s.chosen (some (tileRow th.place 0)) 0 row = true) {t : State} (ht : s.reach (hubParty th.row) th.row false = .ok t) {k : Nat}
    (hk : t.region row = .tile k) :
    let v := t.reloaded id row k th
    let w := if (th.split.any fun p => p.stage == 4 && p.failed.isSome) then v.endUnit id else v
    s.reload id row = if t.ctrlField th.row 0 4 4 = 0 then w else w.takeCommand id (t.ctrlField th.row 0 4 4) := by
  simp only [reload, hth, ht, hk]
  exact if_neg (by simp [hcode, hev, hdue, hchosen])

theorem gatedMove_ready {row k l : Nat} (hk : s.region th.row = .tile k) (hl : s.region row = .tile l) (htag : s.tagOf th.row = .placed)
    (hready : s.isReady th = true) (hgate : s.gates.any (·.die == dieOfTile k) = true) (hdie : dieOfTile l ≠ dieOfTile k)
    (hchosen : s.chosen (some th.row) 0 row = true) :
    let t := (((({ s with freeRows := s.freeRows.filter (· != row) } : State).moveRow th.row row).giveRow 0 th.row false).updThread id
      fun t => { t with place := l })
    s.gatedMove id row = t.updThread id fun u => { u with readyAt := t.ticksOf u } := by
  simp only [gatedMove, hth, hk, hl]
  exact if_neg (by simp [htag, hready, hgate, hdie, hchosen])

end Allocated

section Posts
variable {s : State} {n : Nat} {t : Tenant} {msg : Line} {id : Nat} {rest : List (Line × Nat)} (ht : s.tenant? n = some t)
  (hp : t.posts = (msg, id) :: rest)
include ht hp

theorem post_noSlot (hslot : s.ringSlot t t.mbox t.mboxNext = none) : s.post n =
    ((s.setTenant { t with posts := rest }).logRec .faultMessage ((List.range 5).map fun i => msg.extractLsb' (64 * i) 64)).raise n 0 := by
  simp only [post, ht, hp, hslot]

theorem post_slot {dp : Nat} (hslot : s.ringSlot t t.mbox t.mboxNext = some dp) (hfree : s.slotFree dp = true) {r : State}
    (hr : s.reachPosting t (ringVa t.mbox t.mboxNext) = .ok r) {th : Thread}
    (hth : ((r.setTenant { t with posts := rest, mboxNext := t.mboxNext + 1 }).putSlot dp msg).thread? id = some th) :
    let u := (r.setTenant { t with posts := rest, mboxNext := t.mboxNext + 1 }).putSlot dp msg
    s.post n = { u with posted := assocSet u.posted dp ((List.range 32).map fun i => (th.row + 64 * i, u.verOf (th.row + 64 * i))) } := by
  simp only [post, ht, hp, hslot, hr, hth]
  exact if_neg (by simp [hfree])

end Posts

end Machine.State

section Events
variable {s t : State} {n row handle : Nat}

theorem does_rowSchedOpen (h : s.inp = .unit n) (ht : s.schedOpen n = t) : Does .rowSchedOpen s t := by
  show execRowSchedOpen s = _
  simp only [execRowSchedOpen, h, ht]

theorem does_quantumClose (h : s.inp = .unit n) (ht : s.quantumClose n = t) : Does .quantumClose s t := by
  show execQuantumClose s = _
  simp only [execQuantumClose, h, ht]

theorem does_priorityClose (h : s.inp = .unit n) (ht : s.priorityClose n = t) : Does .priorityClose s t := by
  show execPriorityClose s = _
  simp only [execPriorityClose, h, ht]

theorem does_spinWindowExpiry (h : s.inp = .unit n) (ht : s.spinExpiry n = t) : Does .spinWindowExpiry s t := by
  show execSpinWindowExpiry s = _
  simp only [execSpinWindowExpiry, h, ht]

theorem does_waitWake (h : s.inp = .unit n) (ht : s.waitWake n = t) : Does .waitWake s t := by
  show execWaitWake s = _
  simp only [execWaitWake, h, ht]

theorem does_thWaitTick (h : s.inp = .unit n) (ht : s.waitTick n = t) : Does .thWaitTick s t := by
  show execThWaitTick s = _
  simp only [execThWaitTick, h, ht]

theorem does_rowReclaim (h : s.inp = .unit n) (ht : s.reclaim n = t) : Does .rowReclaim s t := by
  show execRowReclaim s = _
  simp only [execRowReclaim, h, ht]

theorem does_rowEviction (h : s.inp = .unit n) (ht : s.evict n = t) : Does .rowEviction s t := by
  show execRowEviction s = _
  simp only [execRowEviction, h, ht]

theorem does_spawnReply (h : s.inp = .triple n row handle) (ht : s.spawnReply n row handle = t) : Does .spawnReply s t := by
  show execSpawnReply s = _
  simp only [execSpawnReply, h, ht]

theorem does_rowReload (h : s.inp = .pair n row) (ht : s.reload n row = t) : Does .rowReload s t := by
  show execRowReload s = _
  simp only [execRowReload, h, ht]

theorem does_gatedRowMove (h : s.inp = .pair n row) (ht : s.gatedMove n row = t) : Does .gatedRowMove s t := by
  show execGatedRowMove s = _
  simp only [execGatedRowMove, h, ht]

theorem does_post (h : s.inp = .unit n) (ht : s.post n = t) : Does .post s t := by
  show execPost s = _
  simp only [execPost, h, ht]

theorem commandEvent_command {c : CmdArg} {k : BitVec 4} (h : s.inp = .command c k) (code : Nat) :
    commandEvent s code = s.commandStore c code := by
  simp only [commandEvent, h]

theorem does_commandReserved {c : CmdArg} {k : BitVec 4} (h : s.inp = .command c k) (hk : 7 ≤ k.toNat) :
    Does .commandReserved s (s.commandStore c k.toNat) := by
  show execCommandReserved s = _
  simp only [execCommandReserved, h]
  rw [if_pos hk]

end Events

open State in
/-- Settles O58: the events of the scheduler and the allocator one after another, each by the lemma of its case. -/
theorem schedulerEventsTakeEffect : Obligations.SchedulerEventsTakeEffect := by
  intro s
  refine ⟨fun c n h => ?commands, fun id th h hth => ?unit, fun id row handle th q h hth hq => ?spawn, fun id row th h hth => ?moves,
    fun n t msg id rest h ht hp => ⟨fun hslot => ?noSlot, fun dp th r hslot hfree hr hu => ?slot⟩⟩
  case commands =>
    have hc (code : Nat) := commandEvent_command h code
    exact ⟨congrArg _ (hc 1), congrArg _ (hc 2), congrArg _ (hc 3), congrArg _ (hc 4), congrArg _ (hc 5), congrArg _ (hc 6),
      does_commandReserved h⟩
  case unit =>
    refine ⟨fun k hready hclose hon hrun hslot hfirst => ⟨fun he => ?opens, fun t he ht => ?opensBank⟩,
      fun hs hq => ⟨fun hx hw => ?quantum, fun hw => ?renews⟩, fun hp hlow u hu => ?priority, fun u hu => firstClaimant_claims hu,
      fun w hw hopen hclose hcode hover => ?spin, fun w hw hslot hcode hc => ?wakes,
      fun w d hw hd ht hl => ⟨fun hp => ?ticks, fun h0 hp => ?tickEnds, fun hp => ?noTimeout⟩,
      fun htag hcode hslot hclose hoq => ⟨fun hb => ?reclaim, fun b hb => ?reclaimBacked⟩, fun b t hb he hfirst hnone ht => ?evict⟩
    case opens => exact does_rowSchedOpen h (schedOpen_plain hth hready hclose hon hrun hslot hfirst he)
    case opensBank => exact does_rowSchedOpen h (schedOpen_bank hth hready hclose hon hrun hslot hfirst he ht)
    case quantum => exact does_quantumClose h (quantumClose_waited hth hs hq hx hw)
    case renews => exact does_quantumClose h (quantumClose_renewed hth hs hq hw)
    case priority => exact does_priorityClose h (priorityClose_lowest hth hp hlow hu)
    case spin => exact does_spinWindowExpiry h (spinExpiry_over hth hw hopen hclose hcode hover)
    case wakes => exact does_waitWake h (waitWake_holds hth hw hslot hcode hc)
    case ticks => exact does_thWaitTick h ((waitTick_counts hth hw hd hl (by omega) ht).trans (if_neg (by omega)))
    case tickEnds => exact does_thWaitTick h ((waitTick_counts hth hw hd hl h0 ht).trans (if_pos hp))
    case noTimeout => exact does_thWaitTick h (waitTick_none hth hw hd hl hp)
    case reclaim => exact does_rowReclaim h ((reclaim_free hth htag hcode hslot hclose hoq).trans (by rw [hb]; rfl))
    case reclaimBacked => exact does_rowReclaim h ((reclaim_free hth htag hcode hslot hclose hoq).trans (by rw [hb]; rfl))
    case evict => exact does_rowEviction h (evict_reached hth hb he hfirst hnone ht)
  case spawn =>
    refine ⟨fun hc => ?cancelled, fun t hc h0 hr ht => ?refused, fun t r hc h0 hchosen hfree ht hr u hu => ?placed⟩
    case cancelled => exact does_spawnReply h (spawnReply_cancelled hth hq hc)
    case refused => exact does_spawnReply h (spawnReply_refused hth hq hc ht h0 hr)
    case placed => exact does_spawnReply h (spawnReply_placed hth hq hc ht h0 hchosen hfree hr hu)
  case moves =>
    refine ⟨fun k t hcode hev hdue hchosen ht hk => ?reload, fun k l hk hl htag hready hgate hdie hchosen => ?move⟩
    case reload => exact does_rowReload h (reload_due hth hcode hev hdue hchosen ht hk)
    case move => exact does_gatedRowMove h (gatedMove_ready hth hk hl htag hready hgate hdie hchosen)
  case noSlot => exact does_post h (post_noSlot ht hp hslot)
  case slot => exact does_post h (post_slot ht hp hslot hfree hr hu)

end Sys2Proof
end

section
/-!
PROOFS. Class 0x1, control flow: that NOP, LPAD, FSYNC and the predicate instructions complete, that branches, calls and returns transfer, and
that LOOP sets its loop word (R130 to R145).
-/
namespace Sys2Proof
open Sys2Proof.Machine

section Plain
variable {s : State} {th : Thread}

theorem Yields.predOp (h : AtIssue s th) (f : FA) (op : Bool → Bool → Bool) :
    Yields (predOp f op) s .next (s.setP th.row (xnum f.d)
      (op (s.getP th.row (xnum f.a) != (f.md.toNat % 2 == 1)) (s.getP th.row (xnum f.b) != (f.md.toNat / 2 % 2 == 1)))) :=
  (Yields.readP h _).bind ((Yields.readP h _).bind ((Yields.writeP h _ _).bind (.pure _ _)))

end Plain

/-- Settles O16: the plain instructions change nothing, FSYNC passes its test of the store buffer, and a predicate instruction writes what it reads. -/
theorem plainControlCompletes : Obligations.PlainControlCompletes := by
  intro s th h
  refine ⟨fun f => ?nop, fun f => ?lpad, fun f hsb => ?fsync, ⟨fun f => ?pand, fun f => ?por, fun f => ?pxor⟩, fun f => ?pnot⟩
  case nop => exact asInstr_yields h (.pure _ _)
  case lpad => exact asInstr_yields h (.pure _ _)
  case fsync => exact asInstr_yields h ((Yields.sbEmpty h hsb).bind ((Yields.me h).bind ((Yields.modify _ _).bind (.pure _ _))))
  case pand => exact asInstr_yields h (.predOp h f (· && ·))
  case por => exact asInstr_yields h (.predOp h f (· || ·))
  case pxor => exact asInstr_yields h (.predOp h f (· != ·))
  case pnot => exact asInstr_yields h ((Yields.readP h _).bind ((Yields.writeP h _ _).bind (.pure _ _)))

section Transfers
variable {s : State} {th : Thread} {t x : Word} {disp : BitVec 40} (h : AtIssue s th)
include h

theorem Yields.transferTo (t : Word) (pad : Option Byte) :
    Yields (transferTo t pad) s (.jump t (some ⟨true, pad, some th.ip⟩) true) s :=
  (Yields.me h).bind (.pure _ _)

theorem Yields.branchBy (ht : branchTarget th.ip disp.toInt = some t) :
    Yields (branchBy disp) s (.jump t (some ⟨true, none, some th.ip⟩) true) s := by
  refine (Yields.me h).bind ?_
  rw [ht]
  exact .transferTo h t none

theorem Stops.branchBy (ht : branchTarget th.ip disp.toInt = none) : Stops (branchBy disp) s (.fault .badtarget 0 []) := by
  refine .bind (.me h) ?_
  rw [ht]
  exact .fault _ _

theorem Yields.branchIndirect (hx : pcWellFormed x = true) (tag : BitVec 8) :
    Yields (branchIndirect x tag) s (.jump x (some ⟨true, some tag, some th.ip⟩) true) s :=
  (Yields.require _ hx).bind (.transferTo h x _)

omit h in
theorem Stops.branchIndirect (hx : pcWellFormed x = false) (tag : BitVec 8) : Stops (branchIndirect x tag) s (.fault .badtarget x []) :=
  .left (.require _ hx)

end Transfers

/-- Settles O17: BR, BCMP and BRI by the checks of their target, JT by those of its table's address, of its index and of the entry. -/
theorem branchesTransfer : Obligations.BranchesTransfer := by
  intro s th h
  refine ⟨fun f t ht => ?br, fun f ht => ?brNone, fun f t hc ht => ?bcmp, fun f hc ht => ?bcmpNone, fun f hc => ?bcmpNot,
    fun f hx => ?bri, fun f hx => ?briBad, fun f hal => ?jtAlign, fun f n s1 u1 hal hn h1 => ⟨fun hi => ?jtBound,
      fun e s2 u2 hi he h2 => ⟨fun hx => ?jt, fun hx => ?jtBad⟩⟩⟩
  case br => exact asInstr_yields h (.branchBy h ht)
  case brNone => exact asInstr_faults h (.branchBy h ht)
  case bcmp => exact asInstr_yields h ((Yields.readX h _).bind ((Yields.readX h _).bind (.pos hc (.branchBy h ht))))
  case bcmpNone => exact asInstr_faults h (.bind (.readX h _) (.bind (.readX h _) (.pos hc (.branchBy h ht))))
  case bcmpNot =>
    exact asInstr_yields h ((Yields.readX h _).bind ((Yields.readX h _).bind (.neg (Bool.eq_false_iff.1 hc) (.pure _ _))))
  case bri => exact asInstr_yields h ((Yields.readX h _).bind (.branchIndirect h hx _))
  case briBad => exact asInstr_faults h (.bind (.readX h _) (.branchIndirect hx _))
  case jtAlign => exact asInstr_faults h (.bind (.readX h _) (.left (.require _ (beq_false_of_ne hal))))
  case jtBound =>
    refine asInstr_faults h (.bind (.readX h _) (.bind (.require _ (beq_iff_eq.2 hal)) (.bind hn (.bind (.readX h1 _) ?_))))
    exact .left (.require _ (decide_eq_false (Nat.not_lt.2 hi)))
  case jt =>
    refine asInstr_yields h ((Yields.readX h _).bind ((Yields.require _ (beq_iff_eq.2 hal)).bind (hn.bind ((Yields.readX h1 _).bind ?_))))
    exact (Yields.require _ (decide_eq_true hi)).bind (he.bind ((Yields.require _ hx).bind (.transferTo h2 _ _)))
  case jtBad =>
    refine asInstr_faults h (.bind (.readX h _) (.bind (.require _ (beq_iff_eq.2 hal)) (.bind hn (.bind (.readX h1 _) ?_))))
    exact .bind (.require _ (decide_eq_true hi)) (.bind he (.left (.require _ hx)))

section Returns
variable {s t : State} {th : Thread} {v : Word} (h : AtIssue s th)
include h

theorem Yields.returnAddress : Yields returnAddress s (pcNext th.ip) s := (Yields.me h).bind (.pure _ _)

/-! Push and Pop (R136), by where RSP stands in the eight words of the row and by whether SPILL has a line for them. -/

theorem Yields.pushReturn_row (hr : s.rsp th.row < 8) : Yields (pushReturn v) s ()
    ((s.pokeWord (th.row + 0x40 + 8 * s.rsp th.row) v).setReturns th.row (s.rsp th.row + 1) (s.spill th.row)) :=
  (Yields.myRow h).bind ((Yields.get s).bind ((Yields.require _ (decide_eq_true hr.le)).bind (.neg hr.ne (.modify _ _))))

theorem Yields.pushReturn_spill (hr : s.rsp th.row = 8) (h0 : s.spill th.row ≠ 0) (hline : s.spill th.row % 32 ≠ 31)
    (hst : Yields (Exec.store (.ofNat 64 (s.spill th.row * 64)) (s.mem.bytes (th.row + 0x40) 64)) s () t) :
    Yields (pushReturn v) s () ((t.pokeWord (th.row + 0x40) v).setReturns th.row 1 (s.spill th.row + 1)) := by
  refine (Yields.myRow h).bind ((Yields.get s).bind ((Yields.require _ (decide_eq_true hr.le)).bind (.pos hr ?_)))
  exact (Yields.require _ (by simp [h0, hline])).bind (hst.bind (.modify _ _))

theorem Stops.pushReturn (hr : 8 < s.rsp th.row ∨ (s.rsp th.row = 8 ∧ (s.spill th.row = 0 ∨ s.spill th.row % 32 = 31))) :
    Stops (pushReturn v) s (.fault .spillfault 0 []) := by
  refine .bind (.myRow h) (.bind (.get s) ?_)
  obtain hr | ⟨hr, hspill⟩ := hr
  · exact .left (.require _ (decide_eq_false (Nat.not_le.2 hr)))
  · refine .bind (.require _ (decide_eq_true hr.le)) (.pos hr (.left (.require _ ?_)))
    obtain hspill | hspill := hspill <;> simp [hspill]

theorem Yields.popReturn_row (h1 : 1 ≤ s.rsp th.row) (h8 : s.rsp th.row ≤ 8) :
    Yields popReturn s (s.word64 (th.row + 0x40 + 8 * (s.rsp th.row - 1))) (s.setReturns th.row (s.rsp th.row - 1) (s.spill th.row)) := by
  refine (Yields.myRow h).bind ((Yields.get s).bind ((Yields.require _ (decide_eq_true h8)).bind (.neg (by omega) ?_)))
  exact (Yields.modify _ _).bind (.pure _ _)

theorem Yields.popReturn_spill {line : List Byte} (hr : s.rsp th.row = 0) (h0 : s.spill th.row ≠ 0) (hline : s.spill th.row % 32 ≠ 0)
    (hld : Yields (Exec.load (.ofNat 64 ((s.spill th.row - 1) * 64)) 64) s line t) :
    Yields popReturn s (leWord (line.drop 56)) ((t.poke (th.row + 0x40) line).setReturns th.row 7 (s.spill th.row - 1)) := by
  refine (Yields.myRow h).bind ((Yields.get s).bind ((Yields.require _ (by simp [hr])).bind (.pos hr ?_)))
  exact (Yields.require _ (by simp [h0, hline])).bind (hld.bind ((Yields.modify _ _).bind (.pure _ _)))

theorem Stops.popReturn_empty (hr : s.rsp th.row = 0) (hspill : s.spill th.row = 0 ∨ s.spill th.row % 32 = 0) :
    Stops popReturn s (.fault .rsempty 0 []) := by
  refine .bind (.myRow h) (.bind (.get s) (.bind (.require _ (by simp [hr])) (.pos hr (.left (.require _ ?_)))))
  obtain hspill | hspill := hspill <;> simp [hspill]

theorem Stops.popReturn_over (hr : 8 < s.rsp th.row) : Stops popReturn s (.fault .spillfault 0 []) :=
  .bind (.myRow h) (.bind (.get s) (.left (.require _ (decide_eq_false (Nat.not_le.2 hr)))))

end Returns

/-- Settles O18: Push and Pop by RSP and SPILL, then CALL and CALLI as a push and a branch, and RET as a pop and a transfer. -/
theorem callsAndReturnsComplete : Obligations.CallsAndReturnsComplete := by
  refine ⟨fun s th v h => ⟨.pushReturn_row h, fun t => .pushReturn_spill h, .pushReturn h, .popReturn_row h,
      fun line t => .popReturn_spill h, .popReturn_empty h, .popReturn_over h⟩,
    fun s t th u h => ⟨fun f a hpush hu ha => ?call, fun f hpush hu ha => ?callNone, fun f hpush hu hx => ?calli,
      fun f hpush hx => ?calliBad, fun f v hpop hu hv => ?ret, fun f v hpop hv => ?retBad⟩⟩
  case call => exact asInstr_yields h ((Yields.returnAddress h).bind (hpush.bind (.branchBy hu ha)))
  case callNone => exact asInstr_faults h (.bind (.returnAddress h) (.bind hpush (.branchBy hu ha)))
  case calli =>
    exact asInstr_yields h ((Yields.readX h _).bind ((Yields.returnAddress h).bind (hpush.bind (.branchIndirect hu hx _))))
  case calliBad =>
    exact asInstr_faults h (.bind (.readX h _) (.bind (.returnAddress h) (.bind hpush (.branchIndirect hx _))))
  case ret => exact asInstr_yields h (hpop.bind ((Yields.require _ hv).bind ((Yields.me hu).bind (.pure _ _))))
  case retBad => exact asInstr_faults h (.bind hpop (.left (.require _ hv)))

/-- A change of the state unless a condition holds, followed by a part that runs in either state. -/
theorem yields_modifyUnless {α : Type} {s t : State} {a : α} {c : Prop} [Decidable c] {g : State → State} {k : PUnit → Exec α}
    (hk : Yields (k ⟨⟩) (if c then s else g s) a t) : Yields (if ¬ c then modify g >>= k else k ⟨⟩) s a t := by
  by_cases hc : c
  · rw [if_pos hc] at hk
    exact .neg (not_not_intro hc) hk
  · rw [if_neg hc] at hk
    exact .pos hc ((Yields.modify _ _).bind hk)

/-- What an instruction does depends on its body only where it runs. -/
theorem asInstr_congr {s : State} {m k : Exec Flow} (hrun : m.run s = k.run s) : asInstr m s = asInstr k s := by
  unfold asInstr
  rw [hrun]

section Loop
variable {s : State} {th : Thread} {f : FB} {ls le : Word}

/-- The loop's addresses are legal (R138), as LOOP tests it. -/
theorem loopLegal_iff : (pcWellFormed ls && pcWellFormed le && decide (pcIndex ls ≤ pcIndex le) && decide (pcIndex le - pcIndex ls ≤ 32767)) = true ↔
    pcWellFormed ls = true ∧ pcWellFormed le = true ∧ pcIndex ls ≤ pcIndex le ∧ pcIndex le - pcIndex ls ≤ 32767 := by
  simp [and_assoc]

/-- LOOP takes the loop's addresses from words 5 and 6 of the row or from its displacement (R138). -/
def LoopBounds (s : State) (th : Thread) (f : FB) (ls le : Word) : Prop :=
  f.md.toNat % 2 = 1 ∧ ls = s.ctrl th.row 5 ∧ le = s.ctrl th.row 6 ∨
    f.md.toNat % 2 = 0 ∧ ls = pcNext th.ip ∧ branchTarget th.ip f.disp.toInt = some le

/-- What LOOP does once its addresses are chosen (R138): their check, their store where they come from the displacement, and the loop word. -/
def loopFrom (f : FB) (th : Thread) (s : State) (ls le : Word) : Exec Flow := do
  Exec.require (pcWellFormed ls && pcWellFormed le && decide (pcIndex ls ≤ pcIndex le) &&
    decide (pcIndex le - pcIndex ls ≤ 32767)) .badtarget
  if ¬ f.md.toNat % 2 = 1 then modify fun s => (s.pokeWord (th.row + 0x28) ls).pokeWord (th.row + 0x30) le
  let w := s.ctrl th.row 4
  let lc := if f.a = .x 0 then field w 0 32 else (s.getX th.row (xnum f.a)).toNat % 2 ^ 32
  if lc = 0 then
    modify fun s => s.pokeWord (th.row + 0x20) (loopWord 0 false (field w 33 15) (field w 48 16))
    return .loopSet (pcAddress (pcIndex le + 1)) (some ⟨false, none, some th.ip⟩) true
  else
    modify fun s => s.pokeWord (th.row + 0x20) (loopWord lc true (pcIndex le - pcIndex ls) (pcIndex le - pcIndex ls))
    if ls = pcNext th.ip then return .loopSet ls none false
    else return .loopSet ls (some ⟨true, none, some th.ip⟩) true

variable (hb : LoopBounds s th f ls le)
include hb

theorem LoopBounds.target : ¬ (¬ f.md.toNat % 2 = 1 ∧ (branchTarget th.ip f.disp.toInt).isNone = true) := by
  obtain ⟨hm, -, -⟩ | ⟨-, -, ht⟩ := hb
  · exact fun hn => hn.1 hm
  · simp [ht]

theorem LoopBounds.start : (if f.md.toNat % 2 = 1 then s.ctrl th.row 5 else pcNext th.ip) = ls := by
  obtain ⟨hm, hls, -⟩ | ⟨hm, hls, -⟩ := hb <;> simp [hm, hls]

theorem LoopBounds.last : (if f.md.toNat % 2 = 1 then s.ctrl th.row 6 else (branchTarget th.ip f.disp.toInt).getD 0) = le := by
  obtain ⟨hm, -, hle⟩ | ⟨hm, -, ht⟩ := hb
  · simp [hm, hle]
  · simp [hm, ht]

theorem LoopBounds.exec_loop (h : AtIssue s th) : exec (.loop f) s = asInstr (loopFrom f th s ls le) s := by
  refine asInstr_congr ((Yields.me h).run_bind ((Yields.get s).run_bind (run_neg hb.target ?_)))
  dsimp only
  rw [hb.start, hb.last]
  rfl

end Loop

/-- Settles O19: LOOP by the legality of its addresses, and for a legal loop by its count and by where it starts. -/
theorem loopInstructionCompletes : Obligations.LoopInstructionCompletes := by
  intro s th f ls le h legal stored direct t w n len
  refine ⟨fun hill (hb : LoopBounds s th f ls le) => ?illegal, fun hm ht => ?noTarget, fun hlegal (hb : LoopBounds s th f ls le) =>
    ⟨fun hn => ?skip, fun hn hls => ?inSequence, fun hn hls => ?away⟩⟩
  case noTarget =>
    refine asInstr_faults h (.bind (.me h) (.bind (.get s) (.pos ?_ (.left (.fault _ _)))))
    exact ⟨by omega, by rw [ht]; rfl⟩
  case illegal => exact (hb.exec_loop h).trans (asInstr_faults h (.left (.require _ (Bool.eq_false_iff.2 (mt loopLegal_iff.1 hill)))))
  case skip =>
    refine (hb.exec_loop h).trans (asInstr_yields h ((Yields.require _ (loopLegal_iff.2 hlegal)).bind (yields_modifyUnless ?_)))
    exact .pos hn ((Yields.modify _ _).bind (.pure _ _))
  case inSequence =>
    refine (hb.exec_loop h).trans (asInstr_yields h ((Yields.require _ (loopLegal_iff.2 hlegal)).bind (yields_modifyUnless ?_)))
    exact .neg hn ((Yields.modify _ _).bind (.pos hls (.pure _ _)))
  case away =>
    refine (hb.exec_loop h).trans (asInstr_yields h ((Yields.require _ (loopLegal_iff.2 hlegal)).bind (yields_modifyUnless ?_)))
    exact .neg hn ((Yields.modify _ _).bind (.neg hls (.pure _ _)))

end Sys2Proof
end

section
/-!
PROOFS. The operand forms: a register, a queue port and the waits for it, and a vector operand (R152, R162, R177 to R179, R207, R335).
-/
namespace Sys2Proof
open Sys2Proof.Machine

section Operands
variable {s : State} {th : Thread}

/-- A part that changes no state for any element of a list gives the elements that it keeps. -/
theorem Yields.filterMapM {α β : Type} {f : α → Exec (Option β)} (g : α → Option β) {l : List α} (hf : ∀ a ∈ l, Yields (f a) s (g a) s) :
    Yields (l.filterMapM f) s (l.filterMap g) s := by
  induction l with
  | nil => exact .pure _ _
  | cons a l ih =>
    rw [List.filterMapM_cons]
    refine (hf a List.mem_cons_self).bind ?_
    have hl := ih fun b hb => hf b (List.mem_cons_of_mem a hb)
    rw [List.filterMap_cons]
    cases g a with
    | none => exact hl
    | some b => exact hl.bind (.pure _ _)

/-- With no queue port among its operands, an instruction waits for none. -/
theorem Yields.queuesReady_plain {srcs : List Specifier} {d : Specifier} (hsrcs : ∀ r ∈ srcs, r.isQ = false) (hd : d.isQ = false) :
    Yields (Exec.queuesReady srcs d) s () s := by
  refine Yields.bind (a := []) (t := s) ?_ (.bind (a := none) (t := s) ?_ (.bind (.pure _ _) (.pure _ _)))
  · have hnone : srcs.filterMap (fun _ => (none : Option (Nat × Queue))) = [] := by simp
    rw [← hnone]
    refine .filterMapM _ fun r hr => ?_
    cases r with
    | q n => cases hsrcs _ hr
    | _ => exact .pure _ _
  · cases d with
    | q n => cases hd
    | _ => exact .pure _ _

theorem Stops.port_disabled (h : AtIssue s th) {n : Nat} (hoff : s.qport th.row n / 2 ^ 15 = 0) : Stops (Exec.port n) s (.fault .operand 0 []) :=
  .bind (.get s) (.bind (.me h) (.pos (.inl hoff) (.fault _ _)))

/-- A source whose port is not enabled faults before any queue is waited for (R335). -/
theorem Stops.queuesReady_disabled (h : AtIssue s th) {n : Fin 4} (hoff : s.qport th.row n.val / 2 ^ 15 = 0) :
    Stops (Exec.queuesReady [.q n] (.x 0)) s (.fault .operand 0 []) := by
  refine .left ?_
  rw [List.filterMapM_cons]
  exact .left (.left (.port_disabled h hoff))

section Port
variable {n : Fin 4} {u : Queue}

/-- The port of a row is enabled and names a queue of the row's cluster and tenant (R335). -/
structure PortNames (s : State) (th : Thread) (n : Nat) (u : Queue) : Prop where
  enabled : s.qport th.row n / 2 ^ 15 = 1
  reserved : bitsAt (s.qport th.row n) 8 7 = 0
  found : s.queue? th.cluster (s.qport th.row n % 2 ^ 8) = some u
  tenant : u.tenant = s.tenantOf th.row

variable (h : AtIssue s th) (hn : PortNames s th n.val u)
include h hn

theorem Yields.port : Yields (Exec.port n.val) s u s := by
  have hready : ¬ (s.qport th.row n.val / 2 ^ 15 = 0 ∨ bitsAt (s.qport th.row n.val) 8 7 ≠ 0) := by
    rw [hn.enabled, hn.reserved]
    decide
  refine (Yields.get s).bind ((Yields.me h).bind (.neg hready ?_))
  rw [hn.found]
  exact .pos hn.tenant (.pure _ _)

theorem Yields.pop {v : Word} {rest : List Word} (hu : u.items = v :: rest) : Yields (Exec.pop n.val) s v (s.setQueue u rest) := by
  refine (Yields.port h hn).bind ?_
  rw [hu]
  exact (Yields.modify _ _).bind (.pure _ _)

theorem Yields.push (w : Word) : Yields (Exec.push n.val w) s () (s.setQueue u (u.items ++ [w])) :=
  (Yields.port h hn).bind (.modify _ _)

/-- One source that is a queue port waits for one element of its queue (R162). -/
theorem queuesReady_source_run : (Exec.queuesReady [.q n] (.x 0)).run s =
    (if u.items.length < 1 then Exec.stall 5 n.val (.queue u.cluster u.num 1 0) else Pure.pure ()).run s := by
  refine (Yields.filterMapM (fun _ => some (n.val, u)) fun r hr => ?_).run_bind ((Yields.pure none s).run_bind ?_)
  · obtain rfl := List.mem_singleton.1 hr
    exact (Yields.port h hn).bind (.pure _ _)
  · simp only [List.filterMap_cons, List.filterMap_nil, List.forIn_cons, List.forIn_nil, List.filter_cons, List.filter_nil, beq_self_eq_true,
      if_true, List.length_singleton]
    split <;> rfl

theorem Yields.queuesReady_source (hu : u.items ≠ []) : Yields (Exec.queuesReady [.q n] (.x 0)) s () s :=
  (queuesReady_source_run h hn).trans (Yields.neg (Nat.not_lt.2 (List.length_pos_iff.2 hu)) (.pure _ _))

theorem Stops.queuesReady_source (hu : u.items = []) :
    Stops (Exec.queuesReady [.q n] (.x 0)) s (.stall 5 n.val (.queue u.cluster u.num 1 0)) :=
  (queuesReady_source_run h hn).trans (Stops.pos (by simp [hu]) (.stall _ _ _))

theorem Yields.queuesReady_destination (hu : u.items.length < u.cap) : Yields (Exec.queuesReady [] (.q n)) s () s :=
  Yields.bind (.pure [] s) (.bind ((Yields.port h hn).bind (.pure _ _)) (.bind (.pure _ _) (.neg (Nat.not_le.2 hu) (.pure _ _))))

theorem Stops.queuesReady_destination (hu : u.cap ≤ u.items.length) :
    Stops (Exec.queuesReady [] (.q n)) s (.stall 5 (n.val + 4) (.queue u.cluster u.num 0 1)) :=
  .bind (Yields.pure [] s) (.bind ((Yields.port h hn).bind (.pure _ _)) (.bind (.pure _ _) (.pos hu (.stall _ _ _))))

end Port

section Vector
variable {n : Nat} (h : AtIssue s th)
include h

/-- A slot whose stream has ended reads as zero and stays (R179). -/
theorem Yields.slotRead_done (hd : s.slotDone th.row n = true) : Yields (Exec.slotRead n) s 0 s :=
  (Yields.myRow h).bind ((Yields.get s).bind (.pos hd (.pure _ _)))

/-- A slot whose stream has not ended is loaded at its next address and advances (R178, R179). -/
theorem Yields.slotRead_next {bs : List Byte} {t : State} (hd : s.slotDone th.row n = false)
    (hld : Yields (Exec.load (s.slotNext th.row n) 64) s bs t) : Yields (Exec.slotRead n) s (leLine bs) (t.slotAdvance th.row n) :=
  (Yields.myRow h).bind ((Yields.get s).bind (.neg (Bool.eq_false_iff.1 hd) (hld.bind ((Yields.modify _ _).bind (.pure _ _)))))

end Vector

end Operands

/-- Settles O28: a scalar operand by its form, a queue port by its word and its queue's elements, a vector operand by its form. -/
theorem operandForms : Obligations.OperandForms := by
  intro s th h
  refine ⟨fun n => ?source, fun n w => ?destination, fun n u hon hres hu ht => ?port, fun n hoff => ?disabled,
    fun srcs d hsrcs hd => ?plain, fun w => ⟨fun n => ?vector, fun n => ?broadcast, fun n hd => ?ended, fun n bs t hd hld => ?stream⟩⟩
  case source => exact .readX h n.val
  case destination => exact .writeX h n.val w
  case port =>
    have hn : PortNames s th n.val u := ⟨hon, hres, hu, ht⟩
    exact ⟨fun v rest => .pop h hn, .push h hn, .queuesReady_source h hn, .queuesReady_source h hn, .queuesReady_destination h hn,
      .queuesReady_destination h hn⟩
  case disabled => exact .queuesReady_disabled h hoff
  case plain => exact .queuesReady_plain hsrcs hd
  case vector => exact .readV h n.val
  case broadcast => exact (Yields.readX h n.val).bind (.pure _ _)
  case ended => exact .slotRead_done h hd
  case stream => exact .slotRead_next h hd hld

end Sys2Proof
end

section
/-!
PROOFS. Classes 0x2 and 0x3, integers: that the operations of two sources, of one source and of a source and an immediate complete with the value
that the model computes, and so the moves, compares, selects, bit fields, counts and address instructions (R147 to R163).
-/
namespace Sys2Proof
open Sys2Proof.Machine

section Forms
variable {mk : FA → Instr}

/-- An instruction that runs as an operation on two sources completes with that operation's result (R152). -/
theorem TwoSources.of_aluFA (op : FA → Nat → Nat → Nat → Int) (hexec : ∀ f s, exec (mk f) s = asInstr (aluFA f (op f)) s := by intros; rfl) :
    TwoSources mk op := by
  intro s s1 s2 s3 th f a b h hready ha hb hd
  exact (hexec f s).trans (asInstr_yields h (hready.bind (ha.bind (hb.bind (hd.bind (.pure _ _))))))

theorem TwoSources.of_eq {r r' : FA → Nat → Nat → Nat → Int} (h : TwoSources mk r) (hr : ∀ f w a b, r f w a b = r' f w a b) :
    TwoSources mk r' := by
  obtain rfl : r = r' := by
    funext f w a b
    exact hr f w a b
  exact h

/-- An instruction that runs as an operation on one source completes with that operation's result (R152). -/
theorem OneSource.of_aluUnary (op : Nat → Nat → Int) (hexec : ∀ f s, exec (mk f) s = asInstr (aluUnary f op) s := by intros; rfl) :
    OneSource mk op := by
  intro s s1 s2 th f a h hready ha hd
  exact (hexec f s).trans (asInstr_yields h (hready.bind (ha.bind (hd.bind (.pure _ _)))))

/-- An instruction that runs as an operation on a source and its immediate completes with that operation's result (R150, R152). -/
theorem SourceAndImmediate.of_aluFI {mk : FI → Instr} {operand : Nat → BitVec 48 → Nat} (op : Nat → Nat → Nat → Int)
    (hexec : ∀ f s, exec (mk f) s = asInstr (aluFI f (operand (intWidth f.ty) f.imm) op) s := by intros; rfl) :
    SourceAndImmediate mk operand op := by
  intro s s1 s2 th f a h hready ha hd
  exact (hexec f s).trans (asInstr_yields h (hready.bind (ha.bind (hd.bind (.pure _ _)))))

theorem SourceAndImmediate.of_eq {mk : FI → Instr} {operand : Nat → BitVec 48 → Nat} {r r' : Nat → Nat → Nat → Int}
    (h : SourceAndImmediate mk operand r) (hr : ∀ w a p, r w a p = r' w a p) : SourceAndImmediate mk operand r' := by
  obtain rfl : r = r' := by
    funext w a p
    exact hr w a p
  exact h

end Forms

section Operations
variable (n w a b : Nat)

/-! The operations whose definition in the model and whose rule take a different form. -/

theorem intAdds_eq : intAdds (n % 2 == 1) w a b = if n % 2 = 1 then satU w (a + b) else satS w (signed w a + signed w b) := by
  simp only [intAdds, signedView, beq_iff_eq]

theorem intSubs_eq : intSubs (n % 2 == 1) w a b = if n % 2 = 1 then satU w ((a : Int) - b) else satS w (signed w a - signed w b) := by
  simp only [intSubs, signedView, beq_iff_eq]

theorem intMuls_eq : intMuls (n % 2 == 1) w a b = if n % 2 = 1 then satU w (a * b : Nat) else satS w (signed w a * signed w b) := by
  simp only [intMuls, signedView, beq_iff_eq]

theorem intRemu_eq : intRemu w a b = ((if b = 0 then a else a % b : Nat) : Int) :=
  (apply_ite _ _ _ _).symm

/-- BEXT (R158) by the places of its position, its length and its sign bit. -/
theorem intBext_eq (p : Nat) : intBext w a p =
    let len : Nat := min (p / 2 ^ 8 % 2 ^ 7) 64
    let v : Nat := a / 2 ^ (p % 2 ^ 6) % 2 ^ len
    if p / 2 ^ 15 % 2 = 1 ∧ 1 ≤ len ∧ v / 2 ^ (len - 1) % 2 = 1 then (v : Int) - (2 ^ len : Nat) else v := by
  simp only [intBext, bitsAt, pow_zero, pow_one, Nat.div_one]

end Operations

/-- Settles O12: each instruction is the operation of two sources that the model names for it. -/
theorem twoSourceIntegersComplete : Obligations.TwoSourceIntegersComplete := by
  refine ⟨.of_aluFA fun _ => intAdd, .of_aluFA fun _ => intSub, .of_aluFA fun _ => intAnd, .of_aluFA fun _ => intOr,
    .of_aluFA fun _ => intXor, .of_aluFA fun _ => intAndn, .of_aluFA fun _ => intMin, .of_aluFA fun _ => intMax,
    .of_aluFA fun _ => intMinu, .of_aluFA fun _ => intMaxu, ?adds, ?subs, .of_aluFA fun _ => intMul, .of_aluFA fun _ => intMulh,
    .of_aluFA fun _ => intMulhu, ?muls, .of_aluFA fun _ => intDiv, .of_aluFA fun _ => intDivu, .of_aluFA fun _ => intRem, ?remu,
    .of_aluFA fun _ => intShl, .of_aluFA fun _ => intShr, .of_aluFA fun _ => intSra, .of_aluFA fun _ => intRol,
    .of_aluFA fun _ => intRor⟩
  case adds => exact (TwoSources.of_aluFA fun f => intAdds (f.md.toNat % 2 == 1)).of_eq fun _ => intAdds_eq _
  case subs => exact (TwoSources.of_aluFA fun f => intSubs (f.md.toNat % 2 == 1)).of_eq fun _ => intSubs_eq _
  case muls => exact (TwoSources.of_aluFA fun f => intMuls (f.md.toNat % 2 == 1)).of_eq fun _ => intMuls_eq _
  case remu => exact (TwoSources.of_aluFA fun _ => intRemu).of_eq fun _ => intRemu_eq

/-- Settles O13: each instruction is the operation of a source and an operand of its immediate, and MOV takes the immediate alone. -/
theorem immediateIntegersComplete : Obligations.ImmediateIntegersComplete := by
  refine ⟨⟨.of_aluFI intAdd, .of_aluFI intAnd, .of_aluFI intOr, .of_aluFI intXor, .of_aluFI intMin, .of_aluFI intMax, .of_aluFI intMinu,
    .of_aluFI intMaxu, .of_aluFI intMul, .of_aluFI intShl, .of_aluFI intShr, .of_aluFI intSra, .of_aluFI intRol, .of_aluFI intRor, ?bext⟩,
    fun s t th f h hready hd => ?mov⟩
  case bext => exact (SourceAndImmediate.of_aluFI intBext).of_eq intBext_eq
  case mov => exact asInstr_yields h (hready.bind (hd.bind (.pure _ _)))

/-- Settles O14: MOV and the counts are operations of one source, and the others write what they make of the operands that they read. -/
theorem otherScalarOperationsComplete : Obligations.OtherScalarOperationsComplete := by
  refine ⟨.of_aluUnary fun _ a => a, .of_aluUnary intPopc, .of_aluUnary intClz, .of_aluUnary intCtz,
    fun s s1 s2 t th f a b h hready ha hb hp => ?cmp, fun s s1 t th f a h hready ha hp => ?cmpImmediate,
    fun s s1 s2 t th f a b p h hready ha hb hp hd => ?sel, fun s s1 s2 t th f a b h hready ha hb hd => ?bext,
    fun s s1 s2 t th f a b d h hready ha hb hx hd => ?bins, fun s s1 t th f a d h hready ha hx hd => ?binsImmediate⟩
  case cmp => exact asInstr_yields h (hready.bind (ha.bind (hb.bind (hp.bind (.pure _ _)))))
  case cmpImmediate => exact asInstr_yields h (hready.bind (ha.bind (hp.bind (.pure _ _))))
  case sel => exact asInstr_yields h (hready.bind (ha.bind (hb.bind (hp.bind (hd.bind (.pure _ _))))))
  case bext => exact asInstr_yields h (hready.bind (ha.bind (hb.bind (hd.bind (.pure _ _)))))
  case bins => exact asInstr_yields h (hready.bind (ha.bind (hb.bind (hx.bind (hd.bind (.pure _ _))))))
  case binsImmediate => exact asInstr_yields h (hready.bind (ha.bind (hx.bind (hd.bind (.pure _ _)))))

section Address
variable {s : State} {th : Thread}

theorem lea_completes (h : AtIssue s th) (f : FA) : Completes (.lea f) s th (s.setX th.row (xnum f.d) (s.getX th.row (xnum f.a) +
    s.getX th.row (xnum f.b) <<< (f.md.toNat % 8) + s.getX th.row (xnum f.c))) .next :=
  asInstr_yields h ((Yields.readX h _).bind ((Yields.readX h _).bind ((Yields.readX h _).bind (.writeNext h _ _))))

/-- The address of format FM (R50) is LEA's sum (R160) where its registers, its scale and its displacement are LEA's. -/
theorem ea_eq_leaSum {f : FA} {g : FM} (hbase : xnum g.base = xnum f.a) (hidx : xnum g.idx = xnum f.b) (hsc : g.sc.toNat = f.md.toNat % 8)
    (hdisp : g.disp.signExtend 64 = s.getX th.row (xnum f.c)) :
    s.ea th.row g = s.getX th.row (xnum f.a) + s.getX th.row (xnum f.b) <<< (f.md.toNat % 8) + s.getX th.row (xnum f.c) := by
  rw [State.ea, hbase, hidx, hsc, hdisp]

end Address

/-- Settles O15: each reads its registers and writes d, LEA's sum is the address of format FM, and ROWA's N, base and size are rowaKind's. -/
theorem addressInstructionsComplete : Obligations.AddressInstructionsComplete := by
  intro s th h
  refine ⟨fun f => ?movhi, lea_completes h, fun f g hbase hidx hsc hdisp => ?address, fun f => ?rowa⟩
  case movhi => exact asInstr_yields h ((Yields.readX h _).bind (.writeNext h _ _))
  case address =>
    rw [ea_eq_leaSum hbase hidx hsc hdisp]
    exact lea_completes h f
  case rowa => exact asInstr_yields h ((Yields.readX h _).bind ((Yields.readX h _).bind (.writeNext h _ _)))

end Sys2Proof
end

section
/-!
PROOFS. Class 0x4, accesses to memory: that loads, stores and the instructions on stream slots complete, and that PREF does (R174, R175, R180, R193).
-/
namespace Sys2Proof
open Sys2Proof.Machine

section Loads
variable {s t : State} {th : Thread} {f : FM} {bs : List Byte}

/-- A load's body: the bytes at its address are read, and then it ends. -/
theorem load_completes {k : List Byte → Exec Flow} {t' : State} (h : AtIssue s th)
    (hld : Yields (Exec.load (s.ea th.row f) (sizeBytes f.sz) (f.od == 1)) s bs t) (hk : Yields (k bs) t .next t') :
    asInstr (do let a ← Exec.ea f; let bs ← Exec.load a (sizeBytes f.sz) (f.od == 1); k bs) s = .next (completed t' th .next) :=
  asInstr_yields h ((Yields.ea h f).bind (hld.bind hk))

theorem Yields.writeNextV (h : AtIssue s th) (n : Nat) (v : Line) :
    Yields (do Exec.writeV n v; return Flow.next) s .next (s.setV th.row n v) :=
  (Yields.writeV h n v).bind (.pure _ _)

end Loads

/-- Settles O23: a load ends with the write of its register, and a store with the store of its register's bytes. -/
theorem loadsAndStoresComplete : Obligations.LoadsAndStoresComplete := by
  intro s t th u f bs h hu
  refine ⟨fun hld => ⟨?ld, ?lds, ?ldv⟩, fun hst => ?st, fun hst => ?stv⟩
  case ld => exact load_completes h hld (.writeNext hu _ _)
  case lds => exact load_completes h hld (.writeNext hu _ _)
  case ldv => exact load_completes h hld (.writeNextV hu _ _)
  case st => exact asInstr_yields h ((Yields.readX h _).bind ((Yields.ea h f).bind (hst.bind (.pure _ _))))
  case stv => exact asInstr_yields h ((Yields.readV h _).bind ((Yields.ea h f).bind (hst.bind (.pure _ _))))

section Slots
variable {s : State} {th : Thread} {f : FM}

/-- The number of positions of a slot's stream (R180). -/
def slotTotal (s : State) (row n : Nat) : Nat := (List.range (s.slotDims row n)).foldl (fun m k => m * s.slotExtent row n k) 1

/-- The counters that SPOS leaves: the digits of the position, or zeros past the end of the stream (R180). -/
def slotDigits (s : State) (row n p : Nat) (inside : Bool) : List Nat :=
  let d := s.slotDims row n
  (if inside then mixedDigits (s.slotExtent row n) d 0 (p % slotTotal s row n) else List.replicate d 0) ++ List.replicate (5 - d) 0

/-- SPOS, by whether its position lies inside the stream (R180). -/
theorem spos_completes (h : AtIssue s th) (inside : Bool)
    (hi : inside = true ↔ (s.getX th.row (xnum f.t)).toNat < slotTotal s th.row (slotNum f) ∨ s.slotWrap th.row (slotNum f) = true) :
    let p := s.getX th.row (xnum f.t)
    Completes (.spos f) s th (((s.setCounts th.row (slotNum f) (slotDigits s th.row (slotNum f) p.toNat inside)).setDone th.row (slotNum f)
      (! inside)).setPos th.row (slotNum f) p) .next := by
  obtain rfl : inside = (decide ((s.getX th.row (xnum f.t)).toNat < slotTotal s th.row (slotNum f)) || s.slotWrap th.row (slotNum f)) := by
    rw [Bool.eq_iff_iff, hi, Bool.or_eq_true_iff, decide_eq_true_iff]
  exact asInstr_yields h ((Yields.myRow h).bind ((Yields.readX h _).bind ((Yields.get s).bind ((Yields.set _ _).bind (.pure _ _)))))

end Slots

/-- Settles O25: SSET by the alignment of its descriptor, SRST and SPOS by the slot's parts that they write, and PREF by its check. -/
theorem slotInstructionsComplete : Obligations.SlotInstructionsComplete := by
  intro s th f h n slot
  refine ⟨fun d t u ha hld hu => ?sset, fun ha => ?ssetAlign, ?srst, ⟨fun hp => ?spos, fun hp hw => ?sposEnd⟩, ?pref⟩
  case sset =>
    refine asInstr_yields h ((Yields.ea h f).bind ((Yields.require _ (beq_iff_eq.2 ha)).bind (hld.bind ?_)))
    exact (Yields.myRow hu).bind ((Yields.modify _ _).bind (.pure _ _))
  case ssetAlign => exact asInstr_faults h (.bind (.ea h f) (.left (.require _ (beq_false_of_ne ha))))
  case srst => exact asInstr_yields h ((Yields.myRow h).bind ((Yields.modify _ _).bind (.pure _ _)))
  case spos => exact spos_completes h true (iff_of_true rfl hp)
  case sposEnd => exact spos_completes h false (iff_of_false nofun fun e => e.elim (Nat.not_lt.2 hp) (Bool.eq_false_iff.1 hw))
  case pref => exact asInstr_yields h ((Yields.ea h f).bind ((Yields.me h).bind ((Yields.modify _ _).bind (.pure _ _))))

end Sys2Proof
end

section
/-!
PROOFS. GET, PUT, CCRD and FSHIP: that the one-sided operations are submitted, that a counter is read, and that a shipped routine runs on its
line (R184, R188, R192, R355).
-/
namespace Sys2Proof
open Sys2Proof.Machine

section OneSided
variable {s s1 s2 : State} {th th1 th2 : Thread} {f : FA} {hd : List Byte} {counter : Nat}

/-- The operation that GET or PUT submits, from its registers, the head of its list and its counter (R184). -/
def submittedOp (f : FA) (kind : OneSidedKind) (s s2 : State) (th th2 : Thread) (hd : List Byte) (counter : Nat) : OneSided :=
  { id := s2.nextId, kind := kind, thread := th2.id, asid := s2.asidOf th2.row, tenant := s2.tenantOf th2.row
    privl := s2.privOf th2.row, unit := th2.ownerUnit, dst := s.getX th.row (xnum f.d), src := s.getX th.row (xnum f.a)
    idx := if bitsAt f.md.toNat 2 1 = 1 then none else some (s.getX th.row (xnum f.b))
    es := elemSize f.md, n := leNat (hd.take 4), counter := counter, taken := [], failed := [], wrote := [], probes := [], idxs := []
    region := [] }

theorem Yields.oneSidedRoom (h : AtIssue s th) (hroom : (s.oneSided.filter (·.thread == th.id)).length < 16) :
    Yields oneSidedRoom s () s :=
  (Yields.get s).bind ((Yields.me h).bind (.neg (Nat.not_le.2 hroom) (.pure _ _)))

/-- GET or PUT passes its checks, reads the head of its list, finds its counter, and submits its operation (R184). -/
theorem Yields.submitElements (h : AtIssue s th) (h2 : AtIssue s2 th2) (hsb : th.sb = [])
    (hd0 : (s.getX th.row (xnum f.d)).toNat % elemSize f.md = 0) (ha : (s.getX th.row (xnum f.a)).toNat % elemSize f.md = 0)
    (hb : (s.getX th.row (xnum f.b)).toNat % 8 = 0) (hc : (s.getX th.row (xnum f.c)).toNat % 16 = 0)
    (hroom : (s.oneSided.filter (·.thread == th.id)).length < 16) (hhd : Yields (Exec.load (s.getX th.row (xnum f.b)) 8) s hd s1)
    (hcounter : Yields (Exec.counterAddr (s.getX th.row (xnum f.c))) s1 counter s2) (kind : OneSidedKind) :
    let o := submittedOp f kind s s2 th th2 hd counter
    Yields (submitElements f kind) s .next
      ({ s2 with oneSided := s2.oneSided ++ [o], nextId := s2.nextId + 1 }.dropNoMapping (o.owner s2)) := by
  refine (Yields.sbEmpty h hsb).bind ((Yields.readX h _).bind ((Yields.readX h _).bind ((Yields.readX h _).bind ((Yields.readX h _).bind ?_))))
  refine (Yields.require _ (beq_iff_eq.2 hd0)).bind ((Yields.require _ (beq_iff_eq.2 ha)).bind ?_)
  refine (Yields.require _ (beq_iff_eq.2 hb)).bind ((Yields.require _ (beq_iff_eq.2 hc)).bind ((Yields.oneSidedRoom h hroom).bind ?_))
  exact hhd.bind (hcounter.bind ((Yields.get s2).bind ((Yields.me h2).bind ((Yields.set _ _).bind (.pure _ _)))))

end OneSided

section Runs
variable {α β : Type} {s t : State} {th : Thread}

/-- An instruction comes to what its body comes to. -/
theorem asInstr_run {body : Exec Flow} {r : Except Stop (Flow × State)} (h : AtIssue s th) (hb : body.run s = r) :
    asInstr body s = .next (runIssue s th r) := by
  cases r with
  | ok p => exact asInstr_yields h hb
  | error e => exact asInstr_stops h hb

/-- Two parts that run alike go on alike. -/
theorem run_bind_congr {m m' : Exec α} {k : α → Exec β} (hm : m.run s = m'.run t) : (m >>= k).run s = (m' >>= k).run t := by
  rw [StateT.run_bind, StateT.run_bind, hm]

/-- An access to memory by its row, its own or one that can be served, leaves this state (R72, R259). -/
def Served (s t : State) (th : Thread) (a : Word) (dp : Nat) (own write : Bool) : Prop :=
  (own = true → t = s) ∧
    (own = false → Exec.openOther s th dp = false ∧ ∃ s', Yields (Exec.checkHold dp a) s () s ∧ Yields (Exec.reachRow dp write) s () s' ∧
      t = (s'.noteBankWindow th a.toNat dp).countWindow (s'.tenantOf th.row) dp write)

end Runs

section Count
variable {s s1 s2 : State} {th th1 : Thread} {dp n : Nat} {f : FA}

theorem Yields.countHere (h : AtIssue s th) (hp : s.poisoned dp 8 = false) (hn : n ≤ field (s.word64 dp) 0 63) (a : Word) :
    Yields (countHere dp n a) s (s.word64 dp) (s.importCounted th.id dp) :=
  (Yields.get s).bind ((Yields.me h).bind (.neg (by simp [hp]) (.neg (Nat.not_lt.2 hn) ((Yields.modify _ _).bind (.pure _ _)))))

theorem Stops.countHere (h : AtIssue s th) (hp : s.poisoned dp 8 = false) (hn : field (s.word64 dp) 0 63 < n) (a : Word) :
    Stops (countHere dp n a) s (.stall 6 0 (.counter dp n)) :=
  .bind (.get s) (.bind (.me h) (.neg (by simp [hp]) (.pos hn (.left (.stall _ _ _)))))

variable {own : Bool} (h : AtIssue s th) (h1 : AtIssue s1 th1) (ha : (s.getX th.row (xnum f.a)).toNat % 16 = 0)
  (hplain : Yields (Exec.plainAddr (s.getX th.row (xnum f.a)) .read 0) s (dp, own) s1)
include h h1 ha hplain

/-- CCRD writes the answer that an outside queue has given (log entry 97). -/
theorem ccrd_answered {k : Nat} {bs : List Byte} (hans : Yields (Exec.answered dp) s1 (some (.data k bs)) s1) :
    Completes (.ccrd f) s th (s1.setX th1.row (xnum f.d) (leWord bs)) .next := by
  refine asInstr_yields h ((Yields.readX h _).bind ((Yields.readX h _).bind ((Yields.require _ (beq_iff_eq.2 ha)).bind (hplain.bind ?_))))
  exact (Yields.get s1).bind ((Yields.me h1).bind (.bind (a := leWord bs) (hans.bind (.pure _ _)) (.writeNext h1 _ _)))

/-- CCRD on a counter that can be served is the move of its count there (R188). -/
theorem ccrd_served (hans : Yields (Exec.answered dp) s1 none s1) (hserved : Served s1 s2 th1 (s.getX th.row (xnum f.a)) dp own false)
    {r : Except Stop (Flow × State)}
    (hr : (do
      let w ← countHere dp ((s.getX th.row (xnum f.b)).toNat % 2 ^ 63) (s.getX th.row (xnum f.a))
      Exec.writeX (xnum f.d) w
      return Flow.next : Exec Flow).run s2 = r) :
    exec (.ccrd f) s = .next (runIssue s th r) := by
  refine asInstr_run h ((Yields.readX h _).run_bind ((Yields.readX h _).run_bind ((Yields.require _ (beq_iff_eq.2 ha)).run_bind ?_)))
  refine hplain.run_bind ((Yields.get s1).run_bind ((Yields.me h1).run_bind (Eq.trans (run_bind_congr ?_) hr)))
  refine hans.run_bind ?_
  obtain ⟨hown, hother⟩ := hserved
  cases own with
  | true =>
    obtain rfl := hown rfl
    exact run_pos rfl rfl
  | false =>
    obtain ⟨ho, s', hhold, hreach, rfl⟩ := hother rfl
    refine run_neg Bool.false_ne_true (hhold.run_bind (run_neg (by simp [ho]) ?_))
    exact hreach.run_bind ((Yields.modify _ _).run_bind rfl)

end Count

/-- Settles O26: GET and PUT are one submission, and CCRD takes an answer or makes the move of its count. -/
theorem oneSidedAndCounterInstructionsComplete : Obligations.OneSidedAndCounterInstructionsComplete := by
  refine ⟨fun s s1 s2 th th1 th2 f hd counter h _ h2 => ?submit, fun s s1 s2 th th1 u f dp own h h1 => ?count⟩
  case submit =>
    intro es d a b c op submitted hsb hd0 ha hb hc hroom hhd hcounter
    have hsub := Yields.submitElements h h2 hsb hd0 ha hb hc hroom hhd hcounter
    exact ⟨asInstr_yields h (hsub .get), asInstr_yields h (hsub .put)⟩
  case count =>
    intro a n ha hplain
    refine ⟨fun k bs => ccrd_answered h h1 ha hplain, fun hans hown hother hp hu => ⟨fun v hn hv => ?reached, fun hn => ?below⟩⟩
    case reached =>
      exact ccrd_served h h1 ha hplain hans ⟨hown, hother⟩ ((Yields.countHere hu hp hn a).bind (.writeNext hv _ _))
    case below => exact ccrd_served h h1 ha hplain hans ⟨hown, hother⟩ (Stops.left (Stops.countHere hu hp hn a))

section Ship

/-- What a shipped routine's run leaves of its line (R192): the line that it has written, or none. -/
def shipLanded (s : State) (id l : Nat) : Option Line → State
  | some v => ((s.landStore (some id) l (lineToBytes v) .plain).viewNewest id l).noteWrote id l
  | none => s.viewNewest id l

/-- The move of an FSHIP on a line with no uncorrectable error (R192). -/
theorem doShip_eq {s : State} {id a bound : Nat} {b c x : Word} {body : List Line} {line : Option Line} (hp : s.poisoned (lineOf a) 64 = false)
    (hrun : shipped ⟨1, bound, body⟩ (leLine (s.newest (lineOf a) 64)) (.ofNat 64 (a % 64)) b c = (line, x)) :
    s.doShip id a b c bound body = some (shipLanded s id (lineOf a) line, x) := by
  unfold State.doShip
  dsimp only
  rw [if_neg (by simp [hp]), hrun]
  cases line <;> rfl

variable {s s1 s2 : State} {th th1 : Thread} {f : FA} {dp : Nat} {own : Bool} (h : AtIssue s th) (h1 : AtIssue s1 th1)
  (ha : (s.getX th.row (xnum f.a)).toNat % 8 = 0) (hsb : th.sb = [])
  (hplain : Yields (Exec.plainAddr (s.getX th.row (xnum f.a)) .rmw 2) s (dp, own) s1) (hreg : s1.region dp = .dram)
include h h1 ha hsb hplain hreg

/-- FSHIP writes the answer that an outside queue has given (R192). -/
theorem fship_answered {k : Nat} {bs : List Byte} (hans : Yields (Exec.answered dp) s1 (some (.data k bs)) s1) :
    Completes (.fship f) s th (s1.setX th1.row (xnum f.d) (leWord bs)) .next := by
  refine asInstr_yields h ((Yields.readX h _).bind ((Yields.readX h _).bind ((Yields.readX h _).bind ?_)))
  refine (Yields.require _ (beq_iff_eq.2 ha)).bind ((Yields.sbEmpty h hsb).bind (hplain.bind ((Yields.get s1).bind ((Yields.me h1).bind ?_))))
  exact (Yields.require _ (by simp [hreg])).bind (.bind (a := leWord bs) (hans.bind (.pure _ _)) (.writeNext h1 _ _))

/-- FSHIP on a line that can be served is its routine's run there, and the write of its result. -/
theorem fship_served {r : Routine} {t : State} {u : Thread} {x : Word} (hans : Yields (Exec.answered dp) s1 none s1)
    (hroutine : ((s1.tenant? (s1.tenantOf th1.row)).bind fun t => assoc t.routines f.md.toNat) = some r) (hr : r.status = 1)
    (hserved : Served s1 s2 th1 (s.getX th.row (xnum f.a)) dp own true)
    (hship : s2.doShip th1.id dp (s.getX th.row (xnum f.b)) (s.getX th.row (xnum f.c)) r.bound r.bodyLines = some (t, x)) (hu : AtIssue t u) :
    Completes (.fship f) s th (t.setX u.row (xnum f.d) x) .next := by
  refine asInstr_yields h ((Yields.readX h _).bind ((Yields.readX h _).bind ((Yields.readX h _).bind ?_)))
  refine (Yields.require _ (beq_iff_eq.2 ha)).bind ((Yields.sbEmpty h hsb).bind (hplain.bind ((Yields.get s1).bind ((Yields.me h1).bind ?_))))
  refine (Yields.require _ (by simp [hreg])).bind (.bind (a := x) (t := t) (hans.bind ?_) (.writeNext hu _ _))
  rw [hroutine]
  refine (Yields.require _ (beq_iff_eq.2 hr)).bind ?_
  obtain ⟨hown, hother⟩ := hserved
  cases own with
  | true =>
    obtain rfl := hown rfl
    refine .neg Bool.false_ne_true (.neg Bool.false_ne_true (.neg Bool.false_ne_true ((Yields.get s2).bind ?_)))
    dsimp only [Option.getD_some]
    rw [hship]
    exact (Yields.set _ _).bind (.pure _ _)
  | false =>
    obtain ⟨ho, s', hhold, hreach, rfl⟩ := hother rfl
    refine .pos rfl (hhold.bind (.neg (by simp [ho]) (.pos rfl (hreach.bind ((Yields.modify _ _).bind ((Yields.get _).bind ?_))))))
    dsimp only [Option.getD_some]
    rw [hship]
    exact (Yields.set _ _).bind (.pure _ _)

end Ship

/-- Settles O33: FSHIP takes an answer, or runs its routine on the line and lands what the run has left. -/
theorem shippedRoutineCompletes : Obligations.ShippedRoutineCompletes := by
  intro s s1 s2 th th1 u f dp own r line x h h1 a l ha hsb hplain hreg
  refine ⟨fun k bs => fship_answered h h1 ha hsb hplain hreg, fun hans hroutine hr hown hother hp hrun => ?_⟩
  intro t hu
  obtain ⟨status, bound, body⟩ := r
  obtain rfl : status = 1 := hr
  have hland : shipLanded s2 th1.id l line = t := by cases line <;> rfl
  exact fship_served h h1 ha hsb hplain hreg hans hroutine rfl ⟨hown, hother⟩
    ((doShip_eq hp hrun).trans (congrArg (fun v => some (v, x)) hland)) hu

end Sys2Proof
end

section
/-!
PROOFS. The fabric's events: flits and the states of ports, requests of other modules, and the answers to this module's own (R187, R375 to R379).
-/
namespace Sys2Proof
open Sys2Proof.Machine

namespace Machine.State
variable {s : State}

section Flits
variable {n : Nat} {p : Port} {bs : List Byte} (hp : s.ports[n]? = some p) (hup : p.st ≠ .down)
include hp hup

theorem receiveFlit_crcFailed (hcrc : flitCrcHolds bs = false) : s.receiveFlit n bs = s.onPort n Port.crcFailed := by
  simp only [receiveFlit, hp]
  rw [if_neg hup, if_pos (by simp [hcrc])]

variable (hcrc : flitCrcHolds bs = true) (hnak : (flitOf bs).nak = false)
include hcrc hnak

/-- A flit that carries no message is its ACK (R376). -/
theorem receiveFlit_ack (h1 : (flitOf bs).typ ≠ 1) (h2 : (flitOf bs).typ ≠ 2) :
    s.receiveFlit n bs = s.onPort n fun p => p.takeAck (flitOf bs).ack s.now := by
  simp only [receiveFlit, hp]
  rw [if_neg hup, if_neg (by simp [hcrc]), if_pos ⟨h1, h2⟩, if_neg (by simp [hnak])]

/-- A message flit with the expected SEQ is accepted (R376). -/
theorem receiveFlit_accepted (htyp : (flitOf bs).typ = 1 ∨ (flitOf bs).typ = 2) (hseq : ((flitOf bs).seq.toNat + 4096 - p.expect) % 4096 = 0) :
    s.receiveFlit n bs = ((s.onPort n fun p => p.takeAck (flitOf bs).ack s.now).updPort n fun p =>
      ({ p with expect := nextSeq p.expect } : Port).answer false).acceptFlit n (flitOf bs) := by
  simp only [receiveFlit, hp]
  rw [if_neg hup, if_neg (by simp [hcrc]), if_neg (fun e => htyp.elim e.1 e.2), if_pos hseq, if_neg (by simp [hnak])]

end Flits

section Inbound
variable {m : Inbound} {bits : List Nat} {asid n : Nat} {k : AccKind} {write : Bool} {also : List Nat} {ps : List (Nat × Nat)} {w t : State}

theorem serveInbound_refused (ha : s.admits m bits = .refused) (n : Nat) (k : AccKind) (write : Bool) (also : List Nat)
    (f : State → List (Nat × Nat) → State) :
    s.serveInbound m bits n k write also f = s.refuseInbound m (m.va ||| .ofNat 64 (2 ^ 63)) := by
  simp only [serveInbound, ha]

/-- The rows of a request and those of the tables that translate it have been reached, and it waits for none of them (R76, R259, R378). -/
structure InboundReaches (s w t : State) (m : Inbound) (asid n : Nat) (k : AccKind) (write : Bool) (also : List Nat) (ps : List (Nat × Nat)) :
    Prop where
  tables : s.reachAll (inboundParty m) false (((lineParts m.va.toNat n).flatMap fun p => s.tableReads m.dtenant.toNat asid p.1) ++ also) = .ok w
  parts : w.inboundParts m asid n k = .ok ps
  ready : w.inboundWaits ps = false
  rows : w.partsReach (inboundParty m) write ps = .ok t

/-- The state in which a request that has reached its rows is served: counted in its windows, its turn at the open rows taken. -/
def inboundServed (t : State) (m : Inbound) (write : Bool) (ps : List (Nat × Nat)) : State :=
  (ps.foldl (fun s p => s.countWindow m.dtenant.toNat p.1 write) t).inboundTaken ps

theorem serveInbound_served (hr : InboundReaches s w t m asid n k write also ps) (ha : s.admits m bits = .admitted asid)
    (f : State → List (Nat × Nat) → State) :
    s.serveInbound m bits n k write also f = f (t.inboundServed m write ps) ps := by
  simp only [serveInbound, ha, hr.tables, hr.parts, hr.rows]
  exact if_neg (by simp [hr.ready])

theorem inboundGet_poisoned (hr : InboundReaches s w t m asid m.n .read false [] ps) (ha : s.admits m [35] = .admitted asid)
    (hp : (ps.any fun p => (t.inboundServed m false ps).poisoned p.1 p.2) = true) :
    s.inboundGet m = (t.inboundServed m false ps).respondError m 0x15 :=
  (serveInbound_served hr ha _).trans (if_pos hp)

theorem inboundGet_served (hr : InboundReaches s w t m asid m.n .read false [] ps) (ha : s.admits m [35] = .admitted asid)
    (hp : (ps.any fun p => (t.inboundServed m false ps).poisoned p.1 p.2) = false) :
    s.inboundGet m = (t.inboundServed m false ps).respond m 2 ((t.inboundServed m false ps).partsBytes ps) :=
  (serveInbound_served hr ha _).trans (if_neg (by simp [hp]))

section Put
variable (hr : InboundReaches s w t m asid m.bytes.length .write true (s.slotReads m.dtenant.toNat) ps)
include hr

/-- A PUT that reaches the launch queue of its tenant. -/
theorem inboundPut_refused (ha : s.admits m [36] = .admitted asid) (hq : ∃ p ∈ ps, lineOf p.1 ∈ (t.inboundServed m true ps).launchSlots m)
    (hl : (t.inboundServed m true ps).admits m [34, 36] = .refused) :
    s.inboundPut m = (t.inboundServed m true ps).refuseInbound m (m.va ||| .ofNat 64 (2 ^ 63)) := by
  refine (serveInbound_served hr ha _).trans (if_pos ?_)
  simpa [hl] using hq

/-- A PUT outside the launch queue, or one that may launch there too. -/
theorem inboundPut_served (ha : s.admits m [36] = .admitted asid)
    (hq : (¬ ∃ p ∈ ps, lineOf p.1 ∈ (t.inboundServed m true ps).launchSlots m) ∨ (t.inboundServed m true ps).admits m [34, 36] ≠ .refused) :
    s.inboundPut m = ((t.inboundServed m true ps).partsWrite (inboundMark m) ps m.bytes).respond m 4 [] := by
  refine (serveInbound_served hr ha _).trans (if_neg ?_)
  obtain hq | hq := hq
  · have hnone : (ps.any fun p => ((t.inboundServed m true ps).launchSlots m).any fun a => decide (lineOf p.1 = a)) = false := by simpa using hq
    simp [hnone]
  · simp [hq]

theorem inboundLaunch_served {a : Nat} (ha : s.admits m [34, 36] = .admitted asid) (hps : ps = [(a, 64)])
    (hq : a ∈ (t.inboundServed m true ps).launchSlots m) :
    s.inboundLaunch m = ((t.inboundServed m true ps).partsWrite (inboundMark m) ps m.bytes).respond m 4 [] := by
  subst hps
  refine (serveInbound_served hr ha _).trans (if_pos ?_)
  simpa using hq

end Put

theorem inboundAtomic_served {dp old : Nat} {v : State} (hr : InboundReaches s w t m asid m.n .rmw true [] [(dp, m.n)])
    (ha : s.admits m [35, 36] = .admitted asid)
    (hv : (t.inboundServed m true [(dp, m.n)]).doAtomic none m.op dp m.n m.v.toNat m.w.toNat (inboundMark m) = some (v, old)) :
    s.inboundAtomic m = v.respond m 9 (leBytes m.n old) := by
  refine (serveInbound_served hr ha _).trans ?_
  dsimp only
  rw [hv]

section Sync
variable {key : Nat × Nat} {x : SyncObj} (ha : s.admits m [37] = .admitted asid)
  (hx : (s.syncs.find? fun o => o.1 == (m.dtenant.toNat, m.object)) = some (key, x)) (hscope : x.scope = 4)
include ha hx hscope

theorem inboundSync_acquire (hacq : m.acquire = true) (hw : m.w.toNat ≤ x.seq.toNat) : s.inboundSync m = s.respond m 6 (wordBytes x.seq) := by
  simp only [inboundSync, ha, hx]
  rw [if_neg (not_not_intro hscope), if_pos hacq, if_pos hw]

theorem inboundSync_release (hrel : m.acquire = false) :
    let y := { x with seq := x.seq + 1, pub := x.bnd.map fun l => (l, s.verOf l) }
    s.inboundSync m = ({ s with syncs := s.syncs.map fun (o : (Nat × Nat) × SyncObj) =>
      if o.1 = (m.dtenant.toNat, m.object) then ((m.dtenant.toNat, m.object), y) else o } : State).respond m 6 (wordBytes y.seq) := by
  simp only [inboundSync, ha, hx]
  rw [if_neg (not_not_intro hscope), if_neg (by simp [hrel])]

end Sync

end Inbound

section Answers
variable {tag : Nat} {r : Remote} (hr : s.remote? tag = some r)
include hr

theorem getData_load {id : Asker} {n : Nat} {bs : List Byte} (hk : r.kind = .load id n) (hn : bs.length = n) :
    s.getData tag bs = (s.dropRemote tag).answer id (sizedKey (remoteKey r.va) n) (.data (sizedKey (remoteKey r.va) n) bs) := by
  simp only [getData, hr, hk]
  exact if_pos hn

theorem getData_index {op i : Nat} {bs : List Byte} {o : OneSided} (hk : r.kind = .index op i) (hn : bs.length = 4)
    (ho : (s.dropRemote tag).oneSided.find? (·.id == op) = some o) :
    s.getData tag bs = (s.dropRemote tag).setOneSided { o with idxs := (i, leNat bs) :: o.idxs } := by
  simp only [getData, hr, hk, indexCame, ho]
  exact if_pos hn

theorem putAck_store {id : Nat} (hk : r.kind = .store id) :
    s.putAck tag = ((s.dropRemote tag).updThread id fun t => { t with sb := t.sb.drop 1 }).progressClose id false := by
  simp only [putAck, hr, hk]

theorem atomicReply_atomic {id : Asker} {op : AtomOp} {n : Nat} {v x w : Word} (hk : r.kind = .atomic id op n v x) :
    s.atomicReply tag w = (s.dropRemote tag).answer id (remoteKey r.va) (.data (remoteKey r.va) (leBytes n w.toNat)) := by
  simp only [atomicReply, hr, hk]

/-- The cause with which an access of a thread faults on an error of another module (R379). -/
def fabricCause (code : Nat) : Cause := if code = 0x1A then .remotepage else .datapoison

theorem fabricError_load {id : Asker} {n : Nat} (hk : r.kind = .load id n) (code : Nat) : s.fabricError tag code =
    (s.dropRemote tag).answer id (sizedKey (remoteKey r.va) n) (.fault (sizedKey (remoteKey r.va) n) (fabricCause code)) := by
  simp only [fabricError, hr, hk, fabricCause]

theorem fabricError_atomic {id : Asker} {op : AtomOp} {n : Nat} {v x : Word} (hk : r.kind = .atomic id op n v x) (code : Nat) :
    s.fabricError tag code = (s.dropRemote tag).answer id (remoteKey r.va) (.fault (remoteKey r.va) (fabricCause code)) := by
  simp only [fabricError, hr, hk, fabricCause]

theorem fabricError_store {id : Nat} (hk : r.kind = .store id) (code : Nat) :
    s.fabricError tag code = (s.dropRemote tag).dropStore id r.va := by
  simp only [fabricError, hr, hk]

/-- The element that an error ends, unless it has been made already (R187). -/
theorem fabricError_element {op i : Nat} {o : OneSided} (hk : r.kind = .element op i ∨ r.kind = .index op i)
    (ho : (s.dropRemote tag).oneSided.find? (·.id == op) = some o) (code : Nat) :
    s.fabricError tag code = if i ∈ o.taken then s.dropRemote tag else (s.dropRemote tag).failElement o i code := by
  obtain hk | hk := hk <;> simp only [fabricError, hr, hk, ho, List.contains_iff_mem]

/-- The command that an error hands back, unless its context is halted (R322). -/
theorem fabricError_command {k i : Nat} {c : EngCmd} {rest : List EngCmd} (hk : r.kind = .command k i)
    (hc : ((s.dropRemote tag).ctx k).cq = c :: rest) (code : Nat) :
    s.fabricError tag code = if ((s.dropRemote tag).ctx k).halt = true then s.dropRemote tag
      else (s.dropRemote tag).handBack k c (if code = 0x1A then 0x11 else code) r.va := by
  simp only [fabricError, hr, hk, hc]

end Answers

end Machine.State

section Events
variable {s t : State} {n : Nat}

theorem does_flitReceive {bs : List Byte} (h : s.inp = .flit n bs) (ht : s.receiveFlit n bs = t) : Does .flitReceive s t := by
  show execFlitReceive s = _
  simp only [execFlitReceive, h, ht]

theorem does_replayTimeout (h : s.inp = .unit n) (hn : s.noProgress n 10000 = true) : Does .replayTimeout s (s.onPort n Port.resend) := by
  show execReplayTimeout s = _
  simp only [execReplayTimeout, h]
  rw [if_pos hn]

theorem does_linkLost_reached (h : s.inp = .unit n) (hn : s.noProgress n 50000 = true) (hr : s.linkRows = .ok t) :
    Does .linkLost s (s.linkLost n) := by
  show execLinkLost s = _
  simp only [execLinkLost, h, hr]
  rw [if_neg (by simp [hn])]

/-- The loss of a link waits for the rows that say which operations it ends (log entry 104). -/
theorem does_linkLost_waits {sub : Nat} (h : s.inp = .unit n) (hn : s.noProgress n 50000 = true) (hr : s.linkRows = .wait t sub) :
    Does .linkLost s t := by
  show execLinkLost s = _
  simp only [execLinkLost, h, hr]
  rw [if_neg (by simp [hn])]

theorem does_linkRetrained (h : s.inp = .unit n) (hon : s.islandOn (24 + n / 32) = true) : Does .linkRetrained s (s.onPort n Port.up) := by
  show execLinkRetrained s = _
  simp only [execLinkRetrained, h]
  rw [if_pos hon]

theorem does_portRetrain (h : s.inp = .unit n) : Does .portRetrain s (s.onPort n Port.retrain) := by
  show execPortRetrain s = _
  simp only [execPortRetrain, h]

theorem does_laneDegraded {lane : Bool} (h : s.inp = .portFlag n lane) : Does .laneDegraded s (s.onPort n fun p => p.laneFail lane s.now) := by
  show execLaneDegraded s = _
  simp only [execLaneDegraded, h]

theorem does_retrainDone {good : Bool} (h : s.inp = .portFlag n good) : Does .retrainDone s (s.onPort n fun p => p.retrained good) := by
  show execRetrainDone s = _
  simp only [execRetrainDone, h]

section Requests
variable {m : Inbound} (h : s.inp = .inbound m)
include h

theorem does_inboundGetRequest (ht : s.inboundGet m = t) : Does .inboundGetRequest s t := by
  show execInboundGetRequest s = _
  simp only [execInboundGetRequest, h, ht]

theorem does_inboundPut (ht : s.inboundPut m = t) : Does .inboundPut s t := by
  show execInboundPut s = _
  simp only [execInboundPut, h, ht]

theorem does_inboundLaunch (ht : s.inboundLaunch m = t) : Does .inboundLaunch s t := by
  show execInboundLaunch s = _
  simp only [execInboundLaunch, h, ht]

theorem does_inboundAtomicRequest (ht : s.inboundAtomic m = t) : Does .inboundAtomicRequest s t := by
  show execInboundAtomicRequest s = _
  simp only [execInboundAtomicRequest, h, ht]

theorem does_inboundSync (ht : s.inboundSync m = t) : Does .inboundSync s t := by
  show execInboundSync s = _
  simp only [execInboundSync, h, ht]

end Requests

theorem does_getData {bs : List Byte} (h : s.inp = .replyData n bs) (ht : s.getData n bs = t) : Does .getData s t := by
  show execGetData s = _
  simp only [execGetData, h, ht]

theorem does_putAcknowledgement (h : s.inp = .unit n) (ht : s.putAck n = t) : Does .putAcknowledgement s t := by
  show execPutAcknowledgement s = _
  simp only [execPutAcknowledgement, h, ht]

theorem does_atomicReply {w : Word} (h : s.inp = .replyWord n w) (ht : s.atomicReply n w = t) : Does .atomicReply s t := by
  show execAtomicReply s = _
  simp only [execAtomicReply, h, ht]

theorem does_fabricError {code : BitVec 8} (h : s.inp = .replyCode n code) (ht : s.fabricError n code.toNat = t) : Does .fabricError s t := by
  show execFabricError s = _
  simp only [execFabricError, h, ht]

end Events

open State in
/-- Settles O56: the events of ports, of inbound requests and of answers one after another, each by the lemma of its case. -/
theorem fabricEventsTakeEffect : Obligations.FabricEventsTakeEffect := by
  intro s
  refine ⟨fun n bs p h hp hup => ?flits, fun n h => ?ports, fun n lane h => does_laneDegraded h, fun n good h => does_retrainDone h,
    fun m h => ?inbound, fun tag r hr => ?answers⟩
  case flits =>
    exact ⟨fun hcrc => does_flitReceive h (receiveFlit_crcFailed hp hup hcrc),
      fun hcrc hnak h1 h2 => does_flitReceive h (receiveFlit_ack hp hup hcrc hnak h1 h2),
      fun hcrc hnak htyp hseq => does_flitReceive h (receiveFlit_accepted hp hup hcrc hnak htyp hseq)⟩
  case ports =>
    exact ⟨does_replayTimeout h, fun t => does_linkLost_reached h, fun t sub => does_linkLost_waits h,
      does_linkRetrained h, does_portRetrain h⟩
  case inbound =>
    refine ⟨fun ha => ?get, fun ha => ?put, fun ha => ?launch, fun ha => ?atomic,
      fun asid n k write also ps w t htables hparts hready hrows => ?served, fun asid key x ha hx hscope => ?sync⟩
    case get => exact does_inboundGetRequest h (serveInbound_refused ha _ _ _ _ _)
    case put => exact does_inboundPut h (serveInbound_refused ha _ _ _ _ _)
    case launch => exact does_inboundLaunch h (serveInbound_refused ha _ _ _ _ _)
    case atomic => exact does_inboundAtomicRequest h (serveInbound_refused ha _ _ _ _ _)
    case served =>
      have hreach : InboundReaches s w t m asid n k write also ps := ⟨htables, hparts, hready, hrows⟩
      refine ⟨?getServed, ?putServed, ?atomicServed⟩
      case getServed =>
        rintro ha rfl rfl rfl rfl
        exact ⟨fun hp => does_inboundGetRequest h (inboundGet_poisoned hreach ha hp),
          fun hp => does_inboundGetRequest h (inboundGet_served hreach ha hp)⟩
      case putServed =>
        rintro rfl rfl rfl rfl
        exact ⟨fun ha hq => does_inboundPut h (inboundPut_served hreach ha hq),
          fun ha hq hl => does_inboundPut h (inboundPut_refused hreach ha hq hl),
          fun a ha hps hq => does_inboundLaunch h (inboundLaunch_served hreach ha hps hq)⟩
      case atomicServed =>
        rintro dp v old ha rfl rfl rfl rfl rfl hv
        exact does_inboundAtomicRequest h (inboundAtomic_served hreach ha hv)
    case sync =>
      exact ⟨fun hacq hw => does_inboundSync h (inboundSync_acquire ha hx hscope hacq hw),
        fun hrel => does_inboundSync h (inboundSync_release ha hx hscope hrel)⟩
  case answers =>
    refine ⟨fun bs id n h hk hn => does_getData h (getData_load hr hk hn), fun bs op i o h hk hn ho => does_getData h (getData_index hr hk hn ho),
      fun id h hk => does_putAcknowledgement h (putAck_store hr hk), fun w id op n v x h hk => does_atomicReply h (atomicReply_atomic hr hk),
      fun code h => ?errors⟩
    refine ⟨fun id n hk => ?load, fun id op n v x hk => ?rmw, fun id hk => ?store, fun op i o hk ho => ⟨fun hi => ?made, fun hi => ?fails⟩,
      fun k i c rest hk hc => ⟨fun hh => ?halted, fun hh => ?handed⟩⟩
    case load => exact does_fabricError h (fabricError_load hr hk _)
    case rmw => exact does_fabricError h (fabricError_atomic hr hk _)
    case store => exact does_fabricError h (fabricError_store hr hk _)
    case made => exact does_fabricError h ((fabricError_element hr hk ho _).trans (if_pos hi))
    case fails => exact does_fabricError h ((fabricError_element hr hk ho _).trans (if_neg hi))
    case halted => exact does_fabricError h ((fabricError_command hr hk hc _).trans (if_pos hh))
    case handed => exact does_fabricError h ((fabricError_command hr hk hc _).trans (if_neg (by simp [hh])))

end Sys2Proof
end

section
/-!
PROOFS. The translation service and invalidations: misses are posted and answered, receivers acknowledge or are reset, and the counter moves
(R170, R358 to R362).
-/
namespace Sys2Proof
open Sys2Proof.Machine

namespace Machine.State
variable {s : State}

section Misses
variable {id : Nat} {m : Miss} (hm : s.miss? id = some m)
include hm

theorem postMessage_joins (h0 : m.stage = 0)
    (hrun : ∃ n ∈ s.misses, n.id ≠ id ∧ samePage n m = true ∧ (n.stage = 1 ∨ n.stage = 2)) :
    s.postMessage id = ({ s with missMail := s.missMail ++ [(m.unit, missMessage m)] } : State).setMiss { m with stage := 2 } := by
  have hany : (s.misses.any fun n => n.id != id && samePage n m && (n.stage == 1 || n.stage == 2)) = true := by
    simpa [and_assoc] using hrun
  simp only [postMessage, hm, hany]
  exact if_neg (not_not_intro h0)

theorem postMessage_walks (h0 : m.stage = 0) (hnone : ∀ n ∈ s.misses, n.id ≠ id → samePage n m = true → n.stage ≠ 1 ∧ n.stage ≠ 2) :
    s.postMessage id = ({ s with missMail := s.missMail ++ [(m.unit, missMessage m)] } : State).setMiss { m with stage := 1 } := by
  have hany : (s.misses.any fun n => n.id != id && samePage n m && (n.stage == 1 || n.stage == 2)) = false := by
    simpa using hnone
  simp only [postMessage, hm, hany]
  exact if_neg (not_not_intro h0)

variable (hstage : m.stage = 1 ∨ m.stage = 2) (hon : s.receiverGated m.unit = false) {r : State}
  (hr : s.reachWalk (serviceParty m.unit) m.tenant m.asid m.va.toNat = .ok r)
include hstage hon hr

/-- The reply of a walk that has found a mapping fills the TLB (R358). -/
theorem translationReply_mapped {leaf : Word} {size : Nat}
    (hwalk : ((r.takeMessage m).dropClaims (serviceParty m.unit)).walk m.tenant m.asid m.va.toNat = some (leaf, size)) :
    s.translationReply id = (((r.takeMessage m).dropClaims (serviceParty m.unit)).fillTlb
      ⟨m.unit, m.asid, m.va.toNat / pageSize size * pageSize size, size, leaf⟩).progressWriteBacks := by
  simp only [translationReply, hm, hr, hwalk]
  exact if_neg fun e => e.elim (fun h => hstage.elim h.1 h.2) (Bool.eq_false_iff.1 hon)

/-- The reply of a walk that has found none answers the misses joined to it, or has them made again (R358, log entry 45). -/
theorem translationReply_unmapped (t : State) (ht : (r.takeMessage m).dropClaims (serviceParty m.unit) = t)
    (hwalk : t.walk m.tenant m.asid m.va.toNat = none) {again : Bool}
    (hagain : ((t.joined m).any fun n => n.cutOn (pageOf n.va.toNat) pageBytes) = again) :
    s.translationReply id = ((t.joined m).foldl (fun s n => if again then s.dropMiss n.id else s.noMappingReply n) t).progressWriteBacks := by
  subst ht
  simp only [translationReply, hm, hr, hwalk, hagain]
  exact if_neg fun e => e.elim (fun h => hstage.elim h.1 h.2) (Bool.eq_false_iff.1 hon)

end Misses

section FillTlb
variable (s) (e : TlbEntry)

/-- A miss is of the page that a TLB entry maps (R358). -/
def ofEntry (e : TlbEntry) (n : Miss) : Bool := n.unit == e.unit && n.asid == e.asid && n.va.toNat / pageSize e.size == e.page / pageSize e.size

/-- An invalidation overlaps the walk of a miss that an entry would answer (R358). -/
def cutEntry (e : TlbEntry) (n : Miss) : Bool := ofEntry e n && n.stage != 3 && n.cutOn e.page (pageSize e.size)

theorem fillTlb_fresh (h : ∀ n ∈ s.misses, cutEntry e n = false) : s.fillTlb e = { s with
    tlbs := e :: s.tlbs.filter fun o => ! (o.unit == e.unit && o.asid == e.asid && rangesMeet o.page (pageSize o.size) e.page (pageSize e.size))
    misses := s.misses.filter fun n => ! ofEntry e n } := by
  have hstale : s.misses.any (cutEntry e) = false := by simpa using h
  unfold cutEntry ofEntry at hstale
  simp only [fillTlb, hstale, ofEntry, Bool.false_and, Bool.or_false]
  rfl

theorem fillTlb_stale (h : ∃ n ∈ s.misses, cutEntry e n = true) :
    s.fillTlb e = { s with misses := s.misses.filter fun n => ! ofEntry e n || n.stage == 3 } := by
  have hstale : s.misses.any (cutEntry e) = true := by simpa using h
  unfold cutEntry ofEntry at hstale
  simp only [fillTlb, hstale, ofEntry, Bool.true_and]
  rfl

end FillTlb

section NoMapping
variable {m : Miss}

theorem noMappingReply_prefetch (hp : m.prefetch = true) : s.noMappingReply m = s.dropMiss m.id := if_pos hp

variable (hp : m.prefetch = false)
include hp

/-- A miss of no thread row waits for whoever looks at it. -/
theorem noMappingReply_kept (hth : m.thread.bind s.thread? = none) : s.noMappingReply m = s.setMiss { m with stage := 3 } := by
  simp only [noMappingReply, hth]
  exact if_neg (by simp [hp])

variable {th : Thread} (hth : m.thread.bind s.thread? = some th) (hclose : th.closing = none)
include hth hclose

section Access
variable {x : Nat} {w : Nat} (hw : th.waitsFor = some (.translation x w m.va))
include hw

theorem noMappingReply_unit (hs : (th.split.map (·.stage)) = some 1) :
    s.noMappingReply m = (s.dropMiss m.id).failSplit th.id .pagefault m.va := by
  simp only [noMappingReply, hth, hw]
  rw [if_neg (by simp [hp]), if_neg (by simp [hclose]), if_pos hs]

theorem noMappingReply_faults (hs : (th.split.map (·.stage)) ≠ some 1) :
    s.noMappingReply m = ((s.dropMiss m.id).takeFault th.id .pagefault
      (if m.kind = 2 then ((th.check.bind (·.source)).getD m.va) else m.va)).progressClose th.id false := by
  simp only [noMappingReply, hth, hw]
  rw [if_neg (by simp [hp]), if_neg (by simp [hclose]), if_neg hs]

end Access

theorem noMappingReply_restore {k : Nat} (hw : th.waitsFor = some (.restore k m.va)) : s.noMappingReply m =
    (((s.dropMiss m.id).setAccStatus th.row k 2 (s.accInc th.row k)).takeFault th.id .accfault 0).progressClose th.id false := by
  simp only [noMappingReply, hth, hw]
  rw [if_neg (by simp [hp]), if_neg (by simp [hclose])]

end NoMapping

section Invalidations
variable {iv u : Nat} {v : Invalidation} (hv : s.invs.find? (·.id == iv) = some v)
include hv

theorem tlbAck_drained (hd : s.receiverGated u = true ∨ s.inFlight v u = false) : s.tlbAck iv u = s.acknowledged iv u := by
  simp only [tlbAck, hv]
  exact if_pos (by simpa using hd)

/-- A receiver that has not acknowledged in time is reset, a cluster or a stack (R362). -/
theorem straggler_reset (hu : u ∈ v.waiting) (hlate : v.sent + 8000 ≤ s.now) (hon : s.receiverGated u = false) (hf : s.inFlight v u = true) :
    s.straggler iv u = (if u < 640 then s.clusterReset v u else s.stackReset v u).acknowledged iv u := by
  simp only [straggler, hv]
  exact if_neg (by simp [hu, hlate, hon, hf])

theorem invalidationMove_acknowledged {t : State} (hw : v.waiting = []) (ho : s.outsideHeld v.counter = false)
    (ht : s.reach (hubParty (2 ^ 62 + iv)) v.counter true = .ok t) : s.invalidationMove iv =
    { (t.counterMove v.counter 1 []).outsideTaken v.counter with invs := t.invs.filter (·.id != iv) } := by
  simp only [invalidationMove, hv, ht]
  exact if_neg (by simp [hw, ho])

end Invalidations

end Machine.State

section Events
variable {s t : State} {n u : Nat}

theorem does_translationMissPost (h : s.inp = .unit n) (ht : s.postMessage n = t) : Does .translationMissPost s t := by
  show execTranslationMissPost s = _
  simp only [execTranslationMissPost, h, ht]

theorem does_translationReply (h : s.inp = .unit n) (ht : s.translationReply n = t) : Does .translationReply s t := by
  show execTranslationReply s = _
  simp only [execTranslationReply, h, ht]

theorem does_tlbAck (h : s.inp = .pair n u) (ht : s.tlbAck n u = t) : Does .tlbAck s t := by
  show execTlbAck s = _
  simp only [execTlbAck, h, ht]

theorem does_stragglerReset (h : s.inp = .pair n u) (ht : s.straggler n u = t) : Does .stragglerReset s t := by
  show execStragglerReset s = _
  simp only [execStragglerReset, h, ht]

theorem does_invalidationCounterMove (h : s.inp = .unit n) (ht : s.invalidationMove n = t) : Does .invalidationCounterMove s t := by
  show execInvalidationCounterMove s = _
  simp only [execInvalidationCounterMove, h, ht]

end Events

end Sys2Proof
end

section
/-!
PROOFS. Handback messages, launch packets, the hot-page tracker and the end of a scrub (R322, R365, R368, R371, R372).
-/
namespace Sys2Proof
open Sys2Proof.Machine

namespace Machine.State
variable {s : State}

theorem handbackPost_ring {k dp : Nat} {h : Handback} {rest : List Handback} {t : Tenant} {r : State} (hp : (s.ctx k).pending = h :: rest)
    (ht : s.ctxTenant? k = some t) (hring : (s.ctx k).rbase ≠ 0)
    (hdp : s.hubTranslate t ((s.ctx k).rbase + (s.ctx k).handbacks % 2 ^ (s.ctx k).rsz * 64) .write = some dp) (htile : s.inTile dp = true)
    (hfree : s.slotFree dp = true)
    (hr : s.reachPosting t ((s.ctx k).rbase + (s.ctx k).handbacks % 2 ^ (s.ctx k).rsz * 64) = .ok r) :
    s.handbackPost k = (r.setCtx k { r.ctx k with pending := rest, handbacks := (r.ctx k).handbacks + 1 }).putSlot dp (handbackMessage k h) := by
  simp only [handbackPost, hp, ht, hdp, hr, Option.bind_some, htile, if_true]
  rw [if_neg hring, if_neg (by simp [hfree])]

section Launch
variable {n row handle dp : Nat} {t : Tenant} {q r : State}

/-- The queue logic has come to the next slot of a tenant's launch queue (R368). -/
structure LaunchReaches (s q r : State) (n dp : Nat) (t : Tenant) : Prop where
  tenant : (s.logStale n).tenant? n = some t
  posting : (s.logStale n).reachPosting t (ringVa t.lqb t.lqSeq) = .ok q
  slot : q.hubTranslate t (ringVa t.lqb t.lqSeq) .rmw = some dp
  row : q.reach (hubParty (rowOf dp)) dp false = .ok r

theorem launch_reached (h : LaunchReaches s q r n dp t) (row handle : Nat) : s.launch n row handle =
    if field (r.word64 dp) 63 1 = 1 ∧ field (r.word64 dp) 0 32 = t.lqSeq % 2 ^ 32 then r.servePacket t dp row handle else r := by
  simp only [launch, h.tenant, h.posting, h.slot, h.row]

/-- A slot with no packet, or with another than the next one, is left as it is. -/
theorem launch_none (h : LaunchReaches s q r n dp t) (hw : field (r.word64 dp) 63 1 = 0 ∨ field (r.word64 dp) 0 32 ≠ t.lqSeq % 2 ^ 32) :
    s.launch n row handle = r :=
  (launch_reached h row handle).trans (if_neg (by omega))

theorem launch_next (h : LaunchReaches s q r n dp t) (hv : field (r.word64 dp) 63 1 = 1) (hw : field (r.word64 dp) 0 32 = t.lqSeq % 2 ^ 32) :
    s.launch n row handle = r.servePacket t dp row handle :=
  (launch_reached h row handle).trans (if_pos ⟨hv, hw⟩)

theorem packetBanned_iff : r.packetBanned t dp = true ↔
    field t.lqp 0 2 < field (r.word64 (dp + 16)) 9 2 ∨ field (r.word64 (dp + 16)) 9 2 = 3 ∨ (r.scrub.map (·.tenant)) = some t.num := by
  simp [packetBanned, or_assoc]

theorem packetBanned_eq_false (hp : field (r.word64 (dp + 16)) 9 2 ≤ field t.lqp 0 2) (h3 : field (r.word64 (dp + 16)) 9 2 ≠ 3)
    (hs : (r.scrub.map (·.tenant)) ≠ some t.num) : r.packetBanned t dp = false := by
  refine Bool.eq_false_iff.2 fun e => ?_
  obtain e | e | e := packetBanned_iff.1 e
  · omega
  · exact h3 e
  · exact hs e

theorem servePacket_banned (hb : r.packetBanned t dp = true) : r.servePacket t dp row handle = r.refusePacket t dp (r.word64 dp) := by
  simp only [servePacket]
  exact if_pos hb

section Allowed
variable (hb : r.packetBanned t dp = false) {x y : State}
include hb

theorem servePacket_refused (hrefuse : r.refuses (r.hubTranslate t (r.word64 (dp + 24)).toNat .read) (field (r.word64 (dp + 16)) 8 1) = true)
    (hx : r.reachPosting t (r.word64 (dp + 24)).toNat = .ok x) : r.servePacket t dp row 0 = x.refusePacket t dp (x.word64 dp) := by
  simp only [servePacket, hx]
  rw [if_neg (by simp [hb]), if_pos trivial, if_neg (by simp [hrefuse])]

theorem servePacket_launched (h0 : handle ≠ 0)
    (hchosen : r.chosen (r.hubTranslate t (r.word64 (dp + 24)).toNat .read) (field (r.word64 (dp + 16)) 8 1) row = true)
    (hfree : r.handleFree handle = true) (hy : r.reachPosting t (r.word64 (dp + 24)).toNat = .ok y)
    (hx : y.reach (hubParty row) row true = .ok x) : r.servePacket t dp row handle = x.launchPacket t dp row handle := by
  simp only [servePacket, hy, hx]
  rw [if_neg (by simp [hb]), if_neg h0, if_neg (by simp [hchosen, hfree])]

end Allowed

/-- A packet is refused for what it asks for, at once, or since no row may be placed at its hint, once the hint has been walked (R368). -/
theorem servePacket_refuses {x : State}
    (hx : (x = r ∧ (field t.lqp 0 2 < field (r.word64 (dp + 16)) 9 2 ∨ field (r.word64 (dp + 16)) 9 2 = 3 ∨
        (r.scrub.map (·.tenant)) = some t.num)) ∨
      (field (r.word64 (dp + 16)) 9 2 ≤ field t.lqp 0 2 ∧ field (r.word64 (dp + 16)) 9 2 ≠ 3 ∧ (r.scrub.map (·.tenant)) ≠ some t.num ∧
        handle = 0 ∧ r.refuses (r.hubTranslate t (r.word64 (dp + 24)).toNat .read) (field (r.word64 (dp + 16)) 8 1) = true ∧
        r.reachPosting t (r.word64 (dp + 24)).toNat = .ok x)) :
    r.servePacket t dp row handle = x.refusePacket t dp (x.word64 dp) := by
  obtain ⟨rfl, hb⟩ | ⟨hp, h3, hs, rfl, hrefuse, hx⟩ := hx
  · exact servePacket_banned (packetBanned_iff.2 hb)
  · exact servePacket_refused (packetBanned_eq_false hp h3 hs) hrefuse hx

/-- The refusal of a packet is written and logged (R368, R370). -/
def packetRefused (s : State) (t : Tenant) (dp : Nat) : State :=
  let written := (s.takePacket t).hubPoke dp (wordBytes (launchStatus (s.word64 dp) 2))
  written.violate t.num 10 (.ofNat 64 dp) 0 t.num (written.modid.toNat % 4096) false

theorem refusePacket_eq (s : State) (t : Tenant) (dp : Nat) : s.refusePacket t dp (s.word64 dp) =
    if field (s.word64 dp) 62 1 = 1 then (s.packetRefused t dp).raise t.num 0 else s.packetRefused t dp := rfl

/-- The row of a packet stands placed (R110, R368). -/
def packetPlaced (s : State) (t : Tenant) (dp row handle : Nat) : State :=
  let d := s.word64 (dp + 16)
  (s.takePacket t).placeRow row handle (launchIdent t (field d 9 2)) (field d 0 8) (s.word64 (dp + 8)).toNat (field d 11 1 == 1)
    ((List.range 4).map fun i => s.word64 (dp + 32 + 8 * i))

theorem launchPacket_placed {u : Thread} (hu : (s.packetPlaced t dp row handle).threadAt? row = some u) :
    let done := (s.packetPlaced t dp row handle).hubPoke dp
      (wordBytes (launchStatus (s.word64 dp) 1) ++ wordBytes ((s.packetPlaced t dp row handle).rowVa u))
    s.launchPacket t dp row handle = if field (s.word64 dp) 62 1 = 1 then done.raise t.num 2 else done := by
  unfold packetPlaced at *
  simp only [launchPacket, hu]

end Launch

section Tracker

theorem trackerPeriod_over {ms : List TrackerMove} (ht : s.trackerAt + 1000000 ≤ s.now)
    (hms : ∀ k < 24, (ms.filter fun m => s.moveStack m == k).length ≤ 256) :
    s.trackerPeriod ms = { ms.foldl trackerMove s with pageUse := [], trackerAt := s.now } := by
  have hany : ((List.range 24).any fun k => decide (256 < (ms.filter fun m => s.moveStack m == k).length)) = false := by
    simpa using hms
  refine if_neg ?_
  rw [hany]
  simpa using ht

section Moves
variable {page a b st f : Nat} (hm : (s.dpitOf page).st = .moving)
include hm

theorem moveDone_frameToFrame (h1 : (s.dpitOf page).loc1 = .frame st f) (h2 : (s.dpitOf page).loc2 = .frame a b) :
    s.moveDone page =
      let freed : State := { s with trackerPool := (st, f) :: s.trackerPool.filter (· != (st, f)) }
      ({ freed with trackerPool := freed.trackerPool.filter (· != (a, b)) } : State).setDpit
        { s.dpitOf page with st := .home, loc1 := .frame a b, loc2 := .frame 0 0 } := by
  simp only [moveDone, h1, h2]
  exact if_neg (not_not_intro hm)

theorem moveDone_frameToFar (h1 : (s.dpitOf page).loc1 = .frame st f) (h2 : (s.dpitOf page).loc2 = .far a) :
    s.moveDone page = ({ s with trackerPool := (st, f) :: s.trackerPool.filter (· != (st, f)) } : State).setDpit
      { s.dpitOf page with st := .far, loc1 := .far a, loc2 := .frame 0 0 } := by
  simp only [moveDone, h1, h2]
  exact if_neg (not_not_intro hm)

theorem moveDone_farToFrame (h1 : (s.dpitOf page).loc1 = .far f) (h2 : (s.dpitOf page).loc2 = .frame a b) :
    s.moveDone page = ({ s with trackerPool := s.trackerPool.filter (· != (a, b)) } : State).setDpit
      { s.dpitOf page with st := .home, loc1 := .frame a b, loc2 := .frame 0 0 } := by
  simp only [moveDone, h1, h2]
  exact if_neg (not_not_intro hm)

end Moves

theorem revertDone_revert {page : Nat} (h : (s.dpitOf page).st = .revert) : s.revertDone page =
    (s.freeCopies page (s.dpitOf page).loc2).setDpit { s.dpitOf page with st := .home, loc2 := .frame 0 0 } :=
  if_neg (not_not_intro h)

end Tracker

/-- The receipt of a scrub: its body and the device's signature (R372). -/
def signedReceipt (s : State) (sc : Scrub) (t : Tenant) : List Byte :=
  let body := s.receiptBody (s.scrub.getD sc) t
  let sig := Config.deviceSign (.ofNat 384 (leNat (sha384 body)))
  body ++ leBytes 48 (sig.extractLsb' 0 384).toNat ++ leBytes 48 (sig.extractLsb' 384 384).toNat

theorem scrubComplete_quiet {sc : Scrub} {t : Tenant} {v : State} (hs : s.scrub = some sc) (hq : s.scrubQuiet sc.tenant = true)
    (ht : s.tenant? sc.tenant = some t) (ho : s.outsideHeld sc.area = false) (hv : s.reach (hubParty sc.area) sc.area true = .ok v) :
    let u := v.scrubErase t sc
    let receipt := u.signedReceipt sc t
    let r := (((u.pokeAll sc.area receipt).setGran sc.area receipt.length .full).counterMove (sc.area + 0x1F0) 1 []).outsideTaken sc.area
    s.scrubComplete = { r with
      scrub := none, tenants := r.tenants.filter (·.num != sc.tenant), receiptCount := r.receiptCount + 1
      receipts := assocSet r.receipts sc.tenant receipt } := by
  simp only [scrubComplete, hs, ht, hv]
  rw [if_neg (by simp [hq]), if_neg (by simp [ho])]
  rfl

end Machine.State

section Events
variable {s t : State} {n : Nat}

theorem does_handbackPost (h : s.inp = .unit n) (ht : s.handbackPost n = t) : Does .handbackPost s t := by
  show execHandbackPost s = _
  simp only [execHandbackPost, h, ht]

theorem does_launchPacket {row handle : Nat} (h : s.inp = .triple n row handle) (ht : s.launch n row handle = t) : Does .launchPacket s t := by
  show execLaunchPacket s = _
  simp only [execLaunchPacket, h, ht]

theorem does_trackerPeriod {ms : List TrackerMove} (h : s.inp = .tracker ms) (ht : s.trackerPeriod ms = t) : Does .trackerPeriod s t := by
  show execTrackerPeriod s = _
  simp only [execTrackerPeriod, h, ht]

theorem does_dpitMoveDone (h : s.inp = .unit n) (ht : s.moveDone n = t) : Does .dpitMoveDone s t := by
  show execDpitMoveDone s = _
  simp only [execDpitMoveDone, h, ht]

theorem does_dpitRevertDone (h : s.inp = .unit n) (ht : s.revertDone n = t) : Does .dpitRevertDone s t := by
  show execDpitRevertDone s = _
  simp only [execDpitRevertDone, h, ht]

end Events

open State in
/-- Settles O59: the events of the service units one after another, each by the lemma of its case. -/
theorem serviceEventsTakeEffect : Obligations.ServiceEventsTakeEffect := by
  intro s
  refine ⟨fun id m h hm h0 => ?posts, fun id m r h hm hstage hon hr => ?replies, fun m => ?noMapping, fun iv u v h hv => ?receivers,
    fun iv v t h hv hw ho ht => ?counter, fun k h rest t dp r hk hp ht hring hdp htile hfree hr => ?handback,
    fun n row handle t dp q r h ht hq hdp hr => ?launch, fun ms h ht hms => does_trackerPeriod h (trackerPeriod_over ht hms),
    fun page h => ?moves, fun sc t v hs hq ht ho hv => congrArg _ (scrubComplete_quiet hs hq ht ho hv)⟩
  case posts =>
    exact ⟨fun hrun => does_translationMissPost h (postMessage_joins hm h0 hrun),
      fun hnone => does_translationMissPost h (postMessage_walks hm h0 hnone)⟩
  case replies =>
    refine ⟨fun leaf size hwalk => ?mapped, fun hwalk => ?unmapped⟩
    case mapped =>
      have hreply := translationReply_mapped hm hstage hon hr hwalk
      exact ⟨fun hfresh => does_translationReply h (hreply.trans (congrArg progressWriteBacks (fillTlb_fresh _ _ hfresh))),
        fun hstale => does_translationReply h (hreply.trans (congrArg progressWriteBacks (fillTlb_stale _ _ hstale)))⟩
    case unmapped =>
      exact ⟨fun hagain => does_translationReply h (translationReply_unmapped hm hstage hon hr _ rfl hwalk (List.any_eq_true.2 hagain)),
        fun hnone => does_translationReply h (translationReply_unmapped hm hstage hon hr _ rfl hwalk (again := false)
          (List.any_eq_false.2 fun n hn => Bool.eq_false_iff.1 (hnone n hn)))⟩
  case noMapping =>
    refine ⟨noMappingReply_prefetch, noMappingReply_kept, fun th hp hth hclose => ⟨fun x w hw => ⟨?unit, ?faults⟩, fun k => ?restore⟩⟩
    case unit => exact noMappingReply_unit hp hth hclose hw
    case faults => exact noMappingReply_faults hp hth hclose hw
    case restore => exact noMappingReply_restore hp hth hclose
  case receivers =>
    refine ⟨fun hd => does_tlbAck h (tlbAck_drained hv hd), fun hu hlate hon hf => ?_⟩
    have hreset := straggler_reset hv hu hlate hon hf
    exact ⟨fun hc => does_stragglerReset h (hreset.trans (by rw [if_pos hc])),
      fun hc => does_stragglerReset h (hreset.trans (by rw [if_neg (Nat.not_lt.2 hc)]))⟩
  case counter => exact does_invalidationCounterMove h (invalidationMove_acknowledged hv hw ho ht)
  case handback => exact does_handbackPost hk (handbackPost_ring hp ht hring hdp htile hfree hr)
  case launch =>
    have hl : LaunchReaches s q r n dp t := ⟨ht, hq, hdp, hr⟩
    refine ⟨fun hw => does_launchPacket h (launch_none hl hw), fun hvalid hseq => ?_⟩
    have hserve := launch_next (row := row) (handle := handle) hl hvalid hseq
    refine ⟨fun x hx => ?refused, fun y x hp h3 hscrub h0 hchosen hfree hy hx u hu => ?placed⟩
    case refused =>
      have hrefuse := hserve.trans ((servePacket_refuses hx).trans (refusePacket_eq x t dp))
      exact ⟨fun hq => does_launchPacket h (hrefuse.trans (if_neg (by simp [hq]))),
        fun hq => does_launchPacket h (hrefuse.trans (if_pos hq))⟩
    case placed =>
      have hbanned := packetBanned_eq_false hp h3 hscrub
      have hplace := hserve.trans ((servePacket_launched hbanned h0 hchosen hfree hy hx).trans (launchPacket_placed hu))
      exact ⟨fun hq => does_launchPacket h (hplace.trans (if_neg (by simp [hq]))),
        fun hq => does_launchPacket h (hplace.trans (if_pos hq))⟩
  case moves =>
    refine ⟨fun st f hm h1 => ⟨fun a b h2 => ?frames, fun a h2 => ?toFar⟩, fun f a b hm h1 h2 => ?fromFar, fun hrev => ?reverts⟩
    case frames => exact does_dpitMoveDone h (moveDone_frameToFrame hm h1 h2)
    case toFar => exact does_dpitMoveDone h (moveDone_frameToFar hm h1 h2)
    case fromFar => exact does_dpitMoveDone h (moveDone_farToFrame hm h1 h2)
    case reverts => exact does_dpitRevertDone h (revertDone_revert hrev)

end Sys2Proof
end

section
/-!
PROOFS. Classes 0x6 and 0x7, vectors: that the lanewise instructions, the comparisons, the conversions, the moves of lanes, the reductions, the scan
and the quantisations complete with the lanes that the model computes (R207 to R220).
-/
namespace Sys2Proof
open Sys2Proof.Machine

section Lanewise
variable {mk : FA → Instr}

/-- An instruction that runs as an operation on the lanes of one source completes with that operation's lanes (R207). -/
theorem VectorOne.of_vop1 (g : FA → Nat → Nat) (hexec : ∀ f s, exec (mk f) s = asInstr (vop1 f (g f)) s := by intros; rfl) :
    VectorOne mk g := by
  intro s s1 th u f a h ha hu
  exact (hexec f s).trans (asInstr_yields h (ha.bind (.writeNextV hu _ _)))

/-- An instruction that runs as an operation on the lanes of two sources completes with that operation's lanes (R207). -/
theorem VectorTwo.of_vop2 (g : FA → Nat → Nat → Nat) (hexec : ∀ f s, exec (mk f) s = asInstr (vop2 f (g f)) s := by intros; rfl) :
    VectorTwo mk g := by
  intro s s1 s2 th u f a b h ha hb hu
  exact (hexec f s).trans (asInstr_yields h (ha.bind (hb.bind (.writeNextV hu _ _))))

/-- An instruction that runs as an operation on the lanes of three sources completes with that operation's lanes (R207). -/
theorem VectorThree.of_vop3 (g : FA → Nat → Nat → Nat → Nat)
    (hexec : ∀ f s, exec (mk f) s = asInstr (vop3 f (g f)) s := by intros; rfl) : VectorThree mk g := by
  intro s s1 s2 s3 th u f a b c h ha hb hc hu
  exact (hexec f s).trans (asInstr_yields h (ha.bind (hb.bind (hc.bind (.writeNextV hu _ _)))))

end Lanewise

/-- Settles O29: each instruction is the operation on lanes that the model names for it. -/
theorem lanewiseVectorsComplete : Obligations.LanewiseVectorsComplete :=
  ⟨.of_vop2 _, .of_vop2 _, .of_vop2 _, .of_vop3 _, .of_vop2 _, .of_vop2 _, .of_vop1 _, .of_vop1 _, .of_vop1 _, .of_vop1 _, .of_vop1 _,
    .of_vop1 _, .of_vop2 _, .of_vop2 _, .of_vop2 _, .of_vop2 _, .of_vop2 _, .of_vop2 _, .of_vop3 _, .of_vop2 _, .of_vop2 _, .of_vop2 _⟩

section Compare
variable {s : State} {th : Thread}

/-- The last write of a comparison: the predicate that it names, and none where it names p0 (R46, R210). -/
theorem Yields.writeNextP (h : AtIssue s th) (n : Nat) (p : Bool) :
    Yields (do
      if n ≠ 0 then Exec.writeP n p
      return Flow.next) s .next (s.setP th.row n p) := by
  by_cases hn : n = 0
  · subst hn
    exact .neg (not_not_intro rfl) (.pure _ _)
  · exact .pos hn ((Yields.writeP h n p).bind (.pure _ _))

end Compare

/-- Settles O30: VCMP writes its mask and then its predicate, and VCVT and VPACK write the lanes that they convert. -/
theorem vectorComparesAndConversionsComplete : Obligations.VectorComparesAndConversionsComplete := by
  intro s s1 s2 th u f a b h
  refine ⟨fun ha hb hu => ?cmp, fun ha hu => ?cvt, fun ha hb hu => ?pack⟩
  case cmp => exact asInstr_yields h (ha.bind (hb.bind ((Yields.writeV hu _ _).bind (.writeNextP (hu.setV _ _ _) _ _))))
  case cvt => exact asInstr_yields h (ha.bind ((Yields.readV hu _).bind (.writeNextV hu _ _)))
  case pack => exact asInstr_yields h (ha.bind (hb.bind (.writeNextV hu _ _)))

/-- An instruction that reads two sources and then writes the lanes that it takes from them completes with those lanes (R214). -/
theorem VectorMove.of_lanes {mk : FA → Instr} (g : FA → Line → Line → Nat → Nat) (hexec : ∀ f s, exec (mk f) s = asInstr (do
      let a ← Exec.vsrc f.a f.ty.width
      let b ← Exec.vsrc f.b f.ty.width
      Exec.writeV (vnum f.d) (vlanes f.ty (g f a b))
      return .next) s := by intros; rfl) : VectorMove mk g := by
  intro s s1 s2 th u f a b h ha hb hu
  exact (hexec f s).trans (asInstr_yields h (ha.bind (hb.bind (.writeNextV hu _ _))))

/-- Settles O31: each move reads its sources in order, and then makes its only write. -/
theorem laneMovesComplete : Obligations.LaneMovesComplete := by
  refine ⟨.of_lanes _, .of_lanes _, .of_lanes _, fun s s1 th u f a h => ⟨fun ha hu => ⟨?bcast, ?rot, ?movx⟩, ?ins⟩⟩
  case bcast => exact asInstr_yields h (ha.bind (.writeNextV hu _ _))
  case rot => exact asInstr_yields h (ha.bind ((Yields.readX hu _).bind (.writeNextV hu _ _)))
  case movx => exact asInstr_yields h (ha.bind (.writeNext hu _ _))
  case ins => exact asInstr_yields h ((Yields.readX h _).bind ((Yields.readV h _).bind (.writeNextV h _ _)))

section Reduction
variable {s s1 t : State} {th u : Thread} {f : FA} {k : Reduce} {src : Line} {row n done : Nat}

/-- The running result that a unit of a reduction combines its vector into: the identity where the first unit does not continue (R215). -/
def reduceStart (f : FA) (k : Reduce) (done : Nat) (old : Line) : Line :=
  let w := reduceWidth k f.ty
  if done = 0 ∧ mdBit f 1 = false then ofLanes w (List.replicate (512 / w) (reduceIdentity k f.ty (mdBit f 2))) else old

/-- What follows a unit of a reduction: a progress point, or the fold when it is asked for and the end of the progress (R215, R222). -/
def reductionRest (f : FA) (k : Reduce) (row n done : Nat) : Exec Flow := do
  if done + 1 < n then
    modify fun s => s.setCtrl row 0 32 32 (done + 1)
    return .again
  else
    if mdBit f 0 then
      let v ← Exec.readV (vnum f.d)
      Exec.writeV (vnum f.d) (reduceFold k f.ty (mdBit f 2) v)
    modify fun s => if s.prog row = 0 then s else s.setCtrl row 0 32 32 0
    return .next

/-- A reduction with a unit to do does the unit, and goes on as its rest does. -/
theorem Yields.reduction {flow : Flow} (h : AtIssue s th) (hn : s.prog th.row < reductionUnits s th.row f.a)
    (hsrc : Yields (Exec.vsrc f.a f.ty.width) s src s1) (hu : AtIssue s1 u)
    (hrest : Yields (reductionRest f k th.row (reductionUnits s th.row f.a) (s.prog th.row)) (s1.setV u.row (vnum f.d)
      (reduceUnit k f.ty (mdBit f 2) (reduceStart f k (s.prog th.row) (s1.getV u.row (vnum f.d))) src)) flow t) :
    Yields (reduction f k) s flow t := by
  simp only [reduceStart, ← Bool.not_eq_true'] at hrest
  exact (Yields.myRow h).bind ((Yields.get s).bind (.pos hn
    (hsrc.bind ((Yields.readV hu _).bind ((Yields.writeV hu _ _).bind hrest)))))

/-- A vector register changed where a condition holds, followed by a part that runs in either state. -/
theorem yields_changeVWhen {n : Nat} {c : Prop} [Decidable c] {g : Line → Line} {m : Unit → Exec Flow} {flow : Flow} (h : AtIssue s th)
    (hm : Yields (m ()) (if c then s.setV th.row n (g (s.getV th.row n)) else s) flow t) :
    Yields (if c then (do let v ← Exec.readV n; let r ← Exec.writeV n (g v); m r) else m ()) s flow t := by
  by_cases hc : c
  · rw [if_pos hc] at hm
    exact .pos hc ((Yields.readV h n).bind ((Yields.writeV h n _).bind hm))
  · rw [if_neg hc] at hm
    exact .neg hc hm

theorem Yields.reductionRest_more (hmore : done + 1 < n) :
    Yields (reductionRest f k row n done) s .again (s.setCtrl row 0 32 32 (done + 1)) :=
  .pos hmore ((Yields.modify _ _).bind (.pure _ _))

theorem Yields.reductionRest_last (h : AtIssue s th) (hlast : n ≤ done + 1) :
    let t := if mdBit f 0 then s.setV th.row (vnum f.d) (reduceFold k f.ty (mdBit f 2) (s.getV th.row (vnum f.d))) else s
    Yields (reductionRest f k row n done) s .next (if t.prog row = 0 then t else t.setCtrl row 0 32 32 0) :=
  .neg (Nat.not_lt.2 hlast) (yields_changeVWhen h ((Yields.modify _ _).bind (.pure _ _)))

/-- An instruction that runs as a reduction completes one unit, by whether another one follows (R215). -/
theorem Reduces.of_reduction {mk : FA → Instr} (hexec : ∀ f s, exec (mk f) s = asInstr (reduction f k) s := by intros; rfl) :
    Reduces mk k := by
  intro s s1 th u f src h hu n done w old run s2 hn hsrc hrow
  refine ⟨fun hmore => ?more, fun hlast => ?last⟩
  case more => exact (hexec f s).trans (asInstr_yields h (.reduction h hn hsrc hu (.reductionRest_more hmore)))
  case last => exact (hexec f s).trans (asInstr_yields h (.reduction h hn hsrc hu (.reductionRest_last (hu.setV _ _ _) hlast)))

end Reduction

/-- Settles O32: the reductions by their one unit, and the scan and the quantisations by the sources that they read before their only write. -/
theorem reductionsAndQuantisationComplete : Obligations.ReductionsAndQuantisationComplete := by
  refine ⟨.of_reduction, .of_reduction, .of_reduction,
    fun s s1 s2 th u f a b h => ⟨fun ha hu => ⟨?scan, ?qnt⟩, fun ha hu => ?dqnt, fun ha hb hu => ?bscale⟩⟩
  case scan => exact asInstr_yields h (ha.bind (.writeNextV hu _ _))
  case qnt => exact asInstr_yields h (ha.bind ((Yields.readX hu _).bind ((Yields.readV hu _).bind (.writeNextV hu _ _))))
  case dqnt => exact asInstr_yields h (ha.bind ((Yields.readX hu _).bind (.writeNextV hu _ _)))
  case bscale => exact asInstr_yields h (ha.bind (hb.bind (.writeNextV hu _ _)))

end Sys2Proof
end

section
/-!
PROOFS. Classes 0x8 and 0x9, accumulators, sparse tiles and walks: that the updates and transfers of accumulators, the products and counts of tiles
and the instructions of a walk complete (R235, R236, R243, R245 to R252).
-/
namespace Sys2Proof
open Sys2Proof.Machine

section Parts
variable {α β γ : Type} {s t u : State} {a : α} {b : β} {c : Prop} [Decidable c]

/-- A loop whose every round changes no state changes none. -/
theorem Yields.forIn {f : α → PUnit → Exec (ForInStep PUnit)} {l : List α} (hf : ∀ x ∈ l, Yields (f x ⟨⟩) s (.yield ⟨⟩) s) :
    Yields (ForIn.forIn l ⟨⟩ f) s ⟨⟩ s := by
  induction l with
  | nil => exact .pure _ _
  | cons x l ih =>
    rw [List.forIn_cons]
    exact (hf x List.mem_cons_self).bind (ih fun y hy => hf y (List.mem_cons_of_mem x hy))

theorem Yields.mapFault {m : Exec α} (h : Yields m s a t) (g : Cause → Word → List Note → Stop) : Yields (Exec.mapFault m g) s a t := by
  have hm : m s = .ok (a, t) := h
  show Exec.mapFault m g s = .ok (a, t)
  rw [Exec.mapFault, hm]

/-- A part that runs only where a condition holds, followed by one that runs in either state. -/
theorem yields_when {m : Exec PUnit} {k : PUnit → Exec α} (hm : c → Yields m s ⟨⟩ t) (hs : ¬ c → t = s) (hk : Yields (k ⟨⟩) t a u) :
    Yields (if c then m >>= k else k ⟨⟩) s a u := by
  by_cases hc : c
  · exact .pos hc ((hm hc).bind hk)
  · exact .neg hc (hs hc ▸ hk)

/-- A value that one of two parts gives, the second of them through a function, followed by a part that takes it. -/
theorem yields_either {m : Exec α} {m' : Exec γ} {g : γ → α} {k : α → Exec β} (hm : c → Yields m s a t)
    (hm' : ¬ c → ∃ x, Yields m' s x t ∧ a = g x) (hk : Yields (k a) t b u) :
    Yields (if c then m >>= k else m' >>= fun x => Pure.pure (g x) >>= k) s b u := by
  by_cases hc : c
  · exact .pos hc ((hm hc).bind hk)
  · obtain ⟨x, hx, rfl⟩ := hm' hc
    exact .neg hc (hx.bind ((Yields.pure _ _).bind hk))

/-- A change of the state where a condition holds, and the end of a part. -/
theorem yields_modifyWhen (g : State → State) (a : α) :
    Yields (if c then (do modify g; return a) else return a) s a (if c then g s else s) := by
  by_cases hc : c
  · rw [if_pos hc, if_pos hc]
    exact (Yields.modify _ _).bind (.pure _ _)
  · rw [if_neg hc, if_neg hc]
    exact .pure _ _

theorem yields_modify_to {g : State → State} (hg : g s = t) : Yields (modify g : Exec PUnit) s ⟨⟩ t := hg ▸ Yields.modify g s

end Parts

section Accumulators
variable {s : State} {th : Thread} {k : Nat} {ks : List Nat}

theorem AtIssue.setAccStatus (h : AtIssue s th) (row k st : Nat) (inc : Bool) : AtIssue (s.setAccStatus row k st inc) th := h.poke _ _

theorem Yields.matrixReady (h : AtIssue s th) (hr : MatrixReady s th ks) : Yields (matrixReady ks) s () s := by
  obtain ⟨hon, hroom, hfree⟩ := hr
  have hany : ¬ ks.any (accInFlight th) = true := by simpa using hfree
  exact (Yields.get s).bind ((Yields.me h).bind (.neg (by simp [hon]) (.neg (Nat.not_le.2 hroom) (.neg hany (.pure _ _)))))

theorem Yields.accDefined (h : AtIssue s th) (hd : s.accStatus th.row k = 1) : Yields (accDefined k) s () s :=
  (Yields.get s).bind ((Yields.myRow h).bind (.require _ (beq_iff_eq.2 hd)))

theorem Yields.inArithmetic (h : AtIssue s th) (rs : List (Nat × Acc)) : Yields (inArithmetic rs) s () (withResults s th rs) :=
  (Yields.me h).bind (.modify _ _)

/-- The last move of a matrix instruction: its results go to their arithmetic phase (R255). -/
theorem Yields.inArithmeticNext (h : AtIssue s th) (rs : List (Nat × Acc)) :
    Yields (do Machine.inArithmetic rs; return Flow.next) s .next (withResults s th rs) :=
  (Yields.inArithmetic h rs).bind (.pure _ _)

/-- A first define is admitted where some accumulator has contents already, or ASAVE names a save area (R232). -/
theorem Yields.firstDefine (h : AtIssue s th) (hd : field (s.astat th.row) 0 8 ≠ 0 ∨ State.asaveOk (s.asave th.row) = true) :
    Yields firstDefine s () s := by
  refine (Yields.get s).bind ((Yields.myRow h).bind ?_)
  by_cases h0 : field (s.astat th.row) 0 8 = 0
  · exact .pos h0 (.require _ (hd.resolve_left (not_not_intro h0)))
  · exact .neg h0 (.pure _ _)

/-- An accumulator that is not DEFINED, or that has a physical tile, needs no restore (R236). -/
theorem Yields.nameAcc (h : AtIssue s th) (hk : s.accStatus th.row k ≠ 1 ∨ (th.acc k).bound = true) : Yields (nameAcc k) s () s := by
  refine (Yields.get s).bind ((Yields.me h).bind (.neg ?_ (.pure _ _)))
  rintro ⟨hdef, hunbound⟩
  exact hk.elim (fun hne => hne hdef) fun hb => by simp [hb] at hunbound

end Accumulators

/-- Settles O35: M.SACC reads both accumulators and then writes their status, M.ZERO and M.LDACC end in a define, and M.LDACC with add in a sum. -/
theorem accumulatorUpdatesComplete : Obligations.AccumulatorUpdatesComplete := by
  intro s s0 s1 s2 s3 th u u2 f h hu hu2
  refine ⟨fun src dst hr hd hs hsrc hdst => ?sacc, fun hr hok hname hdef => ?zero,
    fun rows hr ha hadd hok hname hrows hdef => ?ldacc, fun rows acc hr ha hadd hd hrows hacc => ?ldaccAdd⟩
  case sacc =>
    have hk := hu.setAccStatus u.row (anum f.d) 1 (s2.accInc u.row (anum f.d) || s2.accInc u.row (anum f.a))
    refine ⟨fun hmd => asInstr_yields h ?keep, fun hmd => asInstr_yields h ?zeroSource⟩
    all_goals
      refine (Yields.matrixReady h hr).bind ((Yields.accDefined h hd).bind ((Yields.accDefined h hs).bind ((Yields.readX h _).bind
        (hsrc.bind (hdst.bind ((Yields.myRow hu).bind ((Yields.get _).bind ((Yields.modify _ _).bind ?_))))))))
    case keep => exact .neg (Nat.mod_two_ne_one.2 hmd) (.inArithmeticNext hk _)
    case zeroSource => exact .pos hmd ((Yields.modify _ _).bind (.inArithmeticNext (hk.setAccStatus _ _ _ _) _))
  case zero =>
    exact asInstr_yields h ((Yields.matrixReady h hr).bind ((Yields.firstDefine h hok).bind (hname.bind (hdef.bind (.pure _ _)))))
  case ldacc =>
    have hno := Nat.mod_two_ne_one.2 hadd
    exact asInstr_yields h ((Yields.matrixReady h hr).bind ((Yields.readX h _).bind ((Yields.require _ (beq_iff_eq.2 ha)).bind
      (.neg hno ((Yields.firstDefine h hok).bind (hname.bind (hrows.bind (.neg hno ((Yields.me hu).bind (hdef.bind (.pure _ _)))))))))))
  case ldaccAdd =>
    exact asInstr_yields h ((Yields.matrixReady h hr).bind ((Yields.readX h _).bind ((Yields.require _ (beq_iff_eq.2 ha)).bind
      (.pos hadd ((Yields.accDefined h hd).bind (hrows.bind (.pos hadd (hacc.bind ((Yields.myRow hu2).bind ((Yields.modify _ _).bind
        (.inArithmeticNext (hu2.setAccStatus _ _ _ _) _)))))))))))

section Transfers
variable {s : State} {th : Thread} {f : FX}

/-- Every row of M.GATH lies within its 2 KiB block (R167, R243). -/
theorem Yields.rowsInBlock {d : Word} {len : Nat} (hd : ∀ i < 32, (wordAdd d (i * len)).toNat % 2048 + len ≤ 2048) :
    Yields (rowsInBlock d len) s () s := by
  refine Yields.bind (a := ⟨⟩) (t := s) (.forIn fun i hi => ?_) (.pure _ _)
  exact (Yields.require _ (decide_eq_true (hd i (List.mem_range.1 hi)))).bind (.pure _ _)

/-- M.DRAIN waits while the thread has a matrix instruction in flight, be there 8 of them or fewer (R246, R255). -/
theorem mDrain_stalls (h : AtIssue s th) (hon : s.islandOn (2 * th.die + 1) = true) (hm : th.matrix ≠ []) :
    Stalls (.mDrain f) s th 0xC 0 .matrix := by
  by_cases hroom : th.matrix.length < 8
  · exact asInstr_stalls h (.bind (.matrixReady h ⟨hon, hroom, by simp⟩) (.bind (.me h) (.pos hm (.left (.stall _ _ _)))))
  · exact asInstr_stalls h (.left (.bind (.get s) (.bind (.me h) (.neg (by simp [hon]) (.pos (Nat.not_lt.1 hroom) (.left (.stall _ _ _)))))))

end Transfers

/-- Settles O36: M.GATH and M.STACC read before they store, and M.DRAIN by its wait, its restore, its write-back and its release in turn. -/
theorem accumulatorTransfersComplete : Obligations.AccumulatorTransfersComplete := by
  refine ⟨fun s s0 s1 s2 th u f h hu => ⟨fun rows hr ha hd hrows hst => ?gath, fun acc hr ha hd hinc hacc hst => ?stacc,
    fun hon => ⟨mDrain_stalls h hon, fun hm hname hs0 hwb hs1 => ?drain⟩⟩, fun s th k h => .nameAcc h⟩
  case gath =>
    exact asInstr_yields h ((Yields.matrixReady h hr).bind ((Yields.readX h _).bind ((Yields.readX h _).bind
      ((Yields.require _ (beq_iff_eq.2 ha)).bind ((Yields.rowsInBlock hd).bind (hrows.bind (hst.bind (.pure _ _))))))))
  case stacc =>
    exact asInstr_yields h ((Yields.matrixReady h hr).bind ((Yields.readX h _).bind ((Yields.require _ (beq_iff_eq.2 ha)).bind
      ((Yields.accDefined h hd).bind ((Yields.myRow h).bind ((Yields.get _).bind ((Yields.require _ (by simpa using hinc)).bind (hacc.bind
        (hst.bind (.pure _ _))))))))))
  case drain =>
    refine asInstr_yields h ((Yields.matrixReady h ⟨hon, by simp [hm], by simp⟩).bind ((Yields.me h).bind (.neg (not_not_intro hm)
      (yields_when hname (hs0 ∘ Nat.mod_two_ne_one.1) ((Yields.me hu).bind ?_)))))
    by_cases hwrite : f.md.toNat % 2 = 1
    · refine .pos hwrite ((Yields.get s0).bind ?_)
      rw [hwb hwrite]
      exact (Yields.set _ _).bind (yields_modifyWhen _ _)
    · obtain rfl := hs1 (Nat.mod_two_ne_one.1 hwrite)
      exact .neg hwrite (yields_modifyWhen _ _)

/-- Settles O37: M.SPMM by where its rows come from, and M.TDIR by whether the tile is a dynamic one. -/
theorem sparseTilesComplete : Obligations.SparseTilesComplete := by
  intro s s1 s2 s3 s4 th u f e h a b len ha he
  refine ⟨fun rows acc bs hr hb hd hwalk htile hacc hbs hu => ?spmm, fun hr hu hk => ?estimate, fun rows hr hu hk hrows => ?count⟩
  case spmm =>
    exact asInstr_yields h ((Yields.matrixReady h hr).bind ((Yields.readX h _).bind ((Yields.readX h _).bind
      ((Yields.require _ (beq_iff_eq.2 ha)).bind ((Yields.require _ (beq_iff_eq.2 hb)).bind ((Yields.accDefined h hd).bind (he.bind
        (yields_either hwalk htile ((hacc.mapFault _).bind ((hbs.mapFault _).bind (.inArithmeticNext hu _)))))))))))
  case estimate =>
    exact asInstr_yields h ((Yields.matrixReady h hr).bind ((Yields.readX h _).bind ((Yields.require _ (beq_iff_eq.2 ha)).bind (he.bind
      (.pos hk (.writeNext hu _ _))))))
  case count =>
    intro n hst
    exact asInstr_yields h ((Yields.matrixReady h hr).bind ((Yields.readX h _).bind ((Yields.require _ (beq_iff_eq.2 ha)).bind (he.bind
      (.neg hk (hrows.bind ((Yields.writeX hu _ _).bind (hst.bind (.pure _ _)))))))))

section Walks
variable {s : State} {th : Thread} {f : FA} {q : WalkReq}

/-- An address register that moves on after a load is written, and one that does not is left (R252). -/
theorem Yields.walkerInc (h : AtIssue s th) (a : Word) (n : Nat) :
    Yields (walkerInc f a n) s () (if f.md.toNat % 2 = 1 then s.setX th.row (xnum f.a) (wordAdd a n) else s) := by
  by_cases hinc : f.md.toNat % 2 = 1
  · rw [if_pos hinc]
    exact .pos hinc (.writeX h _ _)
  · rw [if_neg hinc]
    exact .neg hinc (.pure _ _)

/-- The walk of a thread's walker with a row emitted under a mask, in place of an earlier emission of that row (R252). -/
def walkEmitted (s : State) (th : Thread) (f : FA) (mask : Nat) (q : WalkReq) : State :=
  let k := s.skink th.place
  let r := (s.getX th.row (xnum f.a)).toNat % 32
  s.setSkink { k with emitted := k.emitted.filter (·.1 != r) ++
    [(r, mask, (lineToBytes (s.getV th.row (vnum f.b))).take (32 * q.tya.bytes))] }

theorem Yields.emitRow (h : AtIssue s th) (hq : (s.skink th.place).cur = some q) (mask : Nat) :
    Yields (emitRow f mask) s .next (walkEmitted s th f mask q) := by
  refine (Yields.readX h _).bind ((Yields.readV h _).bind ((Yields.me h).bind ((yields_modify_to ?_).bind (.pure _ _))))
  dsimp only [walkEmitted]
  rw [hq]

/-- W.END closes the walk's row, and its request has the rows emitted where a thread asked for them (R251, R252). -/
theorem wEnd_completes (h : AtIssue s th) (hq : (s.skink th.place).cur = some q) :
    let k := s.skink th.place
    Completes (.wEnd f) s th (s.setSkink { k with
      cur := none, emitted := [], issues := 0
      ends := if q.thread = noThread then k.ends else k.ends ++ [(q.thread, .rows k.emitted)] }) (.close 1) := by
  refine asInstr_yields h ((Yields.me h).bind ((yields_modify_to ?_).bind (.pure _ _)))
  dsimp only
  rw [hq]

end Walks

/-- Settles O38: the loads by their register and their address, the emissions and the end by the walk under way, and the others by their write. -/
theorem walkInstructionsComplete : Obligations.WalkInstructionsComplete := by
  intro s s1 th u f bs h hu
  refine ⟨fun hld => ?ldi, fun hld => ?ldv, fun q hq => ⟨?emit, ?emitz, wEnd_completes h hq⟩, ?adv, ?sel⟩
  case ldi =>
    exact asInstr_yields h ((Yields.readX h _).bind (hld.bind ((Yields.writeX hu _ _).bind ((Yields.walkerInc (hu.setX _ _ _) _ _).bind
      (.pure _ _)))))
  case ldv =>
    exact asInstr_yields h ((Yields.readX h _).bind (hld.bind ((Yields.writeV hu _ _).bind ((Yields.walkerInc (hu.setV _ _ _) _ _).bind
      (.pure _ _)))))
  case emit => exact asInstr_yields h (.emitRow h hq _)
  case emitz => exact asInstr_yields h ((Yields.readX h _).bind (.emitRow h hq _))
  case adv => exact asInstr_yields h ((Yields.readX h _).bind ((Yields.readX h _).bind (.writeNext h _ _)))
  case sel => exact asInstr_yields h ((Yields.readV h _).bind ((Yields.readX h _).bind (.writeNextV h _ _)))

end Sys2Proof
end

section
/-!
PROOFS. Class 0xA: ROW.OPEN, ROW.HOLD and ROW.REL, transactional groups, the safe points and ATTN complete (R264, R265, R276, R278, R280 to
R282, R331).
-/
namespace Sys2Proof
open Sys2Proof.Machine

section Kept
variable {s t : State} {th : Thread}

/-- A state set, and the last write of an instruction that names a scalar register. -/
theorem Yields.setWriteNext (h : AtIssue t th) (n : Nat) (w : Word) :
    Yields (do MonadStateOf.set t; Exec.writeX n w; return Flow.next) s .next (t.setX th.row n w) :=
  (Yields.set s t).bind (.writeNext h n w)

theorem AtIssue.pokeWord (h : AtIssue s th) (a : Nat) (w : Word) : AtIssue (s.pokeWord a w) th := h.poke _ _

theorem AtIssue.setBuf (h : AtIssue s th) (sub : Nat) (b : BufState) : AtIssue (s.setBuf sub b) th := h.of_eq rfl rfl

theorem AtIssue.unclaim (h : AtIssue s th) (sub who : Nat) : AtIssue (s.unclaim sub who) th := h.of_eq rfl rfl

theorem AtIssue.setHold (h : AtIssue s th) (row k st rown : Nat) : AtIssue (s.setHold row k st rown) th := by
  dsimp only [State.setHold]
  split
  · exact h.pokeWord _ _
  · exact (h.pokeWord _ _).pokeWord _ _

theorem AtIssue.clearGroup (h : AtIssue s th) (u : Thread) : AtIssue (s.clearGroup u) th :=
  AtIssue.pokeWord (s := { s with shadows := s.shadows.filter (·.thread != u.id) }) (h.of_eq rfl rfl) _ _

theorem AtIssue.pokeAll (h : AtIssue s th) (a : Nat) (bs : List Byte) : AtIssue (s.pokeAll a bs) th := by
  dsimp only [State.pokeAll]
  induction lineParts a bs.length generalizing s with
  | nil => exact h
  | cons p ps ih => exact ih (h.poke _ _)

theorem AtIssue.attnWrite (h : AtIssue s th) (a : Nat) (st : AttnState) : AtIssue (s.attnWrite a st) th := (h.poke _ _).pokeAll _ _

end Kept

section Rows
variable {s : State} {th : Thread} {b : BufState}

/-- ROW.HOLD may take a buffer that is FREE or OPEN, or held by its own thread (R265). -/
def holdable (b : BufState) (id : Nat) : Bool :=
  match b with
  | .free | .opened _ => true
  | .held _ t => t == id
  | .thread _ => false

theorem not_claims_of_holdable {id : Nat} (h : b = .free ∨ (∃ r, b = .opened r) ∨ ∃ r, b = .held r id) : ¬ (! holdable b id) = true := by
  obtain rfl | ⟨r, rfl⟩ | ⟨r, rfl⟩ := h <;> simp [holdable]

/-- A scalar register written in the row of a thread that has kept its row since. -/
theorem Yields.writeX_row {row : Nat} (h : AtIssue s th) (hr : th.row = row) (n : Nat) (w : Word) :
    Yields (Exec.writeX n w) s () (s.setX row n w) :=
  hr ▸ .writeX h n w

end Rows

/-- Settles O39: each instruction by what it finds in its subarray's buffer and in its hold entry. -/
theorem rowInstructionsComplete : Obligations.RowInstructionsComplete := by
  intro s s1 s2 s3 th u u2 u3 f dp l va h hrow hu hu2 hu3 b hs policy
  refine ⟨fun hcheck => ⟨fun hown => ?openOwn, fun hown htaken => ?openTaken, fun hown hfree hact => ?openActivates⟩,
    fun hb => ⟨fun hbound hr => ?holdAgain, fun hno hown hpage hrow3 => ?holdOwn, fun hno hown hpage hact hrow2 => ?holdActivates⟩,
    fun hs0 hr => ?rel, fun hno => ?relNone⟩
  case openOwn => exact asInstr_yields h (hrow.bind (hcheck.bind ((Yields.get _).bind (.pos hown (.writeNext hu _ _)))))
  case openTaken =>
    refine asInstr_yields h (hrow.bind (hcheck.bind ((Yields.get _).bind (.neg hown ?_))))
    dsimp only [b] at htaken
    obtain ⟨r, hb⟩ | ⟨r, t, hb⟩ := htaken
    all_goals
      rw [hb]
      exact .writeNext hu _ _
  case openActivates =>
    refine asInstr_yields h (hrow.bind (hcheck.bind ((Yields.get _).bind (.neg hown ?_))))
    dsimp only [b] at hfree
    obtain hb | ⟨r, hb⟩ := hfree
    all_goals
      rw [hb]
      exact hact.bind (.writeNext hu2 _ _)
  case holdAgain =>
    exact asInstr_yields h (hrow.bind ((Yields.get _).bind ((Yields.me hu).bind (.neg (not_claims_of_holdable hb) (.pos ⟨hbound, hr⟩
      (.setWriteNext (hu.setHold _ _ _ _) _ _))))))
  case holdOwn =>
    exact asInstr_yields h (hrow.bind ((Yields.get _).bind ((Yields.me hu).bind (.neg (not_claims_of_holdable hb) (.neg hno (hpage.bind
      ((Yields.get _).bind (.pos hown ((Yields.set _ _).bind ((Yields.writeX_row ((hu3.setBuf _ _).unclaim _ _) hrow3 _ _).bind
        ((Yields.modify _ _).bind (.pure _ _))))))))))))
  case holdActivates =>
    exact asInstr_yields h (hrow.bind ((Yields.get _).bind ((Yields.me hu).bind (.neg (not_claims_of_holdable hb) (.neg hno (hpage.bind
      ((Yields.get _).bind (.neg hown (hact.bind ((Yields.writeX_row hu2 hrow2 _ _).bind ((Yields.modify _ _).bind (.pure _ _))))))))))))
  case rel =>
    have hkept : AtIssue (if hs = 3 then s1 else s1.setBuf l.subId (.opened l.rown)) u := by
      split
      · exact hu
      · exact hu.setBuf _ _
    exact asInstr_yields h (hrow.bind ((Yields.get _).bind ((Yields.me hu).bind (.pos ⟨hs0, hr⟩
      (.setWriteNext (hkept.setHold _ _ _ _) _ _)))))
  case relNone =>
    have hnone : ¬ (hs ≠ 0 ∧ s1.holdRow u.row l.sub = l.rown) := fun hn => hno.elim hn.1 fun hr => hr hn.2
    exact asInstr_yields h (hrow.bind ((Yields.get _).bind ((Yields.me hu).bind (.neg hnone (.writeNext hu _ _)))))

section SafePoint
variable {s : State} {th : Thread}

theorem exchangeHolds_pokeWord (s : State) (th : Thread) (a : Nat) (w : Word) : (s.pokeWord a w).exchangeHolds th = s.exchangeHolds th := by
  simp [State.exchangeHolds, State.inExchange, State.islandOn]

/-- A safe point closes a row whose pre-emption was deferred, unless its domain's exchange holds it (R282, R331). -/
theorem Yields.safePoint (h : AtIssue s th) :
    Yields safePoint s (if th.deferred.isSome && ! s.exchangeHolds th then .close 2 else .next) s := by
  refine (Yields.get _).bind ((Yields.me h).bind ?_)
  split
  · exact .pure _ _
  · exact .pure _ _

end SafePoint

/-- Settles O40: each instruction by its group and its safe point. -/
theorem groupAndSafePointInstructionsComplete : Obligations.GroupAndSafePointInstructionsComplete := by
  intro s th f h other point
  refine ⟨fun hg => ?again, fun hg ho => ?otherGroup, fun hg ho => ?begins, fun hsb hg => ?noGroup, fun hsb hg hd => ?doomed,
    fun u hsb hg hd hu => ?commits, ?aborts, ?point, ?inMem, ?outOfMem⟩
  case again => exact asInstr_yields h ((Yields.get _).bind ((Yields.me h).bind (.pos hg (.writeNext h _ _))))
  case otherGroup =>
    exact asInstr_yields h ((Yields.get _).bind ((Yields.me h).bind (.neg (by simp [hg]) (.pos ho (.writeNext h _ _)))))
  case begins =>
    exact asInstr_yields h ((Yields.get _).bind ((Yields.me h).bind (.neg (by simp [hg]) (.neg (Bool.eq_false_iff.1 ho)
      (.setWriteNext (h.pokeWord _ _) _ _)))))
  case noGroup =>
    exact asInstr_yields h ((Yields.sbEmpty h hsb).bind ((Yields.get _).bind ((Yields.me h).bind (.pos (by simp [hg]) (.writeNext h _ _)))))
  case doomed =>
    exact asInstr_yields h ((Yields.sbEmpty h hsb).bind ((Yields.get _).bind ((Yields.me h).bind (.neg (by simp [hg]) (.pos hd
      (.setWriteNext (h.clearGroup _) _ _))))))
  case commits =>
    exact asInstr_yields h ((Yields.sbEmpty h hsb).bind ((Yields.get _).bind ((Yields.me h).bind (.neg (by simp [hg]) (.neg (by omega)
      (.setWriteNext hu _ _))))))
  case aborts => exact asInstr_yields h ((Yields.me h).bind ((Yields.modify _ _).bind (.pure _ _)))
  case point => exact asInstr_yields h (.safePoint h)
  case inMem => exact asInstr_yields h ((Yields.myRow h).bind ((Yields.modify _ _).bind (.pure _ _)))
  case outOfMem =>
    have hpoint := Yields.safePoint (h.pokeWord (th.row + 0x7E0) (setField (s.bstat th.row) 24 1 0))
    rw [exchangeHolds_pokeWord] at hpoint
    exact asInstr_yields h ((Yields.me h).bind ((Yields.modify _ _).bind (hpoint.bind ((Yields.modify _ _).bind (.pure _ _)))))

section Attn
variable {s : State} {th : Thread} {f : FA} {row : Nat} {w : Word}

/-- The last move of ATTN writes its token count and clears PROG (R281). -/
theorem yields_attnDone (h : AtIssue s th) (hr : th.row = row) :
    Yields (do Exec.writeX (xnum f.d) w; modify fun s => s.setCtrl row 0 32 32 0; return Flow.next) s .next
      ((s.setX row (xnum f.d) w).setCtrl row 0 32 32 0) :=
  (Yields.writeX_row h hr _ _).bind ((Yields.modify _ _).bind (.pure _ _))

end Attn

/-- Settles O41: after the checks of the operands, a move with every page done, and a move of one page, which is the last one or not. -/
theorem attentionCompletes : Obligations.AttentionCompletes := by
  intro s th f qa sa h d qv sv H n perPage pages g init done hlh hq hsv hqa hsa
  refine ⟨fun hpages => ?noPage, fun s1 s' s2 page va ks vs u hg hpage hu hrow hks hvs => ⟨fun hmore => ?page, fun hlast => ?lastPage⟩⟩
  all_goals
    refine asInstr_yields h ((Yields.readV h _).bind ((Yields.readX h _).bind ((Yields.readX h _).bind
      ((Yields.require _ (beq_iff_eq.2 hq)).bind ((Yields.require _ (beq_iff_eq.2 hsv)).bind ((Yields.require _ (decide_eq_true hlh)).bind
        (hqa.bind (hsa.bind ((Yields.myRow h).bind ((Yields.get _).bind ?_))))))))))
  case noPage =>
    have hu : AtIssue (if init then s.attnWrite sa (attnInit H) else s) th := by
      split
      · exact h.attnWrite _ _
      · exact h
    exact .pos hpages (yields_when (fun hi => yields_modify_to (if_pos hi).symm) (fun hi => if_neg hi) (yields_attnDone hu rfl))
  case page =>
    exact .neg (Nat.not_le.2 hg) (hpage.bind (hks.bind (hvs.bind ((Yields.get _).bind ((Yields.modify _ _).bind (.pos hmore
      ((Yields.modify _ _).bind (.pure _ _))))))))
  case lastPage =>
    exact .neg (Nat.not_le.2 hg) (hpage.bind (hks.bind (hvs.bind ((Yields.get _).bind ((Yields.modify _ _).bind (.neg (Nat.not_lt.2 hlast.ge)
      (yields_attnDone (hu.attnWrite _ _) hrow)))))))

end Sys2Proof
end

section
/-!
PROOFS. The events of the banks, of Encke, of the exchanges and of the queues: refresh, the activation regulator, claims, deferred pre-emptions, slot
boundaries and the deadlock guard (R261, R268, R270, R272, R283, R331, R337).
-/
namespace Sys2Proof
open Sys2Proof.Machine

namespace Machine.State

section Banks
variable {s : State} {sub : Nat}

theorem refreshSub_opened {r : Nat} (hb : (s.subarray sub).buf = .opened r) : s.refreshSub sub = s.setBuf sub .free := by
  simp only [refreshSub, hb]

theorem refreshSub_occupied {r : Nat} (hb : (s.subarray sub).buf = .thread r ∨ ∃ id, (s.subarray sub).buf = .held r id) :
    s.refreshSub sub = s.setSub { s.subarray sub with refreshing := true } := by
  obtain hb | ⟨id, hb⟩ := hb <;> simp only [refreshSub, hb]

theorem reactivate_granted (hr : (s.subarray sub).refreshing = true) (hf : s.regulatorFree (sub / 131072) (sub % 131072 / 2048) = true) :
    s.reactivate sub = (s.charge (sub / 131072) (sub % 131072 / 2048)).setSub { s.subarray sub with refreshing := false } := by
  simp only [reactivate, subPlace]
  exact if_neg (by simp [hr, hf])

theorem claimTimeout_due {c : Nat × Nat} {rest : List (Nat × Nat)} {id : Nat} {th : Thread} (hc : (s.subarray sub).claims = c :: rest)
    (ho : s.occupant? sub = some id) (hth : s.thread? id = some th) (ht : c.2 + 2048000 ≤ s.islandTicks (16 + sub / 393216))
    (hp : s.mayPreempt th = true) : s.claimTimeout sub = s.preempt th := by
  simp only [claimTimeout, hc, ho, hth]
  rw [if_neg (Nat.not_lt.2 ht), if_pos hp]

/-- The activate that has waited longest opens its row in a buffer that is FREE or OPEN (R270, R272). -/
theorem grant_opens {stack key : Nat} {r : StackRegs} {rest : List Nat} (hr : s.stackRegs[stack]? = some r) (hw : r.waiting = key :: rest)
    (hf : s.regulatorFree stack (key / 256 % 131072 / 2048) = true) (hp : s.refreshPending stack = false) (hg : s.takesGrant key = false) :
    let next := s.updStack stack fun r => { r with waiting := r.waiting.drop 1 }
    (next.subarray (key / 256)).buf = .free ∨ (∃ r, (next.subarray (key / 256)).buf = .opened r) →
      s.grant stack = (next.charge stack (key / 256 % 131072 / 2048)).setBuf (key / 256) (.opened (key % 256)) := by
  intro next hb
  simp only [grant, hr, subPlace, Option.bind_some, hw, List.head?_cons]
  refine (if_neg (by simp [hf, hp, hg])).trans ?_
  obtain hb | ⟨q, hb⟩ := hb
  all_goals
    dsimp only [next] at hb
    rw [hb]

end Banks

section Encke
variable {s : State} {th : Thread} {t : Nat} {r : StackRegs}

theorem enckeLimits_of_some (hr : s.stackRegs[th.place / 16384]? = some r) : s.enckeLimits th = (r.lim1, r.lim2) := by
  simp only [enckeLimits, hr]

theorem encke_due {id : Nat} (hth : s.thread? id = some th) (hd : th.deferred = some t) (hs : th.slot.isSome = true) (hc : th.closing = none)
    (hr : s.stackRegs[th.place / 16384]? = some r) (hl : r.lim1 ≤ s.cyclesSince th t) :
    s.encke id = (s.takeFault id .watchdog 0).progressClose id false := by
  have hdue : s.enckeDue th = true := by simp [enckeDue, deferredAt, hs, hc, hd, enckeLimits_of_some hr, hl]
  simp only [encke, hth]
  exact if_neg (by simp [hdue])

theorem channelReset_late {stack ch : Nat} (hmem : th ∈ s.threads) (he : th.exec = .bank) (hst : th.place / 16384 = stack)
    (hch : th.place % 16384 / 512 = ch) (hs : th.slot.isSome = true) (hd : th.deferred = some t) (hr : s.stackRegs[stack]? = some r)
    (hl : r.lim1 + r.lim2 ≤ s.cyclesSince th t) : s.channelReset stack ch = s.resetChannel stack ch := by
  subst hst hch
  refine if_pos (List.any_eq_true.2 ⟨th, hmem, ?_⟩)
  simp [he, hs, hd, enckeLimits_of_some hr, hl]

end Encke

/-- The rows that wait for a slot boundary wake in the order of the threads (R331). -/
theorem slotBoundary_wakes (s : State) (name : Nat) :
    s.slotBoundary name = ((s.threads.filter (waitsForSlot name)).map (·.id)).foldl (fun s id => s.waitWake id) s := by
  rw [List.foldl_map, List.foldl_filter]
  refine congrArg (fun f => List.foldl f s s.threads) (funext₂ fun s t => ?_)
  unfold waitsForSlot
  generalize t.waitsFor = w
  cases w with
  | none => rfl
  | some c =>
    cases c with
    | slot n _ _ _ => exact if_congr beq_iff_eq.symm rfl rfl
    | _ => rfl

section Guard

/-- A queue grows before another: its capacity is less, or the same with a lower number (R337). -/
def growsBefore (u v : Queue) : Prop := u.cap < v.cap ∨ u.cap = v.cap ∧ u.num < v.num

theorem growsBefore.asymm {u v : Queue} (h : growsBefore u v) : ¬ growsBefore v u := by
  unfold growsBefore at *
  omega

/-- The queue that grows, of one that is chosen already and the next. -/
def leastOf (b : Option Queue) (u : Queue) : Option Queue :=
  match b with
  | none => some u
  | some v => if u.cap < v.cap ∨ (u.cap = v.cap ∧ u.num < v.num) then some u else b

theorem leastOf_mem {b : Option Queue} {x v : Queue} (h : leastOf b x = some v) : x = v ∨ b = some v := by
  cases b with
  | none => exact .inl (Option.some.inj h)
  | some w =>
    dsimp only [leastOf] at h
    split at h
    · exact .inl (Option.some.inj h)
    · exact .inr h

/-- A queue that grows before the other of the two stays chosen. -/
theorem leastOf_eq {b : Option Queue} {x u : Queue} (hu : x = u ∨ b = some u) (hx : x ≠ u → growsBefore u x)
    (hb : ∀ v, b = some v → v ≠ u → growsBefore u v) : leastOf b x = some u := by
  cases b with
  | none => exact congrArg some (hu.resolve_right (Option.some_ne_none u).symm)
  | some w =>
    by_cases hw : w = u
    · subst hw
      by_cases hxw : x = w
      · subst hxw
        exact ite_self _
      · exact if_neg ((hx hxw).asymm)
    · obtain rfl := hu.resolve_right fun h => hw (Option.some.inj h)
      exact if_pos (hb w rfl hw)

/-- The queue that grows before every other one of a list is the one that is chosen from it. -/
theorem foldl_leastOf {us : List Queue} {b : Option Queue} {u : Queue} (hu : u ∈ us ∨ b = some u)
    (hus : ∀ v ∈ us, v ≠ u → growsBefore u v) (hb : ∀ v, b = some v → v ≠ u → growsBefore u v) : us.foldl leastOf b = some u := by
  induction us generalizing b with
  | nil => exact hu.resolve_left List.not_mem_nil
  | cons x us ih =>
    have hx := hus x List.mem_cons_self
    refine ih ?_ (fun v hv => hus v (List.mem_cons_of_mem x hv)) fun v hv hne => ?_
    · obtain hmem | hbu := hu
      · obtain rfl | hmem := List.mem_cons.1 hmem
        · exact .inr (leastOf_eq (.inl rfl) hx hb)
        · exact .inl hmem
      · exact .inr (leastOf_eq (.inr hbu) hx hb)
    · obtain rfl | hbv := leastOf_mem hv
      · exact hx hne
      · exact hb v hbv hne

/-- The queues of a cluster that are the targets of some threads (R337). -/
def targetsOf (s : State) (c : Nat) (ths : List Thread) : List Queue :=
  s.queues.filter fun u => u.cluster == c && ths.any fun th => pushTarget th == some u.num

theorem mem_targetsOf {s : State} {c : Nat} {ths : List Thread} {u : Queue} : u ∈ s.targetsOf c ths ↔ u ∈ s.queues ∧ IsTarget c ths u := by
  simp [targetsOf, IsTarget]

/-- The largest blocked cycle of a cluster (R337). -/
def guardCycle (s : State) (c : Nat) : List Thread := s.blockedCycle c (s.blockedPushers c).length (s.blockedPushers c)

/-- What the guard does about a blocked cycle (R337), by the target queue that it finds. -/
def guardActs (s : State) (c : Nat) : Option Queue → State
  | none => s
  | some u =>
    if s.poolUsed c + 16 ≤ 8192 then
      { s with queues := s.queues.map fun v => if v.cluster = c ∧ v.num = u.num then { v with cap := v.cap + 16 } else v }
    else (s.guardCycle c).foldl (fun s th => (s.takeFault th.id .qdeadlock 0).progressClose th.id false) s

theorem deadlockGuard_eq (s : State) (c : Nat) : s.deadlockGuard c = s.guardActs c ((s.targetsOf c (s.guardCycle c)).foldl leastOf none) := rfl

/-- The guard acts on the target queue that grows before the others (R337). -/
theorem deadlockGuard_target {s : State} {c : Nat} {u : Queue} (hmem : u ∈ s.queues) (hu : IsTarget c (s.guardCycle c) u)
    (hleast : ∀ v ∈ s.queues, IsTarget c (s.guardCycle c) v → v ≠ u → growsBefore u v) : s.deadlockGuard c = s.guardActs c (some u) := by
  refine (s.deadlockGuard_eq c).trans (congrArg _ (foldl_leastOf (.inl (mem_targetsOf.2 ⟨hmem, hu⟩)) (fun v hv => ?_) fun v hv => nomatch hv))
  obtain ⟨hv, ht⟩ := mem_targetsOf.1 hv
  exact hleast v hv ht

end Guard

end Machine.State

section Events
variable {s t : State} {n m : Nat}

theorem does_subarrayRefresh (h : s.inp = .unit n) (ht : s.refreshSub n = t) : Does .subarrayRefresh s t := by
  show execSubarrayRefresh s = _
  simp only [execSubarrayRefresh, h, ht]

theorem does_refreshReactivate (h : s.inp = .unit n) (ht : s.reactivate n = t) : Does .refreshReactivate s t := by
  show execRefreshReactivate s = _
  simp only [execRefreshReactivate, h, ht]

theorem does_activateGrant (h : s.inp = .unit n) (ht : s.grant n = t) : Does .activateGrant s t := by
  show execActivateGrant s = _
  simp only [execActivateGrant, h, ht]

theorem does_claimTimeout (h : s.inp = .unit n) (ht : s.claimTimeout n = t) : Does .claimTimeout s t := by
  show execClaimTimeout s = _
  simp only [execClaimTimeout, h, ht]

theorem does_enckeWatchdog (h : s.inp = .unit n) (ht : s.encke n = t) : Does .enckeWatchdog s t := by
  show execEnckeWatchdog s = _
  simp only [execEnckeWatchdog, h, ht]

theorem does_channelReset (h : s.inp = .pair n m) (ht : s.channelReset n m = t) : Does .channelReset s t := by
  show execChannelReset s = _
  simp only [execChannelReset, h, ht]

theorem does_slotBoundary (h : s.inp = .unit n) (ht : s.slotBoundary n = t) : Does .slotBoundary s t := by
  show execSlotBoundary s = _
  simp only [execSlotBoundary, h, ht]

theorem does_deadlockGuard (h : s.inp = .unit n) (ht : s.deadlockGuard n = t) : Does .deadlockGuard s t := by
  show execDeadlockGuard s = _
  simp only [execDeadlockGuard, h, ht]

end Events

open State in
/-- Settles O60: each event by the lemma of its case; the deadlock guard by the target queue that its fold chooses. -/
theorem watchdogAndRefreshEventsTakeEffect : Obligations.WatchdogAndRefreshEventsTakeEffect := by
  intro s
  refine ⟨fun sub h => ⟨fun r hb => ?opened, fun r hb => ?occupied, fun hr hf => ?reactivates, fun c rest id th hc ho hth ht hp => ?claim⟩,
    fun stack r key rest h hr hw hf hp hg hb => ?grants, fun id th t r h hth hd hs hc hr hl => ?encke,
    fun stack ch th t r h hmem he hst hch hs hd hr hl => ?resets, fun name h => ?slots,
    fun c u h hmem hu hleast => ⟨fun hroom => ?grows, fun hfull => ?faults⟩⟩
  case opened => exact does_subarrayRefresh h (refreshSub_opened hb)
  case occupied => exact does_subarrayRefresh h (refreshSub_occupied hb)
  case reactivates => exact does_refreshReactivate h (reactivate_granted hr hf)
  case claim => exact does_claimTimeout h (claimTimeout_due hc ho hth ht hp)
  case grants => exact does_activateGrant h (grant_opens hr hw hf hp hg hb)
  case encke => exact does_enckeWatchdog h (encke_due hth hd hs hc hr hl)
  case resets => exact does_channelReset h (channelReset_late hmem he hst hch hs hd hr hl)
  case slots => exact does_slotBoundary h (s.slotBoundary_wakes name)
  case grows => exact does_deadlockGuard h ((deadlockGuard_target hmem hu hleast).trans (if_pos hroom))
  case faults => exact does_deadlockGuard h ((deadlockGuard_target hmem hu hleast).trans (if_neg (Nat.not_le.2 hfull)))

end Sys2Proof
end

section
/-!
PROOFS. Class 0xE: that reads and writes of control registers, routine loads, writes and invalidations of translations, and the services of
SYS.TRAP, SYS.LOG, SYS.MPOST and SYS.SCRUB complete (R352 to R355, R357, R359, R371).
-/
namespace Sys2Proof
open Sys2Proof.Machine

/-- What has yielded after a part has that part yield first. -/
theorem Yields.of_bind {α β : Type} {m : Exec α} {k : α → Exec β} {s u : State} {b : β} (h : Yields (m >>= k) s b u) :
    ∃ a t, Yields m s a t ∧ Yields (k a) t b u := by
  unfold Yields at h
  rw [StateT.run_bind] at h
  cases hm : m.run s with
  | error e => rw [hm] at h; cases h
  | ok r => exact ⟨r.1, r.2, hm, by rw [hm] at h; exact h⟩

/-- A change of the state leaves the state that it comes to. -/
theorem yields_modify {s t : State} {f : State → State} (h : f s = t) : Yields (modify f) s ⟨⟩ t := h ▸ .modify f s

section LowBit
variable {v mask : Word}

theorem field_low_bit (v : Word) : field v 0 1 = (v.getLsbD 0).toNat := by
  rcases Nat.mod_two_eq_zero_or_one v.toNat with hv | hv <;> simp [field, bitsAt, BitVec.getLsbD, Nat.testBit_zero, hv]

theorem or_one_of_low_bit (hv : field v 0 1 = 1) : v ||| 1 = v := by
  have h0 : v.getLsbD 0 = true := by simpa [field_low_bit] using hv
  refine BitVec.eq_of_getLsbD_eq fun i _ => ?_
  by_cases hi : i = 0
  · subst hi
    simp only [BitVec.getLsbD_or, h0, Bool.true_or]
  · simp [hi]

end LowBit

section Registers
variable {s t : State} {th : Thread} {cr tenant i : Nat} {a v : Word} {c : CrInfo}

/-- R5: the state once a write's reserved bits have been discarded, and logged if there were any. -/
def reservedLogged (s : State) (mask v : Word) : State := if v &&& ~~~mask ≠ 0 then s.logRec .reservedWrite [v] else s

theorem reservedLogged_tenant? (mask : Word) : (reservedLogged s mask v).tenant? tenant = s.tenant? tenant := by
  unfold reservedLogged
  split <;> rfl

theorem reservedLogged_zero (mask : Word) : reservedLogged s mask 0 = s := if_neg (by simp)

theorem Yields.crValue (mask : Word) : Yields (crValue mask v) s (v &&& mask) (reservedLogged s mask v) := by
  unfold reservedLogged
  split
  · next hr => exact .pos hr ((Yields.modify _ _).bind (.pure _ _))
  · next hr => exact .neg hr (.pure _ _)

/-- The checks of a register have found its entry in the table of R353. -/
theorem crInfo_of_crCheck {write : Bool} (h : Yields (crCheck cr a write) s (c, tenant, i) t) : crInfo cr = some c := by
  unfold crCheck at h
  cases hc : crInfo cr with
  | none => rw [hc] at h; cases h
  | some c' =>
    rw [hc] at h
    obtain ⟨_, _, -, h⟩ := h.of_bind
    obtain ⟨_, _, -, h⟩ := h.of_bind
    obtain ⟨_, _, -, h⟩ := h.of_bind
    obtain ⟨_, _, -, h⟩ := h.of_bind
    cases h
    rfl

/-- A write that passes the checks ends as the write of RTAB does, or in the state that the write of any other register leaves. -/
theorem writeCr_yields (h : AtIssue s th) (he : th.sb = []) (hck : Yields (crCheck cr a true) s (c, tenant, i) s)
    (hasid : cr = 0x33 → ∃ t, s.tenant? tenant = some t ∧ t.asidFirst ≤ field v 0 10 ∧ field v 0 10 < t.asidFirst + t.asidCount)
    (hrtab : cr = 0x80 → Yields (rtabWrite tenant i (v &&& c.mask)) (reservedLogged s c.mask v) () t)
    (hother : cr ≠ 0x80 → controlRegisterWritten s c cr tenant i v = t) : Yields (writeCr cr a v) s .next t := by
  refine hck.bind ((Yields.sbEmpty h he).bind ((Yields.get s).bind (.neg ?inRange ((Yields.crValue c.mask).bind ?_))))
  case inRange =>
    by_cases hcr : cr = 0x33
    · obtain ⟨t, ht, hlo, hhi⟩ := hasid hcr
      simp [ht, hlo, hhi]
    · simp [hcr]
  by_cases hcr : cr = 0x80
  · exact .pos hcr ((hrtab hcr).bind (.pure _ _))
  · refine .neg hcr (Yields.bind (yields_modify ?_) (.pure _ _))
    rw [← hother hcr]
    unfold controlRegisterWritten
    cases c.perTenant <;> rfl

end Registers

section Routines
variable {s s1 : State} {th : Thread} {tenant k : Nat} {a v : Word} {c : CrInfo} {t : Tenant} {body : List Line}

/-- R355: what a load makes of an image: a routine with its bound, or status 2. -/
def loadedRoutine (t : Tenant) (k : Nat) (body : List Line) : Routine :=
  if ! body.isEmpty && body.all fun l => (List.range 5).all fun i => routineWordOk (slotWord l i) then
    ⟨1, field ((assoc t.rtabb k).getD 0) 0 12 + 1, body⟩ else ⟨2, 0, []⟩

/-- A tenant's entry of the routine table is set. -/
def routineSet (s : State) (t : Tenant) (k : Nat) (r : Routine) : State := s.setTenant { t with routines := assocSet t.routines k r }

theorem rtabWrite_load (hv : field v 0 1 = 1) (hi : Yields (imageLines (.ofNat 64 (field v 6 50 * 64)) 16 0) s body s1)
    (ht : s1.tenant? tenant = some t) : Yields (rtabWrite tenant k v) s () (routineSet s1 t k (loadedRoutine t k body)) := by
  refine Yields.bind (a := loadedRoutine t k body) (t := s1) (.neg (by simp [hv]) (hi.bind ((Yields.get s1).bind ?routine))) ?set
  case routine =>
    rw [ht]
    exact .pure _ _
  case set => exact yields_modify (by simp only [ht]; rfl)

theorem rtabWrite_empty (hv : field v 0 1 = 0) (ht : s.tenant? tenant = some t) :
    Yields (rtabWrite tenant k v) s () (routineSet s t k ⟨0, 0, []⟩) := by
  exact Yields.bind (.pos hv (.pure _ _)) (yields_modify (by simp only [ht]; rfl))

/-- RTAB stores bit 0 of the value written (R353). -/
theorem rtabMask_low_bit (hc : crInfo 0x80 = some c) : field (v &&& c.mask) 0 1 = field v 0 1 := by
  have hm : c.mask.getLsbD 0 = true := by
    cases hc
    decide
  rw [field_low_bit, field_low_bit, BitVec.getLsbD_and, hm, Bool.and_true]

variable (h : AtIssue s th) (he : th.sb = []) (hck : Yields (crCheck 0x80 a true) s (c, tenant, k) s)
include h he hck

theorem writeCr_load (hv : field v 0 1 = 1) (ht : s1.tenant? tenant = some t)
    (hi : Yields (imageLines (.ofNat 64 (field (v &&& c.mask) 6 50 * 64)) 16 0) (reservedLogged s c.mask v) body s1) :
    Yields (writeCr 0x80 a v) s .next (routineSet s1 t k (loadedRoutine t k body)) := by
  have hbit := rtabMask_low_bit (v := v) (crInfo_of_crCheck hck)
  exact writeCr_yields h he hck nofun (fun _ => rtabWrite_load (hbit.trans hv) hi ht) (absurd rfl ·)

theorem writeCr_empty (hv : field v 0 1 = 0) (ht : s.tenant? tenant = some t) :
    Yields (writeCr 0x80 a v) s .next (routineSet (reservedLogged s c.mask v) t k ⟨0, 0, []⟩) := by
  have hbit := rtabMask_low_bit (v := v) (crInfo_of_crCheck hck)
  exact writeCr_yields h he hck nofun (fun _ => rtabWrite_empty (hbit.trans hv) ((reservedLogged_tenant? _).trans ht)) (absurd rfl ·)

end Routines

/-- Settles O48: a read by its checks, and the writes, of which WRCR's three kinds of words are one, by theirs. -/
theorem controlRegisterAccessesComplete : Obligations.ControlRegisterAccessesComplete := by
  intro s th f c tenant i h
  have ra := Yields.readX h (xnum f.a)
  have rb := Yields.readX h (xnum f.b)
  refine ⟨fun hck => ?read, fun hcr hck he hasid => ?wrcr, fun hck he hasid => ?clhalt, fun hck he hasid => ?wacnt⟩
  case read => exact asInstr_yields h (ra.bind (hck.bind ((Yields.get s).bind (.writeNext h _ _))))
  case wrcr => exact asInstr_yields h (ra.bind (rb.bind (writeCr_yields h he hck hasid (absurd · hcr) fun _ => rfl)))
  case clhalt => exact asInstr_yields h (ra.bind (rb.bind (writeCr_yields h he hck hasid nofun fun _ => rfl)))
  case wacnt => exact asInstr_yields h (ra.bind (rb.bind (writeCr_yields h he hck hasid nofun fun _ => rfl)))

/-- Settles O49: a value with bit 0 set loads an image, and one with bit 0 clear empties the entry. -/
theorem routineTableWritesComplete : Obligations.RoutineTableWritesComplete := by
  intro s s1 th f c tenant k t h he v set hck logged
  have ra := Yields.readX h (xnum f.a)
  have rb := Yields.readX h (xnum f.b)
  refine ⟨fun body ht hi => ⟨?load, fun hsel hv => ?wrcrLoad⟩, fun ht => ⟨?empty, fun hsel hv => ?wrcrEmpty⟩⟩
  case load =>
    have hv : field (v ||| 1) 0 1 = 1 := by simp [field_low_bit]
    exact asInstr_yields h (ra.bind (rb.bind (writeCr_load h he hck hv ht hi)))
  case wrcrLoad =>
    rw [or_one_of_low_bit hv] at hi
    refine asInstr_yields h (ra.bind (rb.bind ?_))
    rw [hsel]
    exact writeCr_load h he hck hv ht hi
  case empty =>
    have hw := writeCr_empty h he hck (v := 0) rfl ht
    rw [reservedLogged_zero] at hw
    exact asInstr_yields h (ra.bind (rb.bind hw))
  case wrcrEmpty =>
    refine asInstr_yields h (ra.bind (rb.bind ?_))
    rw [hsel]
    exact writeCr_empty h he hck hv ht

/-- Settles O50: each instruction by the issuer's privilege, and then by the checks of its operands. -/
theorem translationInstructionsComplete : Obligations.TranslationInstructionsComplete := by
  intro s s1 th f h a b d p size va
  have ra := Yields.readX h (xnum f.a)
  have rb := Yields.readX h (xnum f.b)
  have rd := Yields.readX h (xnum f.d)
  refine ⟨fun hp => ?tlbwrPriv, fun hp => ?tlbinvPriv, fun u hp h3 hz hz' hleaf hva hu => ?tlbwr,
    fun counter hp hd he hcounter => ?tlbinv⟩
  case tlbwrPriv =>
    exact asInstr_faults h (.bind ra (.bind rb (.bind (.get s) (.bind (.me h) (.left (.require _ (beq_false_of_ne hp)))))))
  case tlbinvPriv =>
    refine asInstr_faults h (.bind rd (.bind ra (.bind rb (.bind (.get s) (.bind (.myRow h) (.left (.require _ ?_)))))))
    exact decide_eq_false (by omega)
  case tlbwr =>
    refine asInstr_yields h (ra.bind (rb.bind ((Yields.get s).bind ((Yields.me h).bind ((Yields.require _ (beq_iff_eq.2 hp)).bind ?_)))))
    refine (Yields.require _ ?fields).bind ((Yields.require _ (beq_iff_eq.2 hva)).bind ?_)
    case fields => simpa [and_assoc] using And.intro h3 ⟨hz, hz', hleaf⟩
    rw [hu]
    exact (Yields.modify _ _).bind (.pure _ _)
  case tlbinv =>
    intro own hown
    refine asInstr_yields h (rd.bind (ra.bind (rb.bind ((Yields.get s).bind ((Yields.myRow h).bind ?_)))))
    refine (Yields.require _ (decide_eq_true hp)).bind ((Yields.require _ (beq_iff_eq.2 hd)).bind ((Yields.require _ ?named).bind ?_))
    case named => simpa [or_assoc] using hown
    exact (Yields.sbEmpty h he).bind (hcounter.bind ((Yields.modify _ _).bind (.pure _ _)))

section Posts
variable {s s1 : State} {th x : Thread} {f : FS} {t : Tenant} (h : AtIssue s th) (ht : s.tenant? (s.tenantOf th.row) = some t)
include h ht

/-- SYS.MPOST to the host ring finds no slot, or one that is taken (R354). -/
theorem mpostHost_noSlot (hr : Yields (reachRing t t.hring t.hringNext) s () s1)
    (hs : ∀ dp, s1.ringSlot t t.hring t.hringNext = some dp → s1.slotFree dp = false) (hx : AtIssue s1 x) :
    Completes (.sysMpostHost f) s th (s1.setX x.row (xnum f.d) (-1)) .next := by
  refine asInstr_yields h ((Yields.readV h _).bind ((Yields.readX h _).bind ((Yields.get s).bind ((Yields.myRow h).bind ?_))))
  dsimp only
  rw [ht]
  refine hr.bind ((Yields.get s1).bind ?_)
  cases hslot : s1.ringSlot t t.hring t.hringNext with
  | none => exact .writeNext hx _ _
  | some dp => exact .pos (by simp [hs dp hslot]) (.writeNext hx _ _)

/-- SYS.MPOST to the mailbox finds no slot, or one that is taken, or a Post that waits (R354). -/
theorem mpostMbox_noSlot (hr : Yields (reachRing t t.mbox t.mboxNext) s () s1)
    (hs : ∀ dp, s1.ringSlot t t.mbox t.mboxNext = some dp → t.posts ≠ [] ∨ s1.slotFree dp = false) (hx : AtIssue s1 x) :
    Completes (.sysMpostMbox f) s th (s1.setX x.row (xnum f.d) (-1)) .next := by
  refine asInstr_yields h ((Yields.readV h _).bind ((Yields.get s).bind ((Yields.myRow h).bind ?_)))
  rw [ht]
  refine hr.bind ((Yields.get s1).bind ?_)
  cases hslot : s1.ringSlot t t.mbox t.mboxNext with
  | none => exact .writeNext hx _ _
  | some dp => exact .pos (by simpa using hs dp hslot) (.writeNext hx _ _)

end Posts

/-- Settles O51: SYS.LOG by the record of its microsecond, SYS.MPOST by the slot that it finds, SYS.SCRUB by its privilege. -/
theorem serviceInstructionsComplete : Obligations.ServiceInstructionsComplete := by
  intro s s1 th u f h a b tn v us minusOne
  have ra := Yields.readX h (xnum f.a)
  have rb := Yields.readX h (xnum f.b)
  have rv := Yields.readV h (vnum f.a)
  refine ⟨?trap, fun t ht => ⟨fun hus => ?logLimited, fun hus => ?log,
      fun hr => ⟨fun dp hs hfree => ?host, fun hs => ?hostNone, fun dp hs hfull => ?hostFull⟩,
      fun hr => ⟨fun dp hs hposts hfree => ?mbox, fun hs => ?mboxNone, fun dp hs hfull => ?mboxFull⟩⟩,
    fun hp => ?scrubPriv, fun dp own hp hb hdp => ?scrub⟩
  case trap => exact asInstr_faults h (.bind ra (.fault _ _))
  case logLimited =>
    refine asInstr_yields h (ra.bind (rb.bind ((Yields.me h).bind (Yields.bind (yields_modify ?_) (.pure _ _)))))
    simp [ht, hus, tn, us]
  case log =>
    refine asInstr_yields h (ra.bind (rb.bind ((Yields.me h).bind (Yields.bind (yields_modify ?_) (.pure _ _)))))
    simp [ht, hus, tn, us, a, b]
  case host =>
    intro w hu
    refine asInstr_yields h (rv.bind (rb.bind ((Yields.get s).bind ((Yields.myRow h).bind ?_))))
    dsimp only
    rw [ht]
    refine hr.bind ((Yields.get s1).bind ?_)
    rw [hs]
    exact .neg (by simp [hfree]) (.setWriteNext hu _ _)
  case hostNone => exact fun x hx => mpostHost_noSlot h ht hr (by simp [hs]) hx
  case hostFull => exact fun x hx => mpostHost_noSlot h ht hr (by simp [hs, hfull]) hx
  case mbox =>
    intro w hu
    refine asInstr_yields h (rv.bind ((Yields.get s).bind ((Yields.myRow h).bind ?_)))
    rw [ht]
    refine hr.bind ((Yields.get s1).bind ?_)
    rw [hs]
    exact .neg (by simp [hposts, hfree]) (.setWriteNext hu _ _)
  case mboxNone => exact fun x hx => mpostMbox_noSlot h ht hr (by simp [hs]) hx
  case mboxFull => exact fun x hx => mpostMbox_noSlot h ht hr (by simpa [hs] using hfull) hx
  case scrubPriv =>
    exact asInstr_faults h (.bind ra (.bind rb (.bind (.get s) (.bind (.myRow h) (.left (.require _ (beq_false_of_ne hp)))))))
  case scrub =>
    intro r hu
    refine asInstr_yields h (ra.bind (rb.bind ((Yields.get s).bind ((Yields.myRow h).bind ((Yields.require _ (beq_iff_eq.2 hp)).bind ?_)))))
    exact (Yields.require _ (beq_iff_eq.2 hb)).bind (hdp.bind ((Yields.get s1).bind (.setWriteNext hu _ _)))

end Sys2Proof
end

section
/-!
PROOFS. Class 0xC, barrier domains: that the instructions that bind, leave, step, vote in and abort a domain complete (R327 to R334, R396).
-/
namespace Sys2Proof
open Sys2Proof.Machine

section Threads
variable {s : State} {th : Thread}

/-- A change of the threads that keeps their identities leaves the thread at issue, as it is then. -/
theorem AtIssue.mapThreads (h : AtIssue s th) (f : Thread → Thread) (hf : ∀ t, (f t).id = t.id) :
    AtIssue { s with threads := s.threads.map f } (f th) := by
  obtain ⟨id, hcur, hth⟩ := Option.bind_eq_some_iff.1 h
  refine Option.bind_eq_some_iff.2 ⟨id, hcur, ?_⟩
  have hid : ((fun t : Thread => t.id == id) ∘ f) = fun t => t.id == id := by
    funext t
    simp [hf]
  have hfind : s.threads.find? (·.id == id) = some th := hth
  show (s.threads.map f).find? (·.id == id) = some (f th)
  rw [List.find?_map, hid, hfind]
  rfl

/-- The thread at issue keeps its row where one thread's record is changed and no row is. -/
theorem AtIssue.updThread (h : AtIssue s th) (id : Nat) (f : Thread → Thread) (hid : ∀ t, (f t).id = t.id) (hrow : ∀ t, (f t).row = t.row) :
    ∃ u, AtIssue (s.updThread id f) u ∧ u.row = th.row :=
  ⟨_, h.mapThreads (fun t => if t.id = id then f t else t) (fun t => by split <;> simp [hid]), by split <;> simp [hrow]⟩

theorem AtIssue.dropExchanges (h : AtIssue s th) (name : Nat) : ∃ u, AtIssue (dropExchanges s name) u ∧ u.row = th.row :=
  ⟨_, h.mapThreads (fun t => if (t.exchange.map (·.1)) = some name then { t with exchange := none } else t) (fun t => by split <;> rfl),
    by split <;> rfl⟩

end Threads

section Answer
variable {s : State} {th u : Thread}

/-- The answer of SYN.DOM.bind: the answers kept for its waits are of no more use, and a code is written (R170, R329). -/
theorem domAnswer_yields (h : AtIssue (s.dropAnswers th.id) u) (n : Nat) (c : Word) :
    Yields (do
      modify fun s => s.dropAnswers th.id
      Exec.writeX n c
      return Flow.next) s .next ((s.dropAnswers th.id).setX u.row n c) :=
  (Yields.modify _ _).bind (.writeNext h _ _)

end Answer

/-- Settles O44: the instructions of a bound domain by its abort flag and its members, and a bind by what its descriptor names. -/
theorem domainInstructionsComplete : Obligations.DomainInstructionsComplete := by
  intro s s1 th f g d m h
  refine ⟨fun hd => ⟨fun hm => ?vote, fun hab => ?polled, fun hab => ?aborted, ?abort⟩, fun hd => ⟨fun hat => ?unbind, fun hm => ?step⟩,
    fun name bs u hn hat hb hl => ?bind⟩
  case vote =>
    exact asInstr_yields h ((Yields.readX h _).bind ((Yields.readX h _).bind (hd.bind (hm.bind ((Yields.modify _ _).bind (.pure _ _))))))
  case polled => exact asInstr_yields h ((Yields.readX h _).bind (hd.bind ((Yields.require _ (by simp [hab])).bind (.pure _ _))))
  case aborted => exact asInstr_faults h (.bind (.readX h _) (.bind hd (.left (.require _ (by simp [hab])))))
  case abort => exact asInstr_yields h ((Yields.readX h _).bind (hd.bind ((Yields.modify _ _).bind (.pure _ _))))
  case unbind =>
    have hleft : AtIssue { s with domains := s.domains.filter (·.name != d.name) } th := h.of_eq rfl rfl
    obtain ⟨u, hu, hrow⟩ := hleft.dropExchanges d.name
    refine asInstr_yields h ((Yields.readX h _).bind (hd.bind ((Yields.get s).bind ((Yields.me h).bind ((Yields.require _ hat).bind ?_)))))
    exact (Yields.set _ _).bind ((Yields.writeX_row hu hrow _ _).bind (.pure _ _))
  case step =>
    intro k e
    refine ⟨fun hs => ?waits, fun hs hab => ?stepAborted, fun u hs hab hall => ?steps⟩
    case waits =>
      exact asInstr_stalls h (.bind (.readX h _) (.bind hd (.bind hm (.bind (.get s) (.bind (.me h) (.pos (by simp [hs]) (.left (.stall _ _ _))))))))
    case stepAborted =>
      refine asInstr_faults h (.bind (.readX h _) (.bind hd (.bind hm (.bind (.get s) (.bind (.me h) (.neg (by simp [hs]) ?_))))))
      exact .left (.require _ (by simp [hab]))
    case steps =>
      intro p t0 t hu
      refine asInstr_yields h ((Yields.readX h _).bind (hd.bind (hm.bind ((Yields.get s).bind ((Yields.me h).bind (.neg (by simp [hs]) ?_))))))
      exact (Yields.require _ (by simp [hab])).bind (.neg (by simpa [e, k] using hall) (.setWriteNext hu _ _))
  case bind =>
    intro w shape p slots patterns
    have ra := Yields.readX h (xnum g.a)
    have rb := Yields.readX h (xnum g.b)
    refine ⟨fun c hc hu => ?refused, fun s2 s3 s4 rows sched found pool hnone hok hrows hsched hawait hfound hlen hdup hsc hpool => ?bound⟩
    case refused =>
      refine asInstr_yields h (ra.bind (rb.bind (hn.bind ((Yields.get s).bind ((Yields.me h).bind ((Yields.require _ hat).bind ?_))))))
      refine (Yields.require _ (beq_iff_eq.2 hb)).bind (hl.bind ?_)
      obtain ⟨hsome, rfl⟩ | ⟨hnone, hok, rfl⟩ := hc
      · exact .pos hsome (domAnswer_yields hu _ _)
      · exact .neg (by simp [hnone]) (.pos (by simpa using hok) (domAnswer_yields hu _ _))
    case bound =>
      intro e t hu
      refine asInstr_yields h (ra.bind (rb.bind (hn.bind ((Yields.get s).bind ((Yields.me h).bind ((Yields.require _ hat).bind ?_))))))
      refine (Yields.require _ (beq_iff_eq.2 hb)).bind (hl.bind (.neg (by simp [hnone]) (.neg (by simpa using hok) ?_)))
      refine hrows.bind (hsched.bind (hawait.bind (hfound.bind (.neg ?good ((Yields.get s4).bind ?_)))))
      case good =>
        exact not_or.2 ⟨not_not_intro hlen, not_or.2 ⟨not_not_intro hdup, fun hs => Bool.false_ne_true ((congrArg not hsc).symm.trans hs)⟩⟩
      rw [hpool]
      exact (Yields.modify _ _).bind (domAnswer_yields hu _ _)

end Sys2Proof
end

section
/-!
PROOFS. Class 0xB: that signatures, probes, updates, readings of the USN words, the ends of H.REHASH and H.DEDUP complete (R296 to R307).
-/
namespace Sys2Proof
open Sys2Proof.Machine

section Updates
variable {s s1 s2 : State} {th th1 th2 : Thread} {f : FH} {h : HashCtx} {delete queued : Bool} {old : Nat} {a : Word} {parts : List HashPart}

/-- The state once an update has its number: its parts are pending, unless an outside queue has taken them (R301). -/
def updateNumbered (s : State) (usn : Nat) (parts : List HashPart) (queued : Bool) : State := if queued then s else s.addParts usn parts

theorem AtIssue.updateNumbered (hi : AtIssue s th) (usn : Nat) (parts : List HashPart) (queued : Bool) :
    AtIssue (updateNumbered s usn parts queued) th := by
  cases queued with
  | true => exact hi
  | false => exact hi.of_eq rfl rfl

theorem Yields.nextUsn
    (hadd : Yields (Exec.atomicAs (fun id dp => .update id dp parts) .add (wordAdd a 0x40) 8 1 0) s (old, queued) s1) :
    Yields (nextUsn a parts) s ((old + 1) % 2 ^ 64) (updateNumbered s1 ((old + 1) % 2 ^ 64) parts queued) := by
  refine hadd.bind ?_
  cases queued with
  | true => exact .neg (by simp) (.pure _ _)
  | false => exact .pos rfl ((Yields.modify _ _).bind (.pure _ _))

/-- The parts of an insert or a delete, one a table (R301). -/
def updateParts (f : FH) (h : HashCtx) (sigs : Line) (entry : Nat) (delete : Bool) (th : Thread) (tenant : Nat) : List HashPart :=
  (List.range f.cnt.toNat).map fun j => ⟨0, h, f.tbl.toNat + j, lane sigs 16 j, entry, delete, none, th.id, tenant⟩

/-- H.INS or H.DEL checks its table and takes its number on the descriptor, with which its parts are created (R301). -/
theorem submitUpdate_yields (hi : AtIssue s th) (h1 : AtIssue s1 th1) (h2 : AtIssue s2 th2) (he : th.sb = [])
    (ha : (s.getX th.row (xnum f.a)).toNat % 64 = 0) (ht : Yields (hashTable (s.getX th.row (xnum f.a)) (f.tbl.toNat + f.cnt.toNat)) s h s2)
    (hparts : parts = updateParts f h (s.getV th.row (vnum f.c)) ((s.getX th.row (xnum f.b)).toNat % 2 ^ 32) delete th2 (s2.tenantOf th2.row))
    (hadd : Yields (Exec.atomicAs (fun id dp => .update id dp parts) .add (wordAdd (s.getX th.row (xnum f.a)) 0x40) 8 1 0) s2 (old, queued) s1) :
    Yields (submitUpdate f delete) s .next
      ((updateNumbered s1 ((old + 1) % 2 ^ 64) parts queued).setX th1.row (xnum f.d) (.ofNat 64 ((old + 1) % 2 ^ 64))) := by
  subst hparts
  refine (Yields.sbEmpty hi he).bind ((Yields.readX hi _).bind ((Yields.readX hi _).bind ((Yields.readV hi _).bind ?_)))
  refine (Yields.require _ (beq_iff_eq.2 ha)).bind (ht.bind ((Yields.get s2).bind ((Yields.me h2).bind ?_)))
  exact (Yields.nextUsn hadd).bind (.writeNext (h1.updateNumbered _ _ _) _ _)

end Updates

section Rehash
variable {s : State} {th u : Thread} {f : FH} {row : Nat}

/-- The end of H.REHASH: the bucket it answers with, and PROG back at zero (R304). -/
theorem rehashEnd_yields (hi : AtIssue s u) (hrow : u.row = row) (n : Nat) (w : Word) :
    Yields (do
      Exec.writeX n w
      modify fun s => s.setCtrl row 0 32 32 0
      return Flow.next) s .next ((s.setX row n w).setCtrl row 0 32 32 0) :=
  (Yields.writeX_row hi hrow n w).bind ((yields_modify rfl).bind (.pure _ _))

theorem hRehash_done (hi : AtIssue s th) (he : th.sb = []) (hs : th.split = none) (hn : f.cnt.toNat ≤ s.prog th.row) :
    Completes (.hRehash f) s th
      ((s.setX th.row (xnum f.d) (wordAdd (s.getX th.row (xnum f.b)) f.cnt.toNat)).setCtrl th.row 0 32 32 0) .next := by
  refine asInstr_yields hi ((Yields.sbEmpty hi he).bind ((Yields.me hi).bind ?_))
  rw [hs]
  refine (Yields.readX hi _).bind ((Yields.readX hi _).bind ((Yields.me hi).bind ((Yields.get s).bind (.pos hn ?_))))
  exact rehashEnd_yields hi rfl _ _

theorem hRehash_short {sp : Split} (hi : AtIssue s th) (he : th.sb = []) (hs : th.split = some sp) (hstage : sp.stage = 4)
    (hf : sp.failed = none) (hshort : sp.short = true) :
    Completes (.hRehash f) s th (((s.updThread th.id fun t => { t with split := none }).setX th.row (xnum f.d)
      (.ofNat 64 (2 ^ 63 + sp.bucket))).setCtrl th.row 0 32 32 0) .next := by
  obtain ⟨u, hu, hrow⟩ := hi.updThread th.id (fun t => { t with split := none }) (fun _ => rfl) fun _ => rfl
  refine asInstr_yields hi ((Yields.sbEmpty hi he).bind ((Yields.me hi).bind ?_))
  rw [hs]
  refine .neg (by omega) (.neg (by omega) ?_)
  rw [hf]
  exact (Yields.modify _ _).bind (.pos hshort (rehashEnd_yields hu hrow _ _))

end Rehash

/-- Settles O42: each instruction by the checks of its descriptor and the parts that it runs. -/
theorem retrievalInstructionsComplete : Obligations.RetrievalInstructionsComplete := by
  refine ⟨fun s s1 s2 s3 th th1 u f h hi h1 => ?table, fun s s1 s2 s3 th f hi => ?whole⟩
  case table =>
    intro a b c d n ha
    have ra := Yields.readX hi (xnum f.a)
    have rb := Yields.readX hi (xnum f.b)
    have aligned {w : Word} : Yields (Exec.require (a.toNat % 64 == 0) .align w) s () s := .require _ (beq_iff_eq.2 ha)
    refine ⟨fun xs hb hd hx => ?sig, fun counter region he hd hc hroom hp ht hh hcounter => ?probe,
      fun delete queued th2 old he ht h2 => ?update, fun bs he hd hr => ?usn, fun dp at_ own own' bs hd hdp hat hr hle hu => ?wusn⟩
    case sig =>
      refine asInstr_yields hi (ra.bind (rb.bind (aligned.bind (hd.bind ((Yields.require _ (beq_iff_eq.2 hb)).bind (hx.bind ?_))))))
      exact .writeNextV h1 _ _
    case probe =>
      intro o
      refine asInstr_yields hi ((Yields.sbEmpty hi he).bind ((Yields.readX hi _).bind (ra.bind ((Yields.readV hi _).bind ?_))))
      refine (Yields.readX hi _).bind (aligned.bind ((Yields.require _ (beq_iff_eq.2 hd)).bind ((Yields.require _ (beq_iff_eq.2 hc)).bind ?_)))
      refine (Yields.get s).bind ((Yields.me hi).bind (.neg (Nat.not_le.2 hroom) (hp.bind (ht.bind (hh.bind (hcounter.bind ?_))))))
      exact (Yields.get s1).bind ((Yields.set _ _).bind (.pure _ _))
    case update =>
      intro parts hadd usn t
      have hsub := submitUpdate_yields (delete := delete) hi h1 h2 he ha ht rfl hadd
      cases delete with
      | true => exact asInstr_yields hi hsub
      | false => exact asInstr_yields hi hsub
    case usn =>
      refine asInstr_yields hi ((Yields.sbEmpty hi he).bind (ra.bind (aligned.bind (hd.bind (hr.bind ?_)))))
      exact .writeNext h1 _ _
    case wusn =>
      refine asInstr_yields hi (ra.bind (rb.bind (aligned.bind (hd.bind (hdp.bind (hat.bind (hr.bind ((Yields.me h1).bind ?_))))))))
      exact .neg (Nat.not_lt.2 hle) ((Yields.modify _ _).bind (.writeNext hu _ _))
  case whole =>
    intro a b d n
    refine ⟨hRehash_done hi, fun sp => hRehash_short hi,
      fun bs m ws ha hd hl => ?dedup⟩
    case dedup =>
      intro rows cap hm hws hst hes
      subst hm hws
      refine asInstr_yields hi ((Yields.readX hi _).bind ((Yields.readX hi _).bind ((Yields.readX hi _).bind ?_)))
      refine (Yields.require _ (beq_iff_eq.2 ha)).bind ((Yields.require _ (beq_iff_eq.2 hd)).bind (hl.bind ?_))
      exact hst.bind (hes.bind (.pure _ _))

end Sys2Proof
end
